-- ==== Sys2Proof/Word.lean ====
section
/-! DEFINITION. Widths of the machine's values (R13, R14, R35, R55) and their plainest arithmetic. -/

namespace Sys2Proof

/-- A 32-bit register value of one lane (R13). -/
abbrev Word := BitVec 32
/-- A 64-bit register pair, address or control register (R14). -/
abbrev Dword := BitVec 64
/-- A 16-bit element (R35). -/
abbrev Half := BitVec 16
/-- A byte of memory. -/
abbrev Byte := BitVec 8
/-- A lane mask of up to 64 lanes (R219). -/
abbrev Mask := BitVec 64

/-- LEN: the length of an instruction (R55, R56). -/
inductive Len where
  | w64 | w96 | w128
deriving DecidableEq, Repr

/-- SCOPE (R56, R66). -/
inductive Scope where
  | lane | group | set | block
deriving DecidableEq, Repr

/-- A sparse table: keys strictly rising, no key listed with the table's default value. -/
abbrev SMap (α : Type) := List (Nat × α)

/-- Signed 32-bit maximum and minimum (R34). -/
def maxS32 : Int := 2147483647
def minS32 : Int := -2147483648
def maxN32 : Int := 4294967295

/-- `sat(x, lo, hi)` of R3. -/
def satInt (x lo hi : Int) : Int := if x < lo then lo else if hi < x then hi else x

end Sys2Proof
end

