-- ==== Sys2Proof/Syntax.lean ====
section
/-! DEFINITION. Instructions and events as syntax: one constructor for each row of the table of operations. An encoded
instruction carries the fields of its words (R55 to R58), which keep their place whatever the opcode; an event carries
what tells one occurrence of it from another, and the values that come from outside the module. -/

namespace Sys2Proof

/-- The fields of an instruction's one to three words other than OP (R56 to R58). -/
structure Fields where
  len   : Len
  scope : Scope
  stall : BitVec 3
  sw    : Bool
  d     : BitVec 10
  a     : BitVec 10
  b     : BitVec 10
  p     : BitVec 10
  pn    : Bool
  ra    : Bool
  rb    : Bool
  mod   : BitVec 3
  c     : BitVec 10
  perm  : BitVec 12
  hint  : BitVec 3
  sub   : BitVec 4
  rsvi  : BitVec 3
  imm   : BitVec 32
deriving DecidableEq, Repr

/-- A request that arrives from another module (R203, R367). -/
structure RemoteReq where
  op      : Nat        -- SUB of R203: 0 put, 1 get, 2 fetch-add, 3 compare-and-swap
  smod    : Nat        -- initiating module
  stenant : Nat        -- initiating tenant
  qp      : Nat        -- the target's context of the queue pair
  addr    : Dword      -- remote address
  len     : Nat        -- bytes
  data    : List Byte  -- bytes of a put
  opnd    : Dword      -- addend, or compare value
  new     : Dword      -- new value of a compare-and-swap
  cut     : Option (List Nat) := none  -- the queue pair has left READY: the chunks of a put that still arrive (R369)
deriving DecidableEq, Repr

/-- The peer's queue-pair context as the fabric reports it (R364). -/
structure PeerView where
  valid   : Bool
  peerMod : Nat
  peerQp  : Nat
  lanes   : BitVec 96
deriving DecidableEq, Repr

/-- Operands of a CKCMD store (R401). -/
structure CkCmd where
  tracker : Nat
  qp      : Nat
  status  : Nat
deriving DecidableEq, Repr

/-- What a hart's access does, and whether it is a load-acquire or store-release, or a fence of R277 orders it. -/
structure HartAccess where
  store   : Bool
  ordered : Bool
deriving DecidableEq, Repr

/-- The instructions and events of the part. -/
inductive Instr where
  /-- NOP (R103). -/
  | nop (f : Fields)
  /-- IADD (R91). -/
  | iadd (f : Fields)
  /-- ISUB (R91). -/
  | isub (f : Fields)
  /-- IADD64 (R91). -/
  | iadd64 (f : Fields)
  /-- ISUB64 (R91). -/
  | isub64 (f : Fields)
  /-- IMUL (R92). -/
  | imul (f : Fields)
  /-- IMULH (R92). -/
  | imulh (f : Fields)
  /-- IMAD (R92). -/
  | imad (f : Fields)
  /-- IMADW (R92). -/
  | imadw (f : Fields)
  /-- IMIN (R93). -/
  | imin (f : Fields)
  /-- IMAX (R93). -/
  | imax (f : Fields)
  /-- IABS (R93). -/
  | iabs (f : Fields)
  /-- IDIV (R94). -/
  | idiv (f : Fields)
  /-- IREM (R94). -/
  | irem (f : Fields)
  /-- ICMP (R95). -/
  | icmp (f : Fields)
  /-- SEL (R96). -/
  | sel (f : Fields)
  /-- AND (R97). -/
  | and (f : Fields)
  /-- OR (R97). -/
  | or (f : Fields)
  /-- XOR (R97). -/
  | xor (f : Fields)
  /-- ANDN (R97). -/
  | andn (f : Fields)
  /-- NOT (R97). -/
  | not (f : Fields)
  /-- LOP3 (R97). -/
  | lop3 (f : Fields)
  /-- SHL (R98). -/
  | shl (f : Fields)
  /-- SHR (R98). -/
  | shr (f : Fields)
  /-- SAR (R98). -/
  | sar (f : Fields)
  /-- SHF (R98). -/
  | shf (f : Fields)
  /-- BFE (R99). -/
  | bfe (f : Fields)
  /-- BFI (R99). -/
  | bfi (f : Fields)
  /-- POPC (R100). -/
  | popc (f : Fields)
  /-- CLZ (R100). -/
  | clz (f : Fields)
  /-- BREV (R100). -/
  | brev (f : Fields)
  /-- LEA (R101). -/
  | lea (f : Fields)
  /-- MOV (R102). -/
  | mov (f : Fields)
  /-- MOVI (R102). -/
  | movi (f : Fields)
  /-- IADDI (R91). -/
  | iaddi (f : Fields)
  /-- ICMPI (R95). -/
  | icmpi (f : Fields)
  /-- ANDI (R97). -/
  | andi (f : Fields)
  /-- ORI (R97). -/
  | ori (f : Fields)
  /-- XORI (R97). -/
  | xori (f : Fields)
  /-- PERM (R106). -/
  | perm (f : Fields)
  /-- SHUF (R107). -/
  | shuf (f : Fields)
  /-- SREAD (R108). -/
  | sread (f : Fields)
  /-- VOTE (R109). -/
  | vote (f : Fields)
  /-- ELECT (R110). -/
  | elect (f : Fields)
  /-- REDUCE (R112). -/
  | reduce (f : Fields)
  /-- SCAN (R112). -/
  | scan (f : Fields)
  /-- MATCH (R111). -/
  | matchMask (f : Fields)
  /-- FADD (R116). -/
  | fadd (f : Fields)
  /-- FSUB (R116). -/
  | fsub (f : Fields)
  /-- FMUL (R116). -/
  | fmul (f : Fields)
  /-- FFMA (R116). -/
  | ffma (f : Fields)
  /-- FMIN (R117). -/
  | fmin (f : Fields)
  /-- FMAX (R117). -/
  | fmax (f : Fields)
  /-- FCMP (R119). -/
  | fcmp (f : Fields)
  /-- FRND (R118). -/
  | frnd (f : Fields)
  /-- FRCP (R121). -/
  | frcp (f : Fields)
  /-- FRSQ (R121). -/
  | frsq (f : Fields)
  /-- FSQRT (R116). -/
  | fsqrt (f : Fields)
  /-- FDIV (R116). -/
  | fdiv (f : Fields)
  /-- FEXP2 (R121). -/
  | fexp2 (f : Fields)
  /-- FLOG2 (R121). -/
  | flog2 (f : Fields)
  /-- FSIN (R121). -/
  | fsin (f : Fields)
  /-- FCOS (R121). -/
  | fcos (f : Fields)
  /-- FCLASS (R120). -/
  | fclass (f : Fields)
  /-- PADD2 (R123). -/
  | padd2 (f : Fields)
  /-- PMUL2 (R123). -/
  | pmul2 (f : Fields)
  /-- PFMA2 (R123). -/
  | pfma2 (f : Fields)
  /-- PMIN2 (R123). -/
  | pmin2 (f : Fields)
  /-- PMAX2 (R123). -/
  | pmax2 (f : Fields)
  /-- PDOT2 (R123). -/
  | pdot2 (f : Fields)
  /-- CVT (R126). -/
  | cvt (f : Fields)
  /-- CVTPK (R127). -/
  | cvtpk (f : Fields)
  /-- CVTN (R128). -/
  | cvtn (f : Fields)
  /-- CVTW (R129). -/
  | cvtw (f : Fields)
  /-- TERPK (R130). -/
  | terpk (f : Fields)
  /-- TERUNPK (R131). -/
  | terunpk (f : Fields)
  /-- SCACC (R132). -/
  | scacc (f : Fields)
  /-- BRA (R135). -/
  | bra (f : Fields)
  /-- BRX (R135). -/
  | brx (f : Fields)
  /-- CALL (R135). -/
  | call (f : Fields)
  /-- CALLX (R135). -/
  | callx (f : Fields)
  /-- RET (R138). -/
  | ret (f : Fields)
  /-- EXIT (R139). -/
  | exit (f : Fields)
  /-- YIELD (R140). -/
  | yield (f : Fields)
  /-- BKPT (R141). -/
  | bkpt (f : Fields)
  /-- SYNC (R142). -/
  | sync (f : Fields)
  /-- SETJOIN (R143). -/
  | setjoin (f : Fields)
  /-- SETLEAVE (R144). -/
  | setleave (f : Fields)
  /-- REGROUP (R145). -/
  | regroup (f : Fields)
  /-- RGHOME (R150). -/
  | rghome (f : Fields)
  /-- REGROUP_COMMIT (R145). -/
  | regroupCommit (core block role : Nat)
  /-- REGROUP_PREEMPT_TIMEOUT (R148). -/
  | regroupPreemptTimeout (core block role : Nat)
  /-- GROW (R151). -/
  | grow (f : Fields)
  /-- GROW_GRANT (R245). -/
  | growGrant (core : Nat)
  /-- SHRINK (R152). -/
  | shrink (f : Fields)
  /-- COMPACTION (R243). -/
  | compaction (core : Nat)
  /-- RENDEZVOUS_COMPLETE (R231). -/
  | rendezvousComplete (core ctx : Nat) (pc : Dword)
  /-- LD (R160). -/
  | ld (f : Fields)
  /-- ST (R161). -/
  | st (f : Fields)
  /-- LDS (R160). -/
  | lds (f : Fields)
  /-- STS (R161). -/
  | sts (f : Fields)
  /-- ATOM (R165). -/
  | atom (f : Fields)
  /-- ATOMS (R165). -/
  | atoms (f : Fields)
  /-- RED (R165). -/
  | red (f : Fields)
  /-- FENCE (R168). -/
  | fence (f : Fields)
  /-- CCTL (R169). -/
  | cctl (f : Fields)
  /-- PREF (R170). -/
  | pref (f : Fields)
  /-- LOAD_RETURN (R160). -/
  | loadReturn (core ctx id : Nat) (lanes : Mask)
  /-- STORE_LEAVE_QUEUE (R161). -/
  | storeLeaveQueue (core ctx : Nat)
  /-- STORE_ACK (R267). -/
  | storeAck (core id lane : Nat)
  /-- ATOMIC_PERFORM (R165). -/
  | atomicPerform (core id lane : Nat)
  /-- PAGE_WALK (R262). -/
  | pageWalk (die id : Nat)
  /-- MMA (R178). -/
  | mma (f : Fields)
  /-- MMAS (R178). -/
  | mmas (f : Fields)
  /-- MMAT (R178). -/
  | mmat (f : Fields)
  /-- MATRIX_GRANT (R186). -/
  | matrixGrant (cluster : Nat)
  /-- MATRIX_COMPLETE (R182). -/
  | matrixComplete (id : Nat)
  /-- OPRDY (R181). -/
  | oprdy (f : Fields)
  /-- ACTLD (R188). -/
  | actld (f : Fields)
  /-- XVSET (R189). -/
  | xvset (f : Fields)
  /-- XVSET_RD (R189). -/
  | xvsetRd (f : Fields)
  /-- MXSTAT (R190). -/
  | mxstat (f : Fields)
  /-- CPY (R196). -/
  | cpy (f : Fields)
  /-- CPYG (R196). -/
  | cpyg (f : Fields)
  /-- CPYS (R196). -/
  | cpys (f : Fields)
  /-- COPY_CHUNK (R198). -/
  | copyChunk (id : Nat)
  /-- COPY_COMPLETE (R197). -/
  | copyComplete (id : Nat)
  /-- BUDGET_REFILL (R343). -/
  | budgetRefill (die : Nat)
  /-- HTEST (R194). -/
  | htest (f : Fields)
  /-- HMOV (R194). -/
  | hmov (f : Fields)
  /-- HCANCEL (R194). -/
  | hcancel (f : Fields)
  /-- HWAIT (R194). -/
  | hwait (f : Fields)
  /-- TFETCH (R201). -/
  | tfetch (f : Fields)
  /-- TRET (R202). -/
  | tret (f : Fields)
  /-- LPOST (R203). -/
  | lpost (f : Fields)
  /-- LINK_TRANSMIT (R366). -/
  | linkTransmit (id : Nat)
  /-- LINK_REQUEST_ARRIVE (R367). -/
  | linkRequestArrive (req : RemoteReq)
  /-- LINK_RESPONSE (R366). -/
  | linkResponse (id cause chunks : Nat) (data : List Byte)
  /-- FLIT_TIMEOUT (R362). -/
  | flitTimeout (lane : Nat)
  /-- LANE_RETRAIN_FAIL (R362). -/
  | laneRetrainFail (lane : Nat)
  /-- QP_ERROR (R364). -/
  | qpError (qp : Nat) (peerDown : Bool)
  /-- TRAP (R205). -/
  | trap (f : Fields)
  /-- TRAP_TAKE (R281). -/
  | trapTake (core id : Nat)
  /-- FRAME_DELIVER (R282). -/
  | frameDeliver (core : Nat) (firmware : Bool)
  /-- ERET (R206). -/
  | eret (f : Fields)
  /-- WINRD (R207). -/
  | winrd (f : Fields)
  /-- WINWR (R207). -/
  | winwr (f : Fields)
  /-- RQRD (R208). -/
  | rqrd (f : Fields)
  /-- RQWR (R208). -/
  | rqwr (f : Fields)
  /-- CSRRD (R210). -/
  | csrrd (f : Fields)
  /-- CSRWR (R210). -/
  | csrwr (f : Fields)
  /-- T_NOTICE_WRITE (R335). -/
  | tNoticeWrite (core ctx : Nat)
  /-- T_XLAT_WRITE (R328). -/
  | tXlatWrite (core ctx : Nat)
  /-- IFENCE (R211). -/
  | ifence (f : Fields)
  /-- XBLD (R212). -/
  | xbld (f : Fields)
  /-- XBINV (R213). -/
  | xbinv (f : Fields)
  /-- XBRD (R214). -/
  | xbrd (f : Fields)
  /-- CEDE (R215). -/
  | cede (f : Fields)
  /-- CEDE_ARRIVAL (R336). -/
  | cedeArrival (id : Nat)
  /-- FWCALL (R217). -/
  | fwcall (f : Fields)
  /-- GSTOP (R218). -/
  | gstop (f : Fields)
  /-- NWAIT (R216). -/
  | nwait (f : Fields)
  /-- SLOT_RELEASE (R139). -/
  | slotRelease (core ctx : Nat)
  /-- LAUNCH_WRITE (R301). -/
  | launchWrite (q : Nat) (bytes : List Byte)
  /-- DOORBELL (R301). -/
  | doorbell (q : Nat) (v : Word)
  /-- QUEUE_ENABLE (R298). -/
  | queueEnable (q : Nat)
  /-- QUEUE_DISABLE (R298). -/
  | queueDisable (q : Nat)
  /-- QUEUE_STOPPED (R298). -/
  | queueStopped (q : Nat)
  /-- QUEUE_RESET (R298). -/
  | queueReset (q : Nat) (restart : Word)
  /-- PACKET_CLAIM (R304). -/
  | packetClaim (q : Nat)
  /-- PACKET_SLOT_REREAD (R304). -/
  | packetSlotReread (q : Nat) (pos : Word)
  /-- PACKET_CHECK (R306). -/
  | packetCheck (q : Nat) (pos : Word)
  /-- BLOCK_PLACE (R307). -/
  | blockPlace (launch core : Nat)
  /-- LAUNCH_COMPLETE (R307). -/
  | launchComplete (launch : Nat)
  /-- GANG_MIGRATE (R310). -/
  | gangMigrate (core block target : Nat)
  /-- FIRMWARE_END_LAUNCH (R279). -/
  | firmwareEndLaunch (launch : Nat)
  /-- NOTICE_POST (R334). -/
  | noticePost (tenant : Nat) (kind count deadline : Nat) (cands : List Nat) (newTag : Nat)
  /-- NOTICE_DEADLINE (R337). -/
  | noticeDeadline (tenant kind : Nat)
  /-- SKIDDER_SEIZE (R338). -/
  | skidderSeize (tenant kind : Nat)
  /-- PREEMPT_REQUEST (R346). -/
  | preemptRequest (bytes : List Byte)
  /-- PREEMPT_DRAIN_DEADLINE (R350). -/
  | preemptDrainDeadline (req cluster : Nat)
  /-- PREEMPT_SAVE (R351). -/
  | preemptSave (req core : Nat)
  /-- PREEMPT_DISCARD (R352). -/
  | preemptDiscard (req core : Nat)
  /-- PREEMPT_CLUSTER_DONE (R353). -/
  | preemptClusterDone (req cluster : Nat)
  /-- BLOCK_RESUME (R356). -/
  | blockResume (id core : Nat)
  /-- FUNCTION_LEVEL_RESET (R359). -/
  | functionLevelReset (f : Nat)
  /-- FLR_DRAINED (R359). -/
  | flrDrained (f : Nat)
  /-- FUNCTION_PAUSE (R358). -/
  | functionPause (f : Nat)
  /-- FUNCTION_PAUSED (R358). -/
  | functionPaused (f : Nat)
  /-- FUNCTION_UNPAUSE (R358). -/
  | functionUnpause (f : Nat)
  /-- QP_SET_READY (R364). -/
  | qpSetReady (qp : Nat) (peer : PeerView)
  /-- QP_TEARDOWN (R364). -/
  | qpTeardown (qp : Nat)
  /-- MSI_UNMASK (R373). -/
  | msiUnmask (i : Nat)
  /-- PCIE_INBOUND_WRITE (R277). -/
  | pcieInboundWrite (fn pa : Nat) (data : List Byte)
  /-- WATCHDOG_CONTROL (R389). -/
  | watchdogControl (v : Word)
  /-- WATCHDOG_KICK (R389). -/
  | watchdogKick (v : Word)
  /-- WATCHDOG_EXPIRE (R389). -/
  | watchdogExpire
  /-- POWER_ON (R386). -/
  | powerOn
  /-- COLD_START (R386). -/
  | coldStart (failStep : Nat)
  /-- WARM_START (R386). -/
  | warmStart (failStep : Nat) (deadDies : BitVec 4)
  /-- DIRTY_SWAP (R400). -/
  | dirtySwap (k : Nat)
  /-- ROUND (R401). -/
  | ckRound (cmd : CkCmd)
  /-- FINAL (R402). -/
  | ckFinal (cmd : CkCmd)
  /-- ABORT (R401). -/
  | ckAbort (cmd : CkCmd)
  /-- ROLLBACK (R406). -/
  | ckRollback (cmd : CkCmd)
  /-- CKCMD_INVALID (R401). -/
  | ckcmdInvalid (op : Nat) (cmd : CkCmd)
  /-- CHECKPOINT_OP_DONE (R401). -/
  | checkpointOpDone (id : Nat) (reason : Nat)
  /-- RECEIVER_ENABLE (R404). -/
  | receiverEnable (k : Nat) (qp : Nat)
  /-- STAGE_RECORD (R405). -/
  | stageRecord (k : Nat) (kind : Nat) (frame : Nat) (swapSeq : Word) (data : List Byte)
  /-- COMMIT_APPLY (R405). -/
  | commitApply (k tenant : Nat) (swapSeq : Word)
  /-- PORTS_DOWN (R409). -/
  | portsDown (modid : Nat)
  /-- LOGRD (R413). -/
  | mgLogrd (buf first count : Nat)
  /-- STAGE (R417). -/
  | mgStage (buf len : Nat)
  /-- ACTIVATE (R413). -/
  | mgActivate
  /-- ATTEST (R418). -/
  | mgAttest (buf : Nat) (nonce : List Byte)
  /-- START (R413). -/
  | mgStart (cold : Bool)
  /-- CONFIG (R413). -/
  | mgConfig (modid : Nat) (ep : Bool)
  /-- LIMIT (R415). -/
  | mgLimit (sensor : Nat) (value : Word)
  /-- MCMD_INVALID (R413). -/
  | mcmdInvalid (op : Nat)
  /-- MGMT_COMMAND_DONE (R412). -/
  | mgmtCommandDone
  /-- SENSOR_SAMPLE (R414). -/
  | sensorSample (thermal : List Word) (rails : List (Word × Word))
  /-- REGISTER_WRITE (R297). -/
  | registerWrite (pa : Nat) (value : Dword)
  /-- RESULT_WRITEBACK (R68). -/
  | resultWriteback (core ctx id : Nat)
  /-- HOST_HART_ACCESS (R277). -/
  | hostHartAccess (hart : Nat) (kind : HartAccess) (pa size : Nat) (data : List Byte)
deriving DecidableEq, Repr

end Sys2Proof
end

