-- ==== Sys2Proof/Machine/OpTable.lean ====
section
/-! DEFINITION. The opcode map (R74, R75) and, for each opcode, the values its fields may hold (R56 to R59, R63, R64 and
the encoding tables of R90, R115, R133, R154, R171, R191) and the registers it names (R13, R14). -/

namespace Sys2Proof.Machine
open Sys2Proof

/-- The opcode of an encoded instruction (R74); an event has none. -/
def opcodeOf (i : Instr) : Option Nat :=
  match i with
  | .nop _ => some 0x0
  | .iadd _ => some 0x1
  | .isub _ => some 0x2
  | .iadd64 _ => some 0x3
  | .isub64 _ => some 0x4
  | .imul _ => some 0x5
  | .imulh _ => some 0x6
  | .imad _ => some 0x7
  | .imadw _ => some 0x8
  | .imin _ => some 0x9
  | .imax _ => some 0xa
  | .iabs _ => some 0xb
  | .idiv _ => some 0xc
  | .irem _ => some 0xd
  | .icmp _ => some 0xe
  | .sel _ => some 0xf
  | .and _ => some 0x10
  | .or _ => some 0x11
  | .xor _ => some 0x12
  | .andn _ => some 0x13
  | .not _ => some 0x14
  | .lop3 _ => some 0x15
  | .shl _ => some 0x16
  | .shr _ => some 0x17
  | .sar _ => some 0x18
  | .shf _ => some 0x19
  | .bfe _ => some 0x1a
  | .bfi _ => some 0x1b
  | .popc _ => some 0x1c
  | .clz _ => some 0x1d
  | .brev _ => some 0x1e
  | .lea _ => some 0x1f
  | .mov _ => some 0x20
  | .movi _ => some 0x21
  | .iaddi _ => some 0x22
  | .icmpi _ => some 0x23
  | .andi _ => some 0x24
  | .ori _ => some 0x25
  | .xori _ => some 0x26
  | .perm _ => some 0x40
  | .shuf _ => some 0x41
  | .sread _ => some 0x42
  | .vote _ => some 0x43
  | .elect _ => some 0x44
  | .reduce _ => some 0x45
  | .scan _ => some 0x46
  | .matchMask _ => some 0x47
  | .fadd _ => some 0x80
  | .fsub _ => some 0x81
  | .fmul _ => some 0x82
  | .ffma _ => some 0x83
  | .fmin _ => some 0x84
  | .fmax _ => some 0x85
  | .fcmp _ => some 0x86
  | .frnd _ => some 0x87
  | .frcp _ => some 0x88
  | .frsq _ => some 0x89
  | .fsqrt _ => some 0x8a
  | .fdiv _ => some 0x8b
  | .fexp2 _ => some 0x8c
  | .flog2 _ => some 0x8d
  | .fsin _ => some 0x8e
  | .fcos _ => some 0x8f
  | .fclass _ => some 0x90
  | .padd2 _ => some 0xa0
  | .pmul2 _ => some 0xa1
  | .pfma2 _ => some 0xa2
  | .pmin2 _ => some 0xa3
  | .pmax2 _ => some 0xa4
  | .pdot2 _ => some 0xa5
  | .cvt _ => some 0x100
  | .cvtpk _ => some 0x101
  | .cvtn _ => some 0x102
  | .cvtw _ => some 0x103
  | .terpk _ => some 0x104
  | .terunpk _ => some 0x105
  | .scacc _ => some 0x106
  | .bra _ => some 0x180
  | .brx _ => some 0x182
  | .call _ => some 0x183
  | .callx _ => some 0x184
  | .ret _ => some 0x185
  | .exit _ => some 0x186
  | .yield _ => some 0x187
  | .bkpt _ => some 0x188
  | .sync _ => some 0x1c0
  | .setjoin _ => some 0x1c1
  | .setleave _ => some 0x1c2
  | .regroup _ => some 0x1c3
  | .rghome _ => some 0x1c4
  | .regroupCommit _ _ _ => none
  | .regroupPreemptTimeout _ _ _ => none
  | .grow _ => some 0x1c5
  | .growGrant _ => none
  | .shrink _ => some 0x1c6
  | .compaction _ => none
  | .rendezvousComplete _ _ _ => none
  | .ld _ => some 0x200
  | .st _ => some 0x201
  | .lds _ => some 0x202
  | .sts _ => some 0x203
  | .atom _ => some 0x204
  | .atoms _ => some 0x205
  | .red _ => some 0x206
  | .fence _ => some 0x207
  | .cctl _ => some 0x208
  | .pref _ => some 0x209
  | .loadReturn _ _ _ _ => none
  | .storeLeaveQueue _ _ => none
  | .storeAck _ _ _ => none
  | .atomicPerform _ _ _ => none
  | .pageWalk _ _ => none
  | .mma _ => some 0x2c0
  | .mmas _ => some 0x2c1
  | .mmat _ => some 0x2c2
  | .matrixGrant _ => none
  | .matrixComplete _ => none
  | .oprdy _ => some 0x2c3
  | .actld _ => some 0x2c4
  | .xvset _ => some 0x2c5
  | .xvsetRd _ => some 0x2c5
  | .mxstat _ => some 0x2c6
  | .cpy _ => some 0x280
  | .cpyg _ => some 0x281
  | .cpys _ => some 0x282
  | .copyChunk _ => none
  | .copyComplete _ => none
  | .budgetRefill _ => none
  | .htest _ => some 0x283
  | .hmov _ => some 0x284
  | .hcancel _ => some 0x285
  | .hwait _ => some 0x286
  | .tfetch _ => some 0x300
  | .tret _ => some 0x301
  | .lpost _ => some 0x302
  | .linkTransmit _ => none
  | .linkRequestArrive _ => none
  | .linkResponse _ _ _ _ => none
  | .flitTimeout _ => none
  | .laneRetrainFail _ => none
  | .qpError _ _ => none
  | .trap _ => some 0x340
  | .trapTake _ _ => none
  | .frameDeliver _ _ => none
  | .eret _ => some 0x341
  | .winrd _ => some 0x342
  | .winwr _ => some 0x343
  | .rqrd _ => some 0x344
  | .rqwr _ => some 0x345
  | .csrrd _ => some 0x346
  | .csrwr _ => some 0x347
  | .tNoticeWrite _ _ => none
  | .tXlatWrite _ _ => none
  | .ifence _ => some 0x348
  | .xbld _ => some 0x349
  | .xbinv _ => some 0x34a
  | .xbrd _ => some 0x34b
  | .cede _ => some 0x34c
  | .cedeArrival _ => none
  | .fwcall _ => some 0x34d
  | .gstop _ => some 0x34e
  | .nwait _ => some 0x34f
  | .slotRelease _ _ => none
  | .launchWrite _ _ => none
  | .doorbell _ _ => none
  | .queueEnable _ => none
  | .queueDisable _ => none
  | .queueStopped _ => none
  | .queueReset _ _ => none
  | .packetClaim _ => none
  | .packetSlotReread _ _ => none
  | .packetCheck _ _ => none
  | .blockPlace _ _ => none
  | .launchComplete _ => none
  | .gangMigrate _ _ _ => none
  | .firmwareEndLaunch _ => none
  | .noticePost _ _ _ _ _ _ => none
  | .noticeDeadline _ _ => none
  | .skidderSeize _ _ => none
  | .preemptRequest _ => none
  | .preemptDrainDeadline _ _ => none
  | .preemptSave _ _ => none
  | .preemptDiscard _ _ => none
  | .preemptClusterDone _ _ => none
  | .blockResume _ _ => none
  | .functionLevelReset _ => none
  | .flrDrained _ => none
  | .functionPause _ => none
  | .functionPaused _ => none
  | .functionUnpause _ => none
  | .qpSetReady _ _ => none
  | .qpTeardown _ => none
  | .msiUnmask _ => none
  | .pcieInboundWrite _ _ _ => none
  | .watchdogControl _ => none
  | .watchdogKick _ => none
  | .watchdogExpire => none
  | .powerOn => none
  | .coldStart _ => none
  | .warmStart _ _ => none
  | .dirtySwap _ => none
  | .ckRound _ => none
  | .ckFinal _ => none
  | .ckAbort _ => none
  | .ckRollback _ => none
  | .ckcmdInvalid _ _ => none
  | .checkpointOpDone _ _ => none
  | .receiverEnable _ _ => none
  | .stageRecord _ _ _ _ _ => none
  | .commitApply _ _ _ => none
  | .portsDown _ => none
  | .mgLogrd _ _ _ => none
  | .mgStage _ _ => none
  | .mgActivate => none
  | .mgAttest _ _ => none
  | .mgStart _ => none
  | .mgConfig _ _ => none
  | .mgLimit _ _ => none
  | .mcmdInvalid _ => none
  | .mgmtCommandDone => none
  | .sensorSample _ _ => none
  | .registerWrite _ _ => none
  | .resultWriteback _ _ _ => none
  | .hostHartAccess _ _ _ _ _ => none

/-- The fields of an encoded instruction; an event has none. -/
def fieldsOf (i : Instr) : Option Fields :=
  match i with
  | .nop f => some f
  | .iadd f => some f
  | .isub f => some f
  | .iadd64 f => some f
  | .isub64 f => some f
  | .imul f => some f
  | .imulh f => some f
  | .imad f => some f
  | .imadw f => some f
  | .imin f => some f
  | .imax f => some f
  | .iabs f => some f
  | .idiv f => some f
  | .irem f => some f
  | .icmp f => some f
  | .sel f => some f
  | .and f => some f
  | .or f => some f
  | .xor f => some f
  | .andn f => some f
  | .not f => some f
  | .lop3 f => some f
  | .shl f => some f
  | .shr f => some f
  | .sar f => some f
  | .shf f => some f
  | .bfe f => some f
  | .bfi f => some f
  | .popc f => some f
  | .clz f => some f
  | .brev f => some f
  | .lea f => some f
  | .mov f => some f
  | .movi f => some f
  | .iaddi f => some f
  | .icmpi f => some f
  | .andi f => some f
  | .ori f => some f
  | .xori f => some f
  | .perm f => some f
  | .shuf f => some f
  | .sread f => some f
  | .vote f => some f
  | .elect f => some f
  | .reduce f => some f
  | .scan f => some f
  | .matchMask f => some f
  | .fadd f => some f
  | .fsub f => some f
  | .fmul f => some f
  | .ffma f => some f
  | .fmin f => some f
  | .fmax f => some f
  | .fcmp f => some f
  | .frnd f => some f
  | .frcp f => some f
  | .frsq f => some f
  | .fsqrt f => some f
  | .fdiv f => some f
  | .fexp2 f => some f
  | .flog2 f => some f
  | .fsin f => some f
  | .fcos f => some f
  | .fclass f => some f
  | .padd2 f => some f
  | .pmul2 f => some f
  | .pfma2 f => some f
  | .pmin2 f => some f
  | .pmax2 f => some f
  | .pdot2 f => some f
  | .cvt f => some f
  | .cvtpk f => some f
  | .cvtn f => some f
  | .cvtw f => some f
  | .terpk f => some f
  | .terunpk f => some f
  | .scacc f => some f
  | .bra f => some f
  | .brx f => some f
  | .call f => some f
  | .callx f => some f
  | .ret f => some f
  | .exit f => some f
  | .yield f => some f
  | .bkpt f => some f
  | .sync f => some f
  | .setjoin f => some f
  | .setleave f => some f
  | .regroup f => some f
  | .rghome f => some f
  | .regroupCommit _ _ _ => none
  | .regroupPreemptTimeout _ _ _ => none
  | .grow f => some f
  | .growGrant _ => none
  | .shrink f => some f
  | .compaction _ => none
  | .rendezvousComplete _ _ _ => none
  | .ld f => some f
  | .st f => some f
  | .lds f => some f
  | .sts f => some f
  | .atom f => some f
  | .atoms f => some f
  | .red f => some f
  | .fence f => some f
  | .cctl f => some f
  | .pref f => some f
  | .loadReturn _ _ _ _ => none
  | .storeLeaveQueue _ _ => none
  | .storeAck _ _ _ => none
  | .atomicPerform _ _ _ => none
  | .pageWalk _ _ => none
  | .mma f => some f
  | .mmas f => some f
  | .mmat f => some f
  | .matrixGrant _ => none
  | .matrixComplete _ => none
  | .oprdy f => some f
  | .actld f => some f
  | .xvset f => some f
  | .xvsetRd f => some f
  | .mxstat f => some f
  | .cpy f => some f
  | .cpyg f => some f
  | .cpys f => some f
  | .copyChunk _ => none
  | .copyComplete _ => none
  | .budgetRefill _ => none
  | .htest f => some f
  | .hmov f => some f
  | .hcancel f => some f
  | .hwait f => some f
  | .tfetch f => some f
  | .tret f => some f
  | .lpost f => some f
  | .linkTransmit _ => none
  | .linkRequestArrive _ => none
  | .linkResponse _ _ _ _ => none
  | .flitTimeout _ => none
  | .laneRetrainFail _ => none
  | .qpError _ _ => none
  | .trap f => some f
  | .trapTake _ _ => none
  | .frameDeliver _ _ => none
  | .eret f => some f
  | .winrd f => some f
  | .winwr f => some f
  | .rqrd f => some f
  | .rqwr f => some f
  | .csrrd f => some f
  | .csrwr f => some f
  | .tNoticeWrite _ _ => none
  | .tXlatWrite _ _ => none
  | .ifence f => some f
  | .xbld f => some f
  | .xbinv f => some f
  | .xbrd f => some f
  | .cede f => some f
  | .cedeArrival _ => none
  | .fwcall f => some f
  | .gstop f => some f
  | .nwait f => some f
  | .slotRelease _ _ => none
  | .launchWrite _ _ => none
  | .doorbell _ _ => none
  | .queueEnable _ => none
  | .queueDisable _ => none
  | .queueStopped _ => none
  | .queueReset _ _ => none
  | .packetClaim _ => none
  | .packetSlotReread _ _ => none
  | .packetCheck _ _ => none
  | .blockPlace _ _ => none
  | .launchComplete _ => none
  | .gangMigrate _ _ _ => none
  | .firmwareEndLaunch _ => none
  | .noticePost _ _ _ _ _ _ => none
  | .noticeDeadline _ _ => none
  | .skidderSeize _ _ => none
  | .preemptRequest _ => none
  | .preemptDrainDeadline _ _ => none
  | .preemptSave _ _ => none
  | .preemptDiscard _ _ => none
  | .preemptClusterDone _ _ => none
  | .blockResume _ _ => none
  | .functionLevelReset _ => none
  | .flrDrained _ => none
  | .functionPause _ => none
  | .functionPaused _ => none
  | .functionUnpause _ => none
  | .qpSetReady _ _ => none
  | .qpTeardown _ => none
  | .msiUnmask _ => none
  | .pcieInboundWrite _ _ _ => none
  | .watchdogControl _ => none
  | .watchdogKick _ => none
  | .watchdogExpire => none
  | .powerOn => none
  | .coldStart _ => none
  | .warmStart _ _ => none
  | .dirtySwap _ => none
  | .ckRound _ => none
  | .ckFinal _ => none
  | .ckAbort _ => none
  | .ckRollback _ => none
  | .ckcmdInvalid _ _ => none
  | .checkpointOpDone _ _ => none
  | .receiverEnable _ _ => none
  | .stageRecord _ _ _ _ _ => none
  | .commitApply _ _ _ => none
  | .portsDown _ => none
  | .mgLogrd _ _ _ => none
  | .mgStage _ _ => none
  | .mgActivate => none
  | .mgAttest _ _ => none
  | .mgStart _ => none
  | .mgConfig _ _ => none
  | .mgLimit _ _ => none
  | .mcmdInvalid _ => none
  | .mgmtCommandDone => none
  | .sensorSample _ _ => none
  | .registerWrite _ _ => none
  | .resultWriteback _ _ _ => none
  | .hostHartAccess _ _ _ _ _ => none

/-- The instruction of an opcode (R74); none where R75 lists the opcode as unassigned. -/
def buildInstr (op : Nat) (f : Fields) : Option Instr :=
  match op with
  | 0x0 => some (.nop f)
  | 0x1 => some (.iadd f)
  | 0x2 => some (.isub f)
  | 0x3 => some (.iadd64 f)
  | 0x4 => some (.isub64 f)
  | 0x5 => some (.imul f)
  | 0x6 => some (.imulh f)
  | 0x7 => some (.imad f)
  | 0x8 => some (.imadw f)
  | 0x9 => some (.imin f)
  | 0xa => some (.imax f)
  | 0xb => some (.iabs f)
  | 0xc => some (.idiv f)
  | 0xd => some (.irem f)
  | 0xe => some (.icmp f)
  | 0xf => some (.sel f)
  | 0x10 => some (.and f)
  | 0x11 => some (.or f)
  | 0x12 => some (.xor f)
  | 0x13 => some (.andn f)
  | 0x14 => some (.not f)
  | 0x15 => some (.lop3 f)
  | 0x16 => some (.shl f)
  | 0x17 => some (.shr f)
  | 0x18 => some (.sar f)
  | 0x19 => some (.shf f)
  | 0x1a => some (.bfe f)
  | 0x1b => some (.bfi f)
  | 0x1c => some (.popc f)
  | 0x1d => some (.clz f)
  | 0x1e => some (.brev f)
  | 0x1f => some (.lea f)
  | 0x20 => some (.mov f)
  | 0x21 => some (.movi f)
  | 0x22 => some (.iaddi f)
  | 0x23 => some (.icmpi f)
  | 0x24 => some (.andi f)
  | 0x25 => some (.ori f)
  | 0x26 => some (.xori f)
  | 0x40 => some (.perm f)
  | 0x41 => some (.shuf f)
  | 0x42 => some (.sread f)
  | 0x43 => some (.vote f)
  | 0x44 => some (.elect f)
  | 0x45 => some (.reduce f)
  | 0x46 => some (.scan f)
  | 0x47 => some (.matchMask f)
  | 0x80 => some (.fadd f)
  | 0x81 => some (.fsub f)
  | 0x82 => some (.fmul f)
  | 0x83 => some (.ffma f)
  | 0x84 => some (.fmin f)
  | 0x85 => some (.fmax f)
  | 0x86 => some (.fcmp f)
  | 0x87 => some (.frnd f)
  | 0x88 => some (.frcp f)
  | 0x89 => some (.frsq f)
  | 0x8a => some (.fsqrt f)
  | 0x8b => some (.fdiv f)
  | 0x8c => some (.fexp2 f)
  | 0x8d => some (.flog2 f)
  | 0x8e => some (.fsin f)
  | 0x8f => some (.fcos f)
  | 0x90 => some (.fclass f)
  | 0xa0 => some (.padd2 f)
  | 0xa1 => some (.pmul2 f)
  | 0xa2 => some (.pfma2 f)
  | 0xa3 => some (.pmin2 f)
  | 0xa4 => some (.pmax2 f)
  | 0xa5 => some (.pdot2 f)
  | 0x100 => some (.cvt f)
  | 0x101 => some (.cvtpk f)
  | 0x102 => some (.cvtn f)
  | 0x103 => some (.cvtw f)
  | 0x104 => some (.terpk f)
  | 0x105 => some (.terunpk f)
  | 0x106 => some (.scacc f)
  | 0x180 => some (.bra f)
  | 0x182 => some (.brx f)
  | 0x183 => some (.call f)
  | 0x184 => some (.callx f)
  | 0x185 => some (.ret f)
  | 0x186 => some (.exit f)
  | 0x187 => some (.yield f)
  | 0x188 => some (.bkpt f)
  | 0x1c0 => some (.sync f)
  | 0x1c1 => some (.setjoin f)
  | 0x1c2 => some (.setleave f)
  | 0x1c3 => some (.regroup f)
  | 0x1c4 => some (.rghome f)
  | 0x1c5 => some (.grow f)
  | 0x1c6 => some (.shrink f)
  | 0x200 => some (.ld f)
  | 0x201 => some (.st f)
  | 0x202 => some (.lds f)
  | 0x203 => some (.sts f)
  | 0x204 => some (.atom f)
  | 0x205 => some (.atoms f)
  | 0x206 => some (.red f)
  | 0x207 => some (.fence f)
  | 0x208 => some (.cctl f)
  | 0x209 => some (.pref f)
  | 0x2c0 => some (.mma f)
  | 0x2c1 => some (.mmas f)
  | 0x2c2 => some (.mmat f)
  | 0x2c3 => some (.oprdy f)
  | 0x2c4 => some (.actld f)
  | 0x2c5 => some (if f.mod = 1 then .xvsetRd f else .xvset f)
  | 0x2c6 => some (.mxstat f)
  | 0x280 => some (.cpy f)
  | 0x281 => some (.cpyg f)
  | 0x282 => some (.cpys f)
  | 0x283 => some (.htest f)
  | 0x284 => some (.hmov f)
  | 0x285 => some (.hcancel f)
  | 0x286 => some (.hwait f)
  | 0x300 => some (.tfetch f)
  | 0x301 => some (.tret f)
  | 0x302 => some (.lpost f)
  | 0x340 => some (.trap f)
  | 0x341 => some (.eret f)
  | 0x342 => some (.winrd f)
  | 0x343 => some (.winwr f)
  | 0x344 => some (.rqrd f)
  | 0x345 => some (.rqwr f)
  | 0x346 => some (.csrrd f)
  | 0x347 => some (.csrwr f)
  | 0x348 => some (.ifence f)
  | 0x349 => some (.xbld f)
  | 0x34a => some (.xbinv f)
  | 0x34b => some (.xbrd f)
  | 0x34c => some (.cede f)
  | 0x34d => some (.fwcall f)
  | 0x34e => some (.gstop f)
  | 0x34f => some (.nwait f)
  | _ => none

/-- One row of R74: minimum length, accepted scopes (bit 0 lane, 1 group, 2 set, 3 block), level, PERM accepted. -/
structure OpRow where
  min    : Len
  scopes : Nat
  level  : Nat     -- 1 kernel, 2 tenant runtime
  handlerOnly : Bool
  perm   : Bool
deriving DecidableEq, Repr

def kRow (min : Len) (scopes : Nat) (perm : Bool) : Option OpRow := some ⟨min, scopes, 1, false, perm⟩
def tRow (min : Len) (scopes : Nat) : Option OpRow := some ⟨min, scopes, 2, false, false⟩
def hRow (min : Len) : Option OpRow := some ⟨min, 1, 2, true, false⟩

/-- Opcodes 0x000 to 0x0FF of R74. -/
def opRowLow (op : Nat) : Option OpRow :=
  if op = 0x000 then kRow .w64 15 false
  else if op ≤ 0x006 then kRow .w64 15 true
  else if op ≤ 0x008 then kRow .w96 15 true
  else if op ≤ 0x00E then kRow .w64 15 true
  else if op = 0x00F then kRow .w96 15 true
  else if op ≤ 0x014 then kRow .w64 15 true
  else if op = 0x015 then kRow .w128 15 true
  else if op ≤ 0x018 then kRow .w64 15 true
  else if op ≤ 0x01B then kRow .w96 15 true
  else if op ≤ 0x01E then kRow .w64 15 true
  else if op = 0x01F then kRow .w96 15 true
  else if op = 0x020 then kRow .w64 15 true
  else if op ≤ 0x026 then kRow .w128 15 true
  else if op < 0x040 then none
  else if op = 0x040 then kRow .w96 7 true
  else if op = 0x041 then kRow .w64 7 true
  else if op = 0x042 then kRow .w64 3 false
  else if op ≤ 0x044 then kRow .w64 14 false
  else if op = 0x045 then kRow .w96 14 false
  else if op = 0x046 then kRow .w96 6 false
  else if op = 0x047 then kRow .w64 6 false
  else if op < 0x080 then none
  else if op = 0x083 then kRow .w96 15 true
  else if op ≤ 0x090 then kRow .w64 15 true
  else if op < 0x0A0 then none
  else if op = 0x0A2 then kRow .w96 15 true
  else if op = 0x0A5 then kRow .w96 15 true
  else if op ≤ 0x0A4 then kRow .w64 15 true
  else none

/-- Opcodes 0x100 to 0x3FF of R74. -/
def opRowHigh (op : Nat) : Option OpRow :=
  if op = 0x100 then kRow .w128 15 true
  else if op ≤ 0x106 then kRow .w96 15 true
  else if op < 0x180 then none
  else if op = 0x181 then none
  else if op ≤ 0x184 then kRow .w128 3 false
  else if op ≤ 0x186 then kRow .w64 1 false
  else if op ≤ 0x188 then kRow .w64 3 false
  else if op < 0x1C0 then none
  else if op = 0x1C0 then kRow .w64 14 false
  else if op = 0x1C1 then kRow .w128 2 false
  else if op = 0x1C2 then kRow .w64 2 false
  else if op = 0x1C3 then kRow .w128 8 false
  else if op = 0x1C4 then kRow .w64 8 false
  else if op ≤ 0x1C6 then kRow .w128 2 false
  else if op < 0x200 then none
  else if op ≤ 0x203 then kRow .w128 7 false
  else if op ≤ 0x206 then kRow .w128 3 false
  else if op = 0x207 then kRow .w96 15 false
  else if op ≤ 0x209 then kRow .w128 3 false
  else if op < 0x280 then none
  else if op ≤ 0x282 then kRow .w128 2 false
  else if op = 0x283 then kRow .w64 3 false
  else if op ≤ 0x285 then kRow .w64 2 false
  else if op = 0x286 then kRow .w64 3 false
  else if op < 0x2C0 then none
  else if op ≤ 0x2C2 then kRow .w96 6 false
  else if op = 0x2C3 then kRow .w64 6 false
  else if op = 0x2C4 then kRow .w128 2 false
  else if op = 0x2C5 then kRow .w96 2 false
  else if op = 0x2C6 then kRow .w64 3 false
  else if op < 0x300 then none
  else if op ≤ 0x301 then kRow .w64 3 false
  else if op = 0x302 then kRow .w128 2 false
  else if op < 0x340 then none
  else if op = 0x340 then kRow .w128 3 false
  else if op = 0x341 then hRow .w64
  else if op ≤ 0x345 then hRow .w128
  else if op ≤ 0x347 then kRow .w128 3 false
  else if op = 0x348 then kRow .w64 3 false
  else if op ≤ 0x34C then tRow .w96 2
  else if op = 0x34D then kRow .w128 2 false
  else if op ≤ 0x34F then tRow .w64 2
  else none

/-- The row of R74 for an opcode; none where R75 lists it. -/
def opRow (op : Nat) : Option OpRow := if op < 0x100 then opRowLow op else opRowHigh op

def lenRank : Len → Nat
  | .w64 => 0 | .w96 => 1 | .w128 => 2

/-- Length in bytes (R55). -/
def lenBytes : Len → Nat
  | .w64 => 8 | .w96 => 12 | .w128 => 16

def scopeCode : Scope → Nat
  | .lane => 0 | .group => 1 | .set => 2 | .block => 3

def scopeOk (r : OpRow) (s : Scope) : Bool := r.scopes.testBit (scopeCode s)

/-- One run of registers that an instruction names (R14): `align` is what the base must be a multiple of, and
`nullOk` whether 1023 may stand as the base. -/
structure RegRef where
  base   : Nat
  n      : Nat
  align  : Nat
  nullOk : Bool
  write  : Bool
deriving DecidableEq, Repr

def vnull : Nat := 1023

def rd (x : BitVec 10) : RegRef := ⟨x.toNat, 1, 1, true, false⟩
def wr (x : BitVec 10) : RegRef := ⟨x.toNat, 1, 1, true, true⟩
def rdPair (x : BitVec 10) : RegRef := ⟨x.toNat, 2, 2, true, false⟩
def wrPair (x : BitVec 10) : RegRef := ⟨x.toNat, 2, 2, true, true⟩
/-- A run of any base. R13 and R14 give 1023 its meaning for single registers and pairs and do not say what it is as the
base of a longer run (C of CPY, CPYG, CPYS and LPOST, A of TERPK, D of TERUNPK): the model takes it too, as zeros that are
read or writes that are discarded (log 80, DESIGN CHOICE). -/
def rdRun (x : BitVec 10) (n : Nat) : RegRef := ⟨x.toNat, n, 1, true, false⟩
/-- As `rdRun`, for a run that is written (log 80, DESIGN CHOICE for the base 1023). -/
def wrRun (x : BitVec 10) (n : Nat) : RegRef := ⟨x.toNat, n, 1, true, true⟩
def rdRun8 (x : BitVec 10) (n : Nat) : RegRef := ⟨x.toNat, n, 8, false, false⟩
def wrRun8 (x : BitVec 10) (n : Nat) : RegRef := ⟨x.toNat, n, 8, false, true⟩

/-- Registers of an access of the size of R155: one, a pair, or four from a multiple of 4. -/
def sized (x : BitVec 10) (sub : Nat) (write : Bool) : RegRef :=
  if sub = 5 then ⟨x.toNat, 2, 2, true, write⟩
  else if sub = 6 then ⟨x.toNat, 4, 4, true, write⟩
  else ⟨x.toNat, 1, 1, true, write⟩

def oneOrPair (x : BitVec 10) (pair : Bool) (write : Bool) : RegRef :=
  if pair then ⟨x.toNat, 2, 2, true, write⟩ else ⟨x.toNat, 1, 1, true, write⟩

/-- MMA, MMAS, MMAT: the number N of accumulator columns (R173). -/
def mxCols (op : Nat) : Nat := if op = 0x2C0 then 8 else 64
/-- The A run of R173. -/
def mxARun (op : Nat) : Nat := if op = 0x2C2 then 40 else 8
/-- HI or HO set in the command word (R177): the accumulator run is 2N long. -/
def mxHolds (imm : BitVec 32) : Bool := imm.getLsbD 2 || imm.getLsbD 3
def mxAccLen (op : Nat) (imm : BitVec 32) : Nat := if mxHolds imm then 2 * mxCols op else mxCols op

/-- Whether a control register's name code is of a 64-bit register (R209, R303, R328). -/
def csrWide (code : Nat) : Bool := code == 0x1003 || code == 0x2001 || code == 0x2002 || code == 0x2003

/-- Registers read or written by opcodes 0x000 to 0x026 (R90), sources A, B, C first, then D. -/
def refsInt (op : Nat) (f : Fields) : List RegRef :=
  let m := f.mod.toNat
  if op = 0x000 then []
  else if op ≤ 0x002 then [rd f.a, rd f.b, oneOrPair f.d (m == 3) true]
  else if op ≤ 0x004 then [rdPair f.a, rdPair f.b, wrPair f.d]
  else if op ≤ 0x006 then [rd f.a, rd f.b, wr f.d]
  else if op = 0x007 then [rd f.a, rd f.b, rd f.c, wr f.d]
  else if op = 0x008 then [rd f.a, rd f.b, rdPair f.c, wrPair f.d]
  else if op = 0x00B then [rd f.a, wr f.d]
  else if op ≤ 0x00E then [rd f.a, rd f.b, wr f.d]
  else if op = 0x00F then [rd f.a, rd f.b, rd f.c, wr f.d]
  else if op ≤ 0x013 then [rd f.a, rd f.b, wr f.d]
  else if op = 0x014 then [rd f.a, wr f.d]
  else if op = 0x015 then [rd f.a, rd f.b, rd f.c, wr f.d]
  else if op ≤ 0x018 then [rd f.a, rd f.b, wr f.d]
  else if op ≤ 0x01B then [rd f.a, rd f.b, rd f.c, wr f.d]
  else if op ≤ 0x01E then [rd f.a, wr f.d]
  else if op = 0x01F then [rdPair f.a, rd f.b, wrPair f.d]
  else if op = 0x020 then [oneOrPair f.a (m == 1) false, oneOrPair f.d (m == 1) true]
  else if op = 0x021 then [oneOrPair f.d (m == 1) true]
  else [rd f.a, wr f.d]

/-- Opcodes 0x040 to 0x047 (R106 to R112). -/
def refsLane (op : Nat) (f : Fields) : List RegRef :=
  let m := f.mod.toNat
  if op = 0x040 then (if m = 1 then [rd f.a, rd f.b, wr f.d] else [rd f.a, wr f.d])
  else if op = 0x041 then [rd f.a, rd f.b, wr f.d]
  else if op = 0x042 then [oneOrPair f.d (f.a == 0x10) true]
  else if op = 0x043 then [rd f.a, oneOrPair f.d (m == 3) true]
  else if op = 0x044 then [wr f.d]
  else if op ≤ 0x046 then [rd f.a, wr f.d]
  else [oneOrPair f.a (m == 1) false, wrPair f.d]

/-- Opcodes 0x080 to 0x106 (R115). -/
def refsFloat (op : Nat) (f : Fields) : List RegRef :=
  if op = 0x083 ∨ op = 0x0A2 ∨ op = 0x0A5 ∨ op = 0x106 then [rd f.a, rd f.b, rd f.c, wr f.d]
  else if op ≤ 0x086 then [rd f.a, rd f.b, wr f.d]
  else if op = 0x08B then [rd f.a, rd f.b, wr f.d]
  else if op ≤ 0x090 then [rd f.a, wr f.d]
  else if op ≤ 0x0A4 then [rd f.a, rd f.b, wr f.d]
  else if op = 0x100 then [rd f.a, wr f.d]
  else if op = 0x101 then [rd f.a, rd f.b, wr f.d]
  else if op = 0x102 then
    (if f.sub = 3 ∨ f.sub = 4 ∨ f.sub = 10 ∨ f.sub = 11 then [rdPair f.a, rdPair f.b, wr f.d]
     else [rdPair f.a, rdPair f.b, rd f.c, wr f.d])
  else if op = 0x103 then [rd f.a, wrPair f.d]
  else if op = 0x104 then [rdRun f.a 5, rd f.c, wr f.d]
  else [rd f.a, wrRun f.d 5]

/-- Opcodes 0x180 to 0x1C6 (R133). -/
def refsControl (op : Nat) (f : Fields) : List RegRef :=
  if op = 0x182 then [rdPair f.a]
  else if op = 0x183 then [wrPair f.d]
  else if op = 0x184 then [rdPair f.a, wrPair f.d]
  else if op = 0x185 then [rdPair f.a]
  else if op = 0x1C3 then [rd f.a, wr f.d]
  else if op = 0x1C4 ∨ op = 0x1C5 ∨ op = 0x1C6 then [wr f.d]
  else []

/-- Opcodes 0x200 to 0x209 (R154, R155, R164). -/
def refsMemory (op : Nat) (f : Fields) : List RegRef :=
  let w := f.mod.getLsbD 0
  let s := f.sub.toNat
  if op = 0x200 then [rdPair f.a, sized f.d s true]
  else if op = 0x201 then [rdPair f.a, sized f.b s false]
  else if op = 0x202 then [rd f.a, sized f.d s true]
  else if op = 0x203 then [rd f.a, sized f.b s false]
  else if op = 0x204 then
    [rdPair f.a, oneOrPair f.b w false] ++ (if s = 9 then [oneOrPair f.c w false] else []) ++ [oneOrPair f.d w true]
  else if op = 0x205 then
    [rd f.a, oneOrPair f.b w false] ++ (if s = 9 then [oneOrPair f.c w false] else []) ++ [oneOrPair f.d w true]
  else if op = 0x206 then [rdPair f.a, oneOrPair f.b w false]
  else if op = 0x208 then (if s = 1 then [] else [rdPair f.a])
  else if op = 0x209 then [rdPair f.a]
  else []

/-- Opcodes 0x280 to 0x34F (R171, R173, R191). -/
def refsSystem (op : Nat) (f : Fields) : List RegRef :=
  if op = 0x280 then
    (if f.sub = 0 then [rdPair f.a, rd f.b, rdRun f.c 4, wr f.d] else [rd f.a, rdPair f.b, rdRun f.c 4, wr f.d])
  else if op = 0x281 then [rdPair f.a, rdPair f.b, rdRun f.c 4, wr f.d]
  else if op = 0x282 then [rd f.a, rd f.b, rdRun f.c 4, wr f.d]
  else if op = 0x283 ∨ op = 0x284 then [rd f.a, wr f.d]
  else if op = 0x285 ∨ op = 0x286 then [rd f.a]
  else if op = 0x2C0 then [rdRun8 f.a 8, rdRun8 f.b 8, wrRun8 f.c (mxAccLen op f.imm), ⟨f.d.toNat, 1, 1, false, true⟩]
  else if op = 0x2C1 ∨ op = 0x2C2 then
    [rdRun8 f.a (mxARun op), ⟨f.b.toNat, 1, 1, false, false⟩, wrRun8 f.c (mxAccLen op f.imm),
     ⟨f.d.toNat, 1, 1, false, true⟩]
  else if op = 0x2C4 then [rd f.a]
  else if op = 0x2C5 then (if f.mod = 1 then [wr f.d] else [rd f.a])
  else if op = 0x2C6 then [wr f.d]
  else if op = 0x300 then [wrPair f.d]
  else if op = 0x301 then [rdPair f.a]
  else if op = 0x302 then [rdPair f.a, rdPair f.b, rdRun f.c 4, wr f.d]
  else if op = 0x342 ∨ op = 0x344 then [wr f.d]
  else if op = 0x343 ∨ op = 0x345 then [rd f.a]
  else if op = 0x346 then [oneOrPair f.d (csrWide f.imm.toNat) true]
  else if op = 0x347 then [oneOrPair f.a (csrWide f.imm.toNat) false]
  else if op = 0x349 then [rdPair f.a, rdPair f.b, rd f.c]
  else if op = 0x34A then (if f.sub.getLsbD 0 then [] else [rdPair f.a])
  else if op = 0x34B then (if f.sub = 2 then [rdPair f.a, wr f.d] else [rd f.a, wrPair f.d])
  else if op = 0x34C then [rdPair f.a, wr f.d]
  else if op = 0x34D then (if f.imm = 1 ∨ f.imm = 0 ∨ f.imm = 2 then [rd f.a, wr f.d] else [])
  else if op = 0x34E then [rd f.a]
  else if op = 0x34F then [wr f.d]
  else []

/-- The registers an instruction names (R16): the predicate register, then the sources A, B, C, then D. -/
def regRefs (op : Nat) (f : Fields) : List RegRef :=
  (if f.p.toNat = vnull then [] else [rd f.p]) ++
  (if op < 0x040 then refsInt op f
   else if op < 0x080 then refsLane op f
   else if op < 0x180 then refsFloat op f
   else if op < 0x200 then refsControl op f
   else if op < 0x280 then refsMemory op f
   else refsSystem op f)

/-- The run that an instruction reads through a field, `g` being its fields with another number in that one; none where it does
not read a register there: RA or RB is ignored then (R23, R56). -/
def latchRun (op : Nat) (f g : Fields) : Option (Nat × Nat) :=
  (((regRefs op f).zip (regRefs op g)).find? (fun q => q.1 != q.2 && !q.1.write)).map (fun q => (q.1.base, q.1.n))

/-- One named run passes step 9 of R76: aligned, and no reserved number (R13, R14). -/
def RegRef.ok (r : RegRef) : Bool :=
  if r.base = vnull then r.nullOk
  else decide (r.base % r.align = 0) && decide (r.base + r.n ≤ 640)

/-- Two runs of register numbers share a number. -/
def runsMeet (a n b m : Nat) : Bool := decide (a < b + m) && decide (b < a + n)

/-- The further cases of R173 and R191 that raise IE, cause 8. -/
def runsApart (op : Nat) (f : Fields) : Bool :=
  let d := f.d.toNat; let a := f.a.toNat; let b := f.b.toNat; let c := f.c.toNat
  if op = 0x280 ∨ op = 0x281 ∨ op = 0x282 ∨ op = 0x302 then c == vnull || !runsMeet d 1 c 4
  else if op = 0x2C0 then
    let n := mxAccLen op f.imm
    !runsMeet d 1 a 8 && !runsMeet d 1 b 8 && !runsMeet d 1 c n &&
    !runsMeet a 8 b 8 && !runsMeet a 8 c n && !runsMeet b 8 c n
  else if op = 0x2C1 ∨ op = 0x2C2 then
    let n := mxAccLen op f.imm; let k := mxARun op
    !runsMeet d 1 a k && !runsMeet d 1 c n && !runsMeet a k c n && !runsMeet b 1 a k && !runsMeet b 1 c n
  else true

/-- Step 9 of R76. -/
def regsOk (op : Nat) (f : Fields) : Bool := (regRefs op f).all RegRef.ok && runsApart op f

/-- Whether the instruction reads A, or B, as data that PERM may permute (R63, R64, R74). -/
def permReadsA (op : Nat) : Bool := op != 0x021
def permReadsB (op : Nat) : Bool :=
  !(op == 0x00B || op == 0x014 || (0x01C ≤ op && op ≤ 0x01E) || (0x020 ≤ op && op ≤ 0x026) ||
    op == 0x040 || op == 0x087 || op == 0x088 || op == 0x089 || op == 0x08A || (0x08C ≤ op && op ≤ 0x090) ||
    op == 0x100 || op == 0x103 || op == 0x104 || op == 0x105)

/-- PERM subfields (R63). -/
def permClass (p : BitVec 12) : Nat := (p.extractLsb' 0 2).toNat
def permSeg (p : BitVec 12) : Nat := (p.extractLsb' 2 3).toNat
def permDist (p : BitVec 12) : Nat := (p.extractLsb' 5 6).toNat
def permTargetB (p : BitVec 12) : Bool := p.getLsbD 11

/-- The PERM field holds a value the instruction defines (R63, R64, R106). -/
def permOk (r : OpRow) (op : Nat) (f : Fields) : Bool :=
  if op = 0x040 then
    permClass f.perm != 0 && !permTargetB f.perm && permSeg f.perm != 0 && permSeg f.perm != 7 &&
    (f.mod != 1 || permDist f.perm == 0)
  else if !r.perm then f.perm == 0
  else if permClass f.perm = 0 then f.perm == 0
  else permSeg f.perm != 0 && permSeg f.perm != 7 && (if permTargetB f.perm then permReadsB op else permReadsA op)

/-- A conversion's target and source codes allow the rounding mode (R125). -/
def cvtModeOk (dst src mode : Nat) : Bool :=
  if 1 ≤ dst ∧ dst ≤ 5 then decide (mode ≤ 1)
  else if 6 ≤ dst then (if 6 ≤ src then mode == 0 else true)
  else true

/-- Element width of a format code (R124). -/
def fmtWidth (code : Nat) : Nat :=
  if code = 0 ∨ code = 6 ∨ code = 7 then 32
  else if code = 1 ∨ code = 2 ∨ code = 8 ∨ code = 9 then 16
  else if code = 5 ∨ code = 12 ∨ code = 13 then 4
  else 8

/-- MOD holds a value the instruction defines (R90, R115, R133, R154, R171, R191). -/
def modOk (op : Nat) (f : Fields) : Bool :=
  let m := f.mod.toNat
  if op < 0x040 then
    if op = 0x001 ∨ op = 0x002 ∨ op = 0x019 then decide (m ≤ 3)
    else if op = 0x003 ∨ op = 0x004 ∨ op = 0x022 then decide (m ≤ 2)
    else if op = 0x00E ∨ op = 0x023 then true
    else if op = 0x006 ∨ op = 0x008 ∨ (0x009 ≤ op ∧ op ≤ 0x00D) ∨ (0x016 ≤ op ∧ op ≤ 0x018) ∨ op = 0x01A ∨
      (0x01F ≤ op ∧ op ≤ 0x021) then decide (m ≤ 1)
    else m == 0
  else if op < 0x080 then
    if op = 0x040 ∨ op = 0x047 then decide (m ≤ 1)
    else if op = 0x041 then decide (m ≤ 3)
    else if op = 0x043 then decide (m ≤ 4)
    else if op = 0x045 then (if f.sub = 8 then decide (m ≤ 3) else m == 0)
    else if op = 0x046 then m == 0 || m == 4
    else m == 0
  else if op < 0x180 then
    if op = 0x084 ∨ op = 0x085 then decide (m ≤ 1)
    else if op = 0x088 ∨ op = 0x089 ∨ (0x08C ≤ op ∧ op ≤ 0x08F) then m == 0 || m == 4
    else if op = 0x090 ∨ op = 0x104 ∨ op = 0x105 then m == 0
    else if op = 0x0A3 ∨ op = 0x0A4 then !f.mod.getLsbD 1
    else if op = 0x100 then cvtModeOk (f.imm.extractLsb' 0 4).toNat (f.imm.extractLsb' 4 4).toNat (m % 4)
    else if op = 0x101 ∨ op = 0x102 then cvtModeOk f.sub.toNat 0 (m % 4)
    else if op = 0x103 then decide (m ≤ 3) && decide (2 * m + 1 < 32 / fmtWidth f.sub.toNat)
    else if op = 0x106 then decide (m ≤ 3)
    else true
  else if op < 0x200 then
    if op = 0x180 then m == 0 || ((m == 1 || m == 2) && f.scope == .group)
    else if op = 0x1C0 then m == 0 || (m == 1 && f.scope == .block)
    else if op = 0x1C5 then decide (m ≤ 1)
    else m == 0
  else if op < 0x280 then
    if op = 0x200 ∨ op = 0x201 then m != 7
    else if op = 0x204 ∨ op = 0x206 then !(f.mod.getLsbD 0 && decide (10 ≤ f.sub.toNat))
    else if op = 0x205 then decide (m ≤ 1) && !(f.mod.getLsbD 0 && decide (10 ≤ f.sub.toNat))
    else if op = 0x207 then decide (1 ≤ m) && decide (m ≤ 3)
    else if op = 0x209 then decide (m ≤ 3)
    else m == 0
  else if op = 0x2C5 ∨ op = 0x2C6 then decide (m ≤ 1)
  else m == 0

/-- SUB holds a value the instruction defines (R57). -/
def subOk (op : Nat) (f : Fields) : Bool :=
  let s := f.sub.toNat
  if op = 0x01F then decide (s ≤ 7)
  else if op = 0x045 then decide (s ≤ 10)
  else if op = 0x046 then decide (s ≤ 7)
  else if op = 0x101 then s == 1 || s == 2 || s == 8 || s == 9
  else if op = 0x102 then s == 3 || s == 4 || s == 5 || (decide (10 ≤ s) && decide (s ≤ 13))
  else if op = 0x103 then (decide (1 ≤ s) && decide (s ≤ 5)) || (decide (8 ≤ s) && decide (s ≤ 13))
  else if op = 0x106 then decide (s ≤ 1)
  else if op = 0x200 ∨ op = 0x202 then decide (s ≤ 6)
  else if op = 0x201 ∨ op = 0x203 then decide (s ≤ 6) && s != 1 && s != 3
  else if op = 0x204 ∨ op = 0x205 then decide (s ≤ 12)
  else if op = 0x206 then decide (s ≤ 12) && s != 8 && s != 9
  else if op = 0x207 then decide (1 ≤ s) && decide (s ≤ 6)
  else if op = 0x208 then decide (s ≤ 4)
  else if op = 0x280 ∨ op = 0x281 then decide (s ≤ 1)
  else if op = 0x2C0 ∨ op = 0x2C1 then decide (s ≤ 10)
  else if op = 0x2C4 ∨ op = 0x2C5 then decide (s ≤ 7)
  else if op = 0x302 ∨ op = 0x34A then decide (s ≤ 3)
  else if op = 0x349 then decide (s ≤ 4)
  else if op = 0x34B then decide (s ≤ 2)
  else if op = 0x34C then decide (s ≤ 5)
  else s == 0

/-- The command word of R177. -/
def cmdOk (op : Nat) (f : Fields) : Bool :=
  let x := f.imm
  let ho := x.getLsbD 3
  let f4 := op != 0x2C2 && f.sub == 6
  (x.extractLsb' 29 3 == 0) && decide ((x.extractLsb' 26 3).toNat ≤ 4) &&
  !(x.getLsbD 20 && ho) && !(x.getLsbD 17 && ho) && !(x.getLsbD 11 && ho) &&
  (op == 0x2C0 || x.extractLsb' 14 3 == 0) &&
  (f4 || (x.extractLsb' 8 3 == 0 && x.extractLsb' 5 3 == 0))

/-- A GROW or SHRINK size: a power of two from 8 to 512 (R133). -/
def growSizeOk (n : Nat) : Bool := [8, 16, 32, 64, 128, 256, 512].contains n

/-- The items of WINRD and WINWR (R207). -/
def winOk (x : BitVec 32) : Bool :=
  let item := (x.extractLsb' 0 16).toNat
  let space := (x.extractLsb' 22 2).toNat
  (x.extractLsb' 28 4 == 0) && (x.extractLsb' 16 6 == 0) &&
  (if space = 0 then decide (item ≤ 639)
   else if space = 1 then item == 0x1001 || item == 0x1002 || (decide (0x2010 ≤ item) && decide (item ≤ 0x2019))
   else if space = 2 then decide (item ≤ 7)
   else false)

/-- A name code that CSRRD or CSRWR accepts (R24, R209, R303, R328). -/
def csrOk (code : Nat) (write : Bool) : Bool :=
  code == 0x1001 || code == 0x2001 || code == 0x2002 || code == 0x2003 || code == 0x3001 ||
  (!write && (code == 0x1002 || code == 0x1003))

/-- IMM32 and the literal fields hold values the instruction defines (R58, R133, R191). -/
def immOk (op : Nat) (f : Fields) : Bool :=
  let x := f.imm
  if op = 0x015 then decide (x.toNat < 256)
  else if 0x021 ≤ op ∧ op ≤ 0x026 then true
  else if op = 0x042 then decide (f.a.toNat ≤ 0x10) && x == 0
  else if op = 0x100 then
    let dst := (x.extractLsb' 0 4).toNat; let src := (x.extractLsb' 4 4).toNat; let el := (x.extractLsb' 8 3).toNat
    decide (x.toNat < 2048) && decide (dst ≤ 13) && decide (src ≤ 13) && dst != src && decide (el < 32 / fmtWidth src)
  else if op = 0x180 ∨ op = 0x183 then
    (x.extractLsb' 0 2 == 0) && decide (f.a.toNat < 256) && decide (f.b.toNat < 256)
  else if op = 0x182 ∨ op = 0x184 then decide (x.toNat < 65536)
  else if op = 0x185 then decide (f.b.toNat < 256) && x == 0
  else if op = 0x1C1 then
    let count := (x.extractLsb' 4 5).toNat
    decide (x.toNat < 512) && decide (1 ≤ count) && decide (count ≤ 16)
  else if op = 0x1C3 then decide (x.toNat ≤ 640)
  else if op = 0x1C4 then decide (f.a.toNat ≤ 640) && x == 0
  else if op = 0x1C5 ∨ op = 0x1C6 then growSizeOk x.toNat
  else if 0x200 ≤ op ∧ op ≤ 0x206 then true
  else if op = 0x208 then (f.sub != 1 || x == 0)
  else if op = 0x209 then true
  else if op = 0x280 ∨ op = 0x281 then decide (x.toNat < 16) && decide ((x.extractLsb' 0 3).toNat ≤ 4)
  else if op = 0x282 then decide (x.toNat < 16) && x.extractLsb' 0 3 == 0
  else if 0x2C0 ≤ op ∧ op ≤ 0x2C2 then cmdOk op f
  else if op = 0x2C4 then true
  else if op = 0x302 then decide (x.toNat < 4096)
  else if op = 0x340 then !x.getLsbD 31
  else if op = 0x342 ∨ op = 0x343 then winOk x
  else if op = 0x344 ∨ op = 0x345 then
    (x.extractLsb' 28 4 == 0) && (x.extractLsb' 13 11 == 0) && (x.extractLsb' 6 2 == 0)
  else if op = 0x346 then csrOk x.toNat false
  else if op = 0x347 then csrOk x.toNat true
  else if op = 0x34D then decide (x.toNat ≤ 2)
  else x == 0

/-- Step 8 of R76: MOD, SUB, PERM and IMM32 hold values the instruction defines, and P = 1023 has PN = 0. -/
def valuesOk (r : OpRow) (op : Nat) (f : Fields) : Bool :=
  modOk op f && subOk op f && permOk r op f && immOk op f && !(f.p.toNat == vnull && f.pn)

/-- The level of code that asks, for step 7 of R76: 1 kernel, 2 tenant runtime, 3 firmware, and whether it runs in the
handler slot. -/
structure Priv where
  level   : Nat
  handler : Bool
deriving DecidableEq, Repr

/-- The instructions of the handler slot are confined to it (R74); ERET is also how the firmware agent, at level F, resumes
a frame (R279). -/
def slotOk (pv : Priv) (r : OpRow) (op : Nat) : Bool := !r.handlerOnly || pv.handler || (pv.level == 3 && op == 0x341)

/-- Step 7 of R76: the level of the mnemonic (R74), and the level of a control register's name (R24). -/
def levelOk (pv : Priv) (r : OpRow) (op : Nat) (f : Fields) : Bool :=
  decide (r.level ≤ pv.level) && slotOk pv r op &&
  (if op = 0x346 ∨ op = 0x347 then
     let l := (f.imm.extractLsb' 12 4).toNat
     !(decide (1 ≤ l) && decide (l ≤ 3) && decide (pv.level < l))
   else true)

/-- Fields of words that the length leaves out are zero (R61). -/
def lenFits (f : Fields) : Bool :=
  match f.len with
  | .w64 => f.c == 0 && f.perm == 0 && f.hint == 0 && f.sub == 0 && f.rsvi == 0 && f.imm == 0
  | .w96 => f.imm == 0
  | .w128 => true

end Sys2Proof.Machine
end

