-- ==== Sys2Proof/WellFormed.lean ====
section
/-! DEFINITION. Which terms of Instr stand for something the hardware can be asked to do: an encoded instruction passes
steps 2 to 9 of R76 other than the level check, an event names units that exist and carries operands of their size. -/

namespace Sys2Proof
open Sys2Proof.Machine

/-- The fields pass the checks of R76 that depend on the instruction's words alone. -/
def fieldsWellFormed (op : Nat) (f : Fields) : Bool :=
  match opRow op with
  | none => false
  | some r =>
    decide (lenRank r.min ≤ lenRank f.len) && lenFits f && scopeOk r f.scope && valuesOk r op f && regsOk op f

/-- The check of every constructor. -/
def wellFormed (i : Instr) : Bool :=
  match i with
  | .nop f => fieldsWellFormed 0x0 f
  | .iadd f => fieldsWellFormed 0x1 f
  | .isub f => fieldsWellFormed 0x2 f
  | .iadd64 f => fieldsWellFormed 0x3 f
  | .isub64 f => fieldsWellFormed 0x4 f
  | .imul f => fieldsWellFormed 0x5 f
  | .imulh f => fieldsWellFormed 0x6 f
  | .imad f => fieldsWellFormed 0x7 f
  | .imadw f => fieldsWellFormed 0x8 f
  | .imin f => fieldsWellFormed 0x9 f
  | .imax f => fieldsWellFormed 0xa f
  | .iabs f => fieldsWellFormed 0xb f
  | .idiv f => fieldsWellFormed 0xc f
  | .irem f => fieldsWellFormed 0xd f
  | .icmp f => fieldsWellFormed 0xe f
  | .sel f => fieldsWellFormed 0xf f
  | .and f => fieldsWellFormed 0x10 f
  | .or f => fieldsWellFormed 0x11 f
  | .xor f => fieldsWellFormed 0x12 f
  | .andn f => fieldsWellFormed 0x13 f
  | .not f => fieldsWellFormed 0x14 f
  | .lop3 f => fieldsWellFormed 0x15 f
  | .shl f => fieldsWellFormed 0x16 f
  | .shr f => fieldsWellFormed 0x17 f
  | .sar f => fieldsWellFormed 0x18 f
  | .shf f => fieldsWellFormed 0x19 f
  | .bfe f => fieldsWellFormed 0x1a f
  | .bfi f => fieldsWellFormed 0x1b f
  | .popc f => fieldsWellFormed 0x1c f
  | .clz f => fieldsWellFormed 0x1d f
  | .brev f => fieldsWellFormed 0x1e f
  | .lea f => fieldsWellFormed 0x1f f
  | .mov f => fieldsWellFormed 0x20 f
  | .movi f => fieldsWellFormed 0x21 f
  | .iaddi f => fieldsWellFormed 0x22 f
  | .icmpi f => fieldsWellFormed 0x23 f
  | .andi f => fieldsWellFormed 0x24 f
  | .ori f => fieldsWellFormed 0x25 f
  | .xori f => fieldsWellFormed 0x26 f
  | .perm f => fieldsWellFormed 0x40 f
  | .shuf f => fieldsWellFormed 0x41 f
  | .sread f => fieldsWellFormed 0x42 f
  | .vote f => fieldsWellFormed 0x43 f
  | .elect f => fieldsWellFormed 0x44 f
  | .reduce f => fieldsWellFormed 0x45 f
  | .scan f => fieldsWellFormed 0x46 f
  | .matchMask f => fieldsWellFormed 0x47 f
  | .fadd f => fieldsWellFormed 0x80 f
  | .fsub f => fieldsWellFormed 0x81 f
  | .fmul f => fieldsWellFormed 0x82 f
  | .ffma f => fieldsWellFormed 0x83 f
  | .fmin f => fieldsWellFormed 0x84 f
  | .fmax f => fieldsWellFormed 0x85 f
  | .fcmp f => fieldsWellFormed 0x86 f
  | .frnd f => fieldsWellFormed 0x87 f
  | .frcp f => fieldsWellFormed 0x88 f
  | .frsq f => fieldsWellFormed 0x89 f
  | .fsqrt f => fieldsWellFormed 0x8a f
  | .fdiv f => fieldsWellFormed 0x8b f
  | .fexp2 f => fieldsWellFormed 0x8c f
  | .flog2 f => fieldsWellFormed 0x8d f
  | .fsin f => fieldsWellFormed 0x8e f
  | .fcos f => fieldsWellFormed 0x8f f
  | .fclass f => fieldsWellFormed 0x90 f
  | .padd2 f => fieldsWellFormed 0xa0 f
  | .pmul2 f => fieldsWellFormed 0xa1 f
  | .pfma2 f => fieldsWellFormed 0xa2 f
  | .pmin2 f => fieldsWellFormed 0xa3 f
  | .pmax2 f => fieldsWellFormed 0xa4 f
  | .pdot2 f => fieldsWellFormed 0xa5 f
  | .cvt f => fieldsWellFormed 0x100 f
  | .cvtpk f => fieldsWellFormed 0x101 f
  | .cvtn f => fieldsWellFormed 0x102 f
  | .cvtw f => fieldsWellFormed 0x103 f
  | .terpk f => fieldsWellFormed 0x104 f
  | .terunpk f => fieldsWellFormed 0x105 f
  | .scacc f => fieldsWellFormed 0x106 f
  | .bra f => fieldsWellFormed 0x180 f
  | .brx f => fieldsWellFormed 0x182 f
  | .call f => fieldsWellFormed 0x183 f
  | .callx f => fieldsWellFormed 0x184 f
  | .ret f => fieldsWellFormed 0x185 f
  | .exit f => fieldsWellFormed 0x186 f
  | .yield f => fieldsWellFormed 0x187 f
  | .bkpt f => fieldsWellFormed 0x188 f
  | .sync f => fieldsWellFormed 0x1c0 f
  | .setjoin f => fieldsWellFormed 0x1c1 f
  | .setleave f => fieldsWellFormed 0x1c2 f
  | .regroup f => fieldsWellFormed 0x1c3 f
  | .rghome f => fieldsWellFormed 0x1c4 f
  | .regroupCommit core block role => decide (core < 768 ∧ block < 4 ∧ role < 4)
  | .regroupPreemptTimeout core block role => decide (core < 768 ∧ block < 4 ∧ role < 4)
  | .grow f => fieldsWellFormed 0x1c5 f
  | .growGrant core => decide (core < 768)
  | .shrink f => fieldsWellFormed 0x1c6 f
  | .compaction core => decide (core < 768)
  | .rendezvousComplete core ctx _ => decide (core < 768 ∧ ctx < 50)
  | .ld f => fieldsWellFormed 0x200 f
  | .st f => fieldsWellFormed 0x201 f
  | .lds f => fieldsWellFormed 0x202 f
  | .sts f => fieldsWellFormed 0x203 f
  | .atom f => fieldsWellFormed 0x204 f
  | .atoms f => fieldsWellFormed 0x205 f
  | .red f => fieldsWellFormed 0x206 f
  | .fence f => fieldsWellFormed 0x207 f
  | .cctl f => fieldsWellFormed 0x208 f
  | .pref f => fieldsWellFormed 0x209 f
  | .loadReturn core ctx _ _ => decide (core < 768 ∧ ctx < 50)
  | .storeLeaveQueue core ctx => decide (core < 768 ∧ ctx < 50)
  | .storeAck core _ lane => decide (core < 768 ∧ lane < 64)
  | .atomicPerform core _ lane => decide (core < 768 ∧ lane < 64)
  | .pageWalk die _ => decide (die < 4)
  | .mma f => fieldsWellFormed 0x2c0 f
  | .mmas f => fieldsWellFormed 0x2c1 f
  | .mmat f => fieldsWellFormed 0x2c2 f
  | .matrixGrant cluster => decide (cluster < 192)
  | .matrixComplete _ => true
  | .oprdy f => fieldsWellFormed 0x2c3 f
  | .actld f => fieldsWellFormed 0x2c4 f
  | .xvset f => fieldsWellFormed 0x2c5 f && f.mod == 0
  | .xvsetRd f => fieldsWellFormed 0x2c5 f && f.mod == 1
  | .mxstat f => fieldsWellFormed 0x2c6 f
  | .cpy f => fieldsWellFormed 0x280 f
  | .cpyg f => fieldsWellFormed 0x281 f
  | .cpys f => fieldsWellFormed 0x282 f
  | .copyChunk _ => true
  | .copyComplete _ => true
  | .budgetRefill die => decide (die < 4)
  | .htest f => fieldsWellFormed 0x283 f
  | .hmov f => fieldsWellFormed 0x284 f
  | .hcancel f => fieldsWellFormed 0x285 f
  | .hwait f => fieldsWellFormed 0x286 f
  | .tfetch f => fieldsWellFormed 0x300 f
  | .tret f => fieldsWellFormed 0x301 f
  | .lpost f => fieldsWellFormed 0x302 f
  | .linkTransmit _ => true
  | .linkRequestArrive req => decide (req.op < 4 ∧ req.smod < 576 ∧ req.qp < 4096 ∧ 1 ≤ req.len ∧ req.len < 16777216 ∧
      (req.op = 0 → req.data.length = req.len) ∧ (2 ≤ req.op → req.addr.toNat % 8 = 0 ∧ req.len = 8))
  | .linkResponse _ cause _ _ => decide (cause = 0 ∨ (4 ≤ cause ∧ cause ≤ 7))
  | .flitTimeout lane => decide (lane < 96)
  | .laneRetrainFail lane => decide (lane < 96)
  | .qpError qp _ => decide (qp < 4096)
  | .trap f => fieldsWellFormed 0x340 f
  | .trapTake core _ => decide (core < 768)
  | .frameDeliver core _ => decide (core < 768)
  | .eret f => fieldsWellFormed 0x341 f
  | .winrd f => fieldsWellFormed 0x342 f
  | .winwr f => fieldsWellFormed 0x343 f
  | .rqrd f => fieldsWellFormed 0x344 f
  | .rqwr f => fieldsWellFormed 0x345 f
  | .csrrd f => fieldsWellFormed 0x346 f
  | .csrwr f => fieldsWellFormed 0x347 f
  | .tNoticeWrite core ctx => decide (core < 768 ∧ ctx < 50)
  | .tXlatWrite core ctx => decide (core < 768 ∧ ctx < 50)
  | .ifence f => fieldsWellFormed 0x348 f
  | .xbld f => fieldsWellFormed 0x349 f
  | .xbinv f => fieldsWellFormed 0x34a f
  | .xbrd f => fieldsWellFormed 0x34b f
  | .cede f => fieldsWellFormed 0x34c f
  | .cedeArrival _ => true
  | .fwcall f => fieldsWellFormed 0x34d f
  | .gstop f => fieldsWellFormed 0x34e f
  | .nwait f => fieldsWellFormed 0x34f f
  | .slotRelease core ctx => decide (core < 768 ∧ ctx < 48)
  | .launchWrite q bytes => decide (q < 64 ∧ bytes.length = 64)
  | .doorbell q _ => decide (q < 64)
  | .queueEnable q => decide (q < 64)
  | .queueDisable q => decide (q < 64)
  | .queueStopped q => decide (q < 64)
  | .queueReset q _ => decide (q < 64)
  | .packetClaim q => decide (q < 64)
  | .packetSlotReread q _ => decide (q < 64)
  | .packetCheck q _ => decide (q < 64)
  | .blockPlace _ core => decide (core < 768)
  | .launchComplete _ => true
  | .gangMigrate core block target => decide (core < 768 ∧ block < 4 ∧ target < 768)
  | .firmwareEndLaunch _ => true
  | .noticePost tenant kind count deadline cands newTag => decide (tenant < 4096 ∧ kind < 6 ∧ 1 ≤ count ∧ count ≤ 16 ∧ 1 ≤ deadline ∧ deadline < 4294967296 ∧ cands.length ≤ 12 ∧ newTag < 4096)
  | .noticeDeadline tenant kind => decide (tenant < 4096 ∧ kind < 6)
  | .skidderSeize tenant kind => decide (tenant < 4096 ∧ kind < 6)
  | .preemptRequest bytes => decide (bytes.length = 64)
  | .preemptDrainDeadline _ cluster => decide (cluster < 192)
  | .preemptSave _ core => decide (core < 768)
  | .preemptDiscard _ core => decide (core < 768)
  | .preemptClusterDone _ cluster => decide (cluster < 192)
  | .blockResume _ core => decide (core < 768)
  | .functionLevelReset f => decide (f < 64)
  | .flrDrained f => decide (f < 64)
  | .functionPause f => decide (f < 64)
  | .functionPaused f => decide (f < 64)
  | .functionUnpause f => decide (f < 64)
  | .qpSetReady qp _ => decide (qp < 4096)
  | .qpTeardown qp => decide (qp < 4096)
  | .msiUnmask i => decide (i < 16)
  | .pcieInboundWrite _ pa data => decide (pa + data.length ≤ 549755813888)
  | .watchdogControl _ => true
  | .watchdogKick _ => true
  | .watchdogExpire => true
  | .powerOn => true
  | .coldStart failStep => decide (failStep ≤ 9)
  | .warmStart failStep _ => decide (failStep ≤ 9)
  | .dirtySwap k => decide (k < 16)
  | .ckRound cmd => decide (cmd.tracker < 16 ∧ cmd.qp < 4096)
  | .ckFinal cmd => decide (cmd.tracker < 16 ∧ cmd.qp < 4096)
  | .ckAbort cmd => decide (cmd.tracker < 16 ∧ cmd.qp < 4096)
  | .ckRollback cmd => decide (cmd.tracker < 16 ∧ cmd.qp < 4096)
  | .ckcmdInvalid op _ => decide (op = 0 ∨ (5 ≤ op ∧ op ≤ 15))
  | .checkpointOpDone _ reason => decide (reason < 6)
  | .receiverEnable k qp => decide (k < 16 ∧ qp < 4096)
  | .stageRecord k kind _ _ _ => decide (k < 16 ∧ kind < 3)
  | .commitApply k tenant _ => decide (k < 16 ∧ tenant < 4096)
  | .portsDown modid => decide (modid < 576)
  | .mgLogrd _ _ _ => true
  | .mgStage _ _ => true
  | .mgActivate => true
  | .mgAttest _ nonce => decide (nonce.length = 32)
  | .mgStart _ => true
  | .mgConfig modid _ => decide (modid < 65536)
  | .mgLimit sensor _ => decide (sensor < 65536)
  | .mcmdInvalid op => decide (op = 0 ∨ (8 ≤ op ∧ op ≤ 15))
  | .mgmtCommandDone => true
  | .sensorSample thermal rails => decide (thermal.length = 64 ∧ rails.length = 24)
  | .registerWrite _ _ => true
  | .resultWriteback core ctx _ => decide (core < 768 ∧ ctx < 50)
  | .hostHartAccess hart kind pa size data => decide (hart < 16 ∧ (size = 1 ∨ size = 2 ∨ size = 4 ∨ size = 8) ∧ pa % size = 0 ∧ (kind.store = true → data.length = size))

end Sys2Proof
end

