-- ==== Sys2Proof/Decode.lean ====
section
/-! DEFINITION. Decoding the words of an instruction (R55 to R58) with the checks of R76 in their order, total on any
bytes, and the encoder. -/

namespace Sys2Proof
open Sys2Proof.Machine

/-- Why a decode is refused: steps 2 to 9 of R76, in order. -/
inductive DecodeError where
  | badLen           -- step 2: LEN = 11
  | crossesBlock     -- step 3: not within one 32-byte fetch block (R60)
  | unassigned       -- step 4: opcode not assigned (R75)
  | tooShort         -- step 5: LEN below the minimum (R74)
  | badScope         -- step 6: scope not accepted (R66)
  | badLevel         -- step 7: level or handler slot (R74, R24)
  | badValue         -- step 8: MOD, SUB, PERM, IMM32 or PN with P = 1023
  | badRegister      -- step 9: reserved number or odd base
deriving DecidableEq, Repr

/-- The cause code of IE (R76). -/
def DecodeError.cause : DecodeError → Nat
  | .badLen => 1 | .crossesBlock => 2 | .unassigned => 3 | .tooShort => 4
  | .badScope => 5 | .badLevel => 6 | .badValue => 7 | .badRegister => 8

/-- Bytes as one little-endian number (R55). -/
def bytesToNat : List Byte → Nat
  | [] => 0
  | x :: xs => x.toNat + 256 * bytesToNat xs

/-- The low `n` bytes of a number, little-endian. -/
def natToBytes : Nat → Nat → List Byte
  | 0, _ => []
  | n + 1, v => BitVec.ofNat 8 v :: natToBytes n (v / 256)

def scopeOfBits (x : BitVec 2) : Scope :=
  if x = 0 then .lane else if x = 1 then .group else if x = 2 then .set else .block

def scopeBits : Scope → BitVec 2
  | .lane => 0 | .group => 1 | .set => 2 | .block => 3

def lenOfBits (x : BitVec 2) : Option Len :=
  if x = 0 then some .w64 else if x = 1 then some .w96 else if x = 2 then some .w128 else none

def lenBits : Len → BitVec 2
  | .w64 => 0 | .w96 => 1 | .w128 => 2

def bitOf (x : BitVec 1) : Bool := x == 1

/-- The fields of the words `w`, of which those beyond the length are zero (R56 to R58). -/
def fieldsOfWord (len : Len) (w : BitVec 128) : Fields :=
  let second := len != .w64
  let third := len == .w128
  { len := len
    scope := scopeOfBits (w.extractLsb' 6 2)
    stall := w.extractLsb' 3 3
    sw := bitOf (w.extractLsb' 2 1)
    d := w.extractLsb' 18 10
    a := w.extractLsb' 28 10
    b := w.extractLsb' 38 10
    p := w.extractLsb' 48 10
    pn := bitOf (w.extractLsb' 58 1)
    ra := bitOf (w.extractLsb' 59 1)
    rb := bitOf (w.extractLsb' 60 1)
    mod := w.extractLsb' 61 3
    c := if second then w.extractLsb' 64 10 else 0
    perm := if second then w.extractLsb' 74 12 else 0
    hint := if second then w.extractLsb' 86 3 else 0
    sub := if second then w.extractLsb' 89 4 else 0
    rsvi := if second then w.extractLsb' 93 3 else 0
    imm := if third then w.extractLsb' 96 32 else 0 }

/-- The OP field as fetched. -/
def opOfWord (w : BitVec 128) : Nat := (w.extractLsb' 8 10).toNat

/-- Steps 4 to 9 of R76 on the words of an instruction of a known length. -/
def decodeWord (pv : Priv) (len : Len) (w : BitVec 128) : Except DecodeError Instr :=
  let op := opOfWord w
  let f := fieldsOfWord len w
  match opRow op, buildInstr op f with
  | some r, some i =>
    if lenRank f.len < lenRank r.min then .error .tooShort
    else if !scopeOk r f.scope then .error .badScope
    else if !levelOk pv r op f then .error .badLevel
    else if !valuesOk r op f then .error .badValue
    else if !regsOk op f then .error .badRegister
    else .ok i
  | _, _ => .error .unassigned

/-- Steps 2 to 9 of R76: the instruction whose first byte is the head of `bs`, at offset `off` of its fetch block. -/
def decode (pv : Priv) (off : Nat) (bs : List Byte) : Except DecodeError Instr :=
  match lenOfBits (BitVec.ofNat 2 (bytesToNat (bs.take 1))) with
  | none => .error .badLen
  | some len =>
    if 32 < off + lenBytes len then .error .crossesBlock
    else decodeWord pv len (BitVec.ofNat 128 (bytesToNat (bs.take (lenBytes len))))

/-- The trap information of IE (R76). -/
def ieInfo (e : DecodeError) (bs : List Byte) : Word :=
  let op := opOfWord (BitVec.ofNat 128 (bytesToNat (bs.take 8)))
  BitVec.ofNat 32 (e.cause + (if e = .badLen then 0 else 16 * op))

/-- The words of an instruction of opcode `op` with fields `f` (R56 to R58). -/
def encodeFields (op : Nat) (f : Fields) : BitVec 128 :=
  f.imm ++ f.rsvi ++ f.sub ++ f.hint ++ f.perm ++ f.c ++ f.mod ++ BitVec.ofBool f.rb ++ BitVec.ofBool f.ra ++
    BitVec.ofBool f.pn ++ f.p ++ f.b ++ f.a ++ f.d ++ BitVec.ofNat 10 op ++ scopeBits f.scope ++ f.stall ++
    BitVec.ofBool f.sw ++ lenBits f.len

/-- The bytes of an encoded instruction, as many as its length gives; an event has none. -/
def encode (i : Instr) : Option (List Byte) :=
  match opcodeOf i, fieldsOf i with
  | some op, some f => some (natToBytes (lenBytes f.len) (encodeFields op f).toNat)
  | _, _ => none

/-- The greatest rights: every level and the handler slot. -/
def topPriv : Priv := ⟨3, true⟩

/-- The instruction read from words numbered as the table numbers them; bits above `nbits` are zero. -/
def decodeTableWord (nbits w : Nat) : Option Instr :=
  match decode topPriv 0 (natToBytes 16 (w % 2 ^ nbits)) with
  | .ok i => some i
  | .error _ => none

end Sys2Proof
end

