-- ==== Sys2Proof/Machine/State.lean ====
section
/-! DEFINITION. The machine's state as plain data: every piece of state the manual gives the module, the model's own
fields (agenda, cur, free, serial; log 1, 2, 5), the reasons to stop, and the state after reset. -/

namespace Sys2Proof.Machine
open Sys2Proof

/-- Why a step stops the machine. -/
inductive Fault where
  /-- An encoded instruction was executed with no group and no running entry to issue it; raised by every meaning of an
  encoded instruction. No step of the part does this. Safe: the machine stops where the hardware has no behaviour. -/
  | noIssuer
  /-- The agenda held an event term whose operands name no unit or have the wrong size; raised by `step`. Safe. -/
  | illFormed
deriving DecidableEq, Repr

/-- Why a step has no meaning. -/
inductive Refusal where
  /-- The instruction has no meaning in the model yet; raised by `exec` alone. Safe. -/
  | notModelled (mnemonic : String)
deriving DecidableEq, Repr

/-- Where a soft error arises (R395): an uncorrectable one in a sector of L2 or DRAM, a scratchpad word (its key / 4), a
register of a lane, a word of an L1 line, a fetched block, an entry of a core's or a die's translation buffer, or a shadow
row of a REGROUP, or the journal or queue memory,
with the index of an entry that is lost (R392, R396); or a corrected one, which is counted for a structure of a die. -/
inductive Strike where
  | sector (sec : Nat)
  | spm (word : Nat)
  | reg (core ctx cell : Nat)
  | l1 (core word : Nat)
  | fetch (core block : Nat)
  | tlb (core i : Nat)
  | xlat (key : Nat)
  | shadow (core role : Nat)
  | journal (lost : Option Nat)
  | corrected (die kind : Nat)
deriving DecidableEq, Repr

/-- Where the lanes of a frontier entry stand (R220): not parked, arrived at an open rendezvous, in SETJOIN, held by an
instruction that has issued and awaits a unit, or parked at a rendezvous whose instruction issued and trapped (R237). -/
inductive Park where
  | none
  | rdv (scope : Scope) (setId : Nat) (byRole : Bool)
  | join (id count : Nat)
  | hold
  | trapped (scope : Scope)
deriving DecidableEq, Repr

/-- Whether and why an entry is waiting (R220): not at all, for its lanes' variable-latency results (SW, a merge), for
results to some registers (R71), for pending handles among some registers (R70), or for something else of variable
duration. -/
inductive Wait where
  | none
  | results
  | regs (rs : List (Nat × Nat))
  | handles (rs : List (Nat × Nat))
  | other
deriving DecidableEq, Repr

/-- A frontier entry (R219). -/
structure Entry where
  pc        : Dword
  mask      : Mask
  prio      : Nat := 255
  park      : Park := .none
  wait      : Wait := .none
  notBefore : Nat := 0        -- STALL: earliest die cycle of the next issue (R67)
  settle    : Bool := false   -- a merge waits for results as for SW = 1 (R222)
deriving DecidableEq, Repr

/-- What a floating-point result that traps when it lands brings about (R28): the address of its instruction and of
the next one, the slots it suspends, and the exceptions raised and enabled. -/
structure Held where
  pc    : Dword
  next  : Dword
  slots : List Nat
  exc   : BitVec 5
deriving DecidableEq, Repr

/-- A register result in flight (R67 to R71). Cells are keyed register x 64 + lane; `skip` are the cells that another
write in flight will win (R69). -/
structure Pend where
  id    : Nat
  lanes : Mask
  regs  : List Nat
  cells : List (Nat × Word) := []
  due   : Option Nat := none   -- die cycle from which readers see it (R68); none: variable latency
  ready : Bool := true         -- the value is known
  exc   : BitVec 5 := 0        -- exceptions folded into k.fpflags when it lands (R27)
  held  : Option Held := none  -- the trap of an enabled exception (R28)
  skip  : List Nat := []
  fp    : Bool := false        -- of a floating-point instruction (R27)
  share : Nat := 0             -- the issue it belongs to, one for all members of a wider scope, whose results are
                               -- written together (R105); 0: its own
  frees : Option Dword := none -- the address at which lanes wait for it (R217)
deriving DecidableEq, Repr

/-- A pending handle register and the operation that will complete it (R192). -/
structure Handle where
  reg : Nat
  op  : Nat
deriving DecidableEq, Repr

inductive QKind where
  | st | atom | red | fence
deriving DecidableEq, Repr

/-- A reason for which a write is ordered before what follows a read that returns it: a release `at` a place of its group's
program, at a scope, by a core (R270), or the core store order, for groups of that core alone (R267); with the newest write of
each writer that it covers. -/
structure Edge where
  scope : Nat
  core  : Nat
  at'   : Nat
  order : Bool := false
  knows : SMap Nat
deriving DecidableEq, Repr

/-- The edges of the write that a byte has, and of the earlier writes of it that a read of an atomic's value synchronises with
(R270); `rmw`: it is an atomic's. -/
structure Trail where
  own  : List Edge := []
  past : List Edge := []
  rmw  : Bool := false
deriving DecidableEq, Repr

/-- A run of scratchpad bytes whose last write is one writer's (R181, R272). -/
structure Stamp where
  key    : Nat
  len    : Nat
  writer : Nat
  id     : Nat
deriving DecidableEq, Repr

/-- An acquire fence of a group (R270): what its earlier loads find is known to the slots that the fence acts on. -/
structure Fenced where
  at'   : Nat
  scope : Nat
  slots : List Nat
deriving DecidableEq, Repr

/-- One lane's access of a store-queue item: a physical address, or for the scratchpad core x 327,680 + offset. -/
structure QLane where
  lane : Nat
  va   : Dword
  addr : Nat
  b    : Nat := 0
  c    : Nat := 0
deriving DecidableEq, Repr

/-- What an access has brought so far (R256, R258): the sectors it has read, and the lines it has allocated in L1 and in L2,
whose further sectors do not re-reference them. -/
structure Brought where
  secs : List Nat := []
  l1   : List Nat := []
  l2   : List Nat := []
deriving DecidableEq, Repr

/-- An item of a group's store queue (R161). -/
structure QItem where
  id      : Nat
  kind    : QKind
  spm     : Bool
  size    : Nat
  aop     : Nat := 0
  lanes   : List QLane
  rel     : Nat := 0             -- releasing scope code (R156), 0 none
  waits   : List Nat := []       -- loads that must return before it leaves (R163)
  after   : List Nat := []       -- writes of other members that perform before it leaves (R271, R272)
  inst    : Nat := 0             -- the issue it belongs to, one for all members and both halves of a .128 store (R157, R162)
  covers  : List Nat := []       -- sectors whose 64 bytes the issue writes (R260)
  got     : Brought := {}
  struck  : List QLane := []     -- lanes of a reduction struck by an uncorrectable error (R157)
  writer  : Nat := 0             -- its group (R272)
  edges   : List Edge := []
  src     : Option (Fields × Dword × List Nat) := none   -- a reduction's fields, address and members, for its replay
deriving DecidableEq, Repr

/-- A store, atomic or reduction that has left its queue and is not acknowledged (R161, R267); `ctx` is a number from 64 on
once the group's slot has been released. -/
structure Flight where
  id   : Nat
  ctx  : Nat
  item : QItem
deriving DecidableEq, Repr

inductive LKind where
  | ld | lds | atom | atoms
deriving DecidableEq, Repr

/-- One lane of an outstanding load, or one 8-byte half of it where the access has 16 bytes (R162): `val` is set when the
value was taken from the store queue at issue, has come back, or is an atomic's old value; `bad` when an uncorrectable error
struck it (R157). -/
structure LdLane where
  lane : Nat
  half : Bool := false           -- the upper half
  va   : Dword
  addr : Nat
  val  : Option Nat := none
  bad  : Bool := false
  edges : List Edge := []        -- of the write that it returns (R270)
  b    : Nat := 0                -- operands of an atomic
  c    : Nat := 0
deriving DecidableEq, Repr

/-- An outstanding LD, LDS, ATOM or ATOMS of a group (R160, R165, R219). -/
structure LoadRec where
  id      : Nat
  share   : Nat                  -- the issue it belongs to, one for all members of a wider scope
  kind    : LKind
  f       : Fields
  pc      : Dword
  size    : Nat
  lanes   : List LdLane
  install : List Nat := []       -- 64-byte sectors that may be installed in L1 on return
  got     : Brought := {}
  member  : List Nat := []       -- members of the issue
deriving DecidableEq, Repr

/-- A prefetched sector outstanding (R170), at the virtual address `va`: `sector` once it is translated, `install` until a
drop of L1 forbids it. -/
structure Pref where
  id      : Nat
  ctx     : Nat
  share   : Nat                  -- the issue it belongs to
  va      : Dword
  sector  : Option Nat := none
  hint    : Nat
  install : Bool
  got     : Brought := {}
deriving DecidableEq, Repr

/-- An acquire in progress: later loads wait until these have returned or left (R163, R271). -/
structure AcqRec where
  first : List Nat               -- the acquiring loads: later stores leave after them (R272)
  loads : List Nat
  items : List Nat
  wide  : Bool
  acked : Bool := false          -- FENCE.ar at a wide scope: the items must be acknowledged
deriving DecidableEq, Repr

/-- How a context is stopped: running, stopped by a raised trap or a frame, or held by a save or a reset. -/
inductive Stop where
  | run | trap (id : Nat) | held
deriving DecidableEq, Repr

/-- A group slot, or the handler or firmware context of a core. -/
structure Group where
  live     : Bool := false
  stop     : Stop := .run
  wd       : Nat := 0            -- width code: 8 x 2^wd lanes
  role     : Nat := 0
  block    : Nat := 0
  tlevel   : Bool := false
  il       : Bool := false
  prio     : Nat := 0            -- launch priority (R186)
  allot    : List Nat := []
  regs     : SMap Word := []     -- register x 64 + lane
  bad      : List Nat := []      -- cells of it that an uncorrectable error has struck (R395)
  pend     : List Pend := []
  frontier : List Entry := []
  running  : Option Dword := none
  yielded  : Option Dword := none
  gave     : Bool := false       -- its last issue was YIELD: its issue slot serves another ready group first (R140)
  home     : SMap Nat := []      -- lane ↦ home slot x 64 + home lane + 1, for threads away from home
  homes    : Mask := 0           -- lanes whose home thread has not ended
  fpflags  : Word := 0
  mx       : BitVec 3 := 0
  xv       : List Half := List.replicate 8 0x8000
  handles  : List Handle := []
  storeq   : List QItem := []
  loads    : List LoadRec := []
  acqs     : List AcqRec := []
  replays  : List Nat := []      -- loads that stand in a replay queue, to be issued again (R285)
  setId    : Option Nat := none
  latchA   : Option (Nat × Nat) := none   -- the run (base, length) that a reuse latch holds (R23)
  latchB   : Option (Nat × Nat) := none
  lastIssue  : Nat := 0
  lastNotice : Word := 0
  notice     : Dword := 0        -- t.notice (R31)
  slot     : Nat := 0            -- issue slot, and first lane of the window (R225)
  window   : Nat := 0
  dirty    : List Nat := []      -- registers written since the last OPRDY (R181)
  born     : Nat := 0            -- number that no other group has
  seen     : SMap Nat := []      -- writer ↦ newest of its writes that happens before what the group does next (R272)
  loose    : List Edge := []     -- edges of what its loads have returned without acquiring (R270)
  releases : List Edge := []     -- of its earlier release fences
  acquires : List Fenced := []   -- its acquire fences with an earlier load outstanding
  handed   : SMap Nat := []      -- the same at the last OPRDY (R181, R275)
  dones    : SMap Nat := []      -- register ↦ the copy whose completion word it holds, not read yet (R274)
  rewait   : List Nat := []      -- re-injected matrix instructions that complete before the next issue (R185)
  drained  : Bool := false       -- a pre-emption's drain: TFETCH answers exhausted (R350)
deriving DecidableEq, Repr

/-- One lane of a frame (R283). -/
structure FLane where
  state : Nat := 0
  prio  : Nat := 0
  pc    : Dword := 0
  park  : Park := .none
deriving DecidableEq, Repr

/-- A replay-queue entry (R285, R286); the per-lane words 6 to 13 are keyed lane x 8 + (word - 6). -/
structure Replay where
  kind   : Nat
  id     : Nat := 0              -- the load or matrix instruction, whose place in program order it keeps (R285)
  i      : Instr
  word1  : Dword                -- first word
  word2  : Word                 -- second word
  imm    : Word
  scope  : Scope
  fate   : Nat := 0
  x      : Mask
  fl     : Mask := 0
  words  : SMap Word := []
  xv     : List Half := []
  share  : Nat := 0
  member : List Nat := []
  pc     : Dword := 0
deriving DecidableEq, Repr

structure FMember where
  slot    : Nat
  lanes   : List FLane
  entries : List Replay
  mask    : Mask := 0           -- BKPT: the lanes that executed it (R141)
deriving DecidableEq, Repr

/-- A trap frame, one part of at most sixteen members (R282, R283). -/
structure Frame where
  id      : Nat                 -- the suspension, one for all its parts
  cls     : Nat
  info    : Word
  addr    : Dword
  pc      : Dword
  origin  : Nat
  part    : Nat
  parts   : Nat
  members : List FMember
deriving DecidableEq, Repr

/-- A trap raised and not yet taken (R281, step 1 done). -/
structure Raised where
  id     : Nat
  cls    : Nat
  info   : Word
  addr   : Dword
  pc     : Dword
  slots  : List Nat
  origin : Nat
  replay : List (Nat × Replay) := []   -- per slot, the trapping instruction's own entry
  masks  : List (Nat × Mask) := []     -- BKPT: per slot, the lanes that executed it (R141)
  firmware : Bool := false
deriving DecidableEq, Repr

/-- A REGROUP or RGHOME in progress (R145, R246). -/
structure RegroupOp where
  block : Nat
  role  : Nat
  toHome : Bool
  n     : Nat
  f     : Fields
  next  : Dword
  slots : List Nat
  start : Nat                  -- die cycle at which the gather completed
  hold  : Option Nat := none   -- die cycle at which a held pre-emption arrived (R148)
  bad   : Bool := false        -- an uncorrectable error in a shadow row (R148)
deriving DecidableEq, Repr

structure GrowReq where
  ctx  : Nat
  size : Nat
  d    : Nat
  mask : Mask
deriving DecidableEq, Repr

/-- A live allocation of register-file units: the block at a position of a group's list, as runs (first, count). -/
structure Alloc where
  ctx  : Nat
  pos  : Nat
  runs : List (Nat × Nat)
deriving DecidableEq, Repr

/-- A resident block (R307). -/
structure Block where
  launch : Nat
  karg   : Dword
  bank0  : Nat
  banks  : Nat
  nspm   : Nat
deriving DecidableEq, Repr

structure L1Line where
  line : Nat                   -- physical address / 256
  bank : Nat
  secs : SMap Nat              -- valid sector ↦ its 64 bytes as a number, plus 1
  rrpv : Nat
  bad  : List Nat := []        -- words 0 to 63 that an uncorrectable error has struck (R395)
deriving DecidableEq, Repr

structure TlbEntry where
  tenant : Nat
  page   : Nat
  frame  : Nat
  r : Bool
  w : Bool
  x : Bool
  tag : Nat                    -- the frame's tag when the entry was filled (R250)
  bad : Bool := false          -- struck by an uncorrectable error (R395)
deriving DecidableEq, Repr

/-- A CSRWR of t.notice or t.xlat that awaits its unit (R328, R335). -/
structure CsrPend where
  ctx   : Nat
  code  : Nat
  value : Dword
  pc    : Dword
  scope : Scope
deriving DecidableEq, Repr

/-- The last use of an issue slot (R226), with what a group needs in order to join it (R227): cycle + 1, whether another
group may, launch, role, PC, and of each group that shares it the first lane of its window, its width and its lanes. -/
structure SlotUse where
  cycle  : Nat := 0
  joins  : Bool := false
  launch : Option Nat := none
  role   : Nat := 0
  pc     : Dword := 0
  parts  : List (Nat × Nat × Mask) := []
deriving DecidableEq, Repr

structure Core where
  fTenant  : Word := 0
  tHandler : Dword := 0
  nspm     : Nat := 0
  l1       : List L1Line := []
  tlb      : List TlbEntry := []        -- most recently used first
  ibuf     : SMap (List Byte) := []     -- fetched blocks by physical address / 32
  ibad     : List Nat := []             -- those that an uncorrectable error has struck (R395)
  blocks   : SMap (Option Block) := []
  groups   : SMap Group := []
  alloc    : List Alloc := []
  regroups : List RegroupOp := []
  growq    : List GrowReq := []
  raised   : List Raised := []
  framesH  : List Frame := []
  framesF  : List Frame := []
  curH     : Option Frame := none
  curF     : Option Frame := none
  partsH   : List Frame := []           -- parts handled, not the last of their suspension (R282)
  partsF   : List Frame := []
  flight   : List Flight := []
  prefs    : List Pref := []
  csrPend  : List CsrPend := []
  slots    : SMap SlotUse := []         -- issue slot 0 to 3 ↦ its last use
  trails   : SMap Trail := []           -- byte that L1 holds ↦ the edges of its write (R270)
  performed : SMap Nat := []            -- writer ↦ newest of its writes that has performed at core scope (R267)
  moving   : List Nat := []             -- groups whose units a compaction moves (R244)
deriving DecidableEq, Repr

/-- An entry of a die's shared translation buffer (R212); its owner is its chunk's tag. -/
structure XEntry where
  v     : Bool := false
  page  : Nat := 0             -- virtual address / 65,536
  frame : Nat := 0
  x     : Bool := false
  w     : Bool := false
  r     : Bool := false
  tag   : Nat := 0             -- the frame's tag when the entry was filled (R250)
  bad   : Bool := false        -- struck by an uncorrectable error (R395)
deriving DecidableEq, Repr

/-- What a walk found (R329): a class of fault, or a leaf with its frame, R, W, X and D. -/
inductive WalkDone where
  | fault (cls : Nat)
  | leaf (frame : Nat) (r w x d : Bool)
deriving DecidableEq, Repr

/-- A walk in the page-request queue of a die (R345), or, done, its result for the accesses that wait for it. -/
structure Walk where
  id     : Nat
  tenant : Nat
  page   : Nat
  quota  : Bool
  core   : Nat
  need   : Nat                 -- access: 0 fetch, 1 read, 2 write, 3 read and write
  done   : Option WalkDone := none
  waiters : List (Nat × Nat) := []
deriving DecidableEq, Repr

/-- A miss that needs a walk and has no entry of the page-request queue (R345). -/
structure Miss where
  tenant : Nat
  page   : Nat
  need   : Nat
  waiter : Nat × Nat
deriving DecidableEq, Repr

/-- A line of an L2 slice (R249, R259). -/
structure L2Line where
  line  : Nat
  way   : Nat
  rrpv  : Nat
  secs  : BitVec 4
  dirty : BitVec 256
deriving DecidableEq, Repr

/-- A copy (R195 to R200). -/
structure Copy where
  id    : Nat
  kind  : Nat                  -- 0 CPY.g2s, 1 CPY.s2g, 2 CPYG, 3 CPYS
  core  : Nat
  ctx   : Nat
  tenant : Nat
  die   : Nat                  -- die of the system copy engine
  src   : Dword
  dst   : Dword
  row   : Nat                  -- row bytes b
  rows  : Nat
  sp    : Nat
  dp    : Nat
  ins   : Nat
  zf    : Bool
  waits : List Nat             -- earlier stores that must be acknowledged (R197)
  ri    : Nat := 0             -- progress: row, offset in the row, chunks written
  off   : Nat := 0
  chunks : Nat := 0
  cancel : Bool := false
  fail0  : Nat := 0            -- cause found when the die was chosen (R196)
  saved  : Option Nat := none  -- the saved block whose register image takes the completion (R351)
  done   : Option Word := none
deriving DecidableEq, Repr

/-- A system copy engine (R344): the copy whose chunk it has under way, and the tenant it served last. -/
structure CopyEngine where
  busy : Option Nat := none
  last : Nat := 4095
deriving DecidableEq, Repr

structure MxMember where
  core  : Nat
  ctx   : Nat
  exec  : Mask
  octets : List Nat            -- octets that take part
  tiles : List Nat             -- tile of each, as core x 327,680 + offset
  sas   : List Word            -- and the tile address as given
  xv    : List Half
  flags : BitVec 3 := 0        -- flags that its rows raise
  handed : SMap Nat := []      -- writer ↦ newest of its writes that its last OPRDY handed over (R181)
deriving DecidableEq, Repr

/-- A matrix instruction that has issued (R182, R185). -/
structure MxOp where
  id      : Nat
  cluster : Nat
  op      : Nat
  f       : Fields
  pc      : Dword
  members : List MxMember
  issued  : Nat                -- die cycle
  started : Bool := false
  left    : Nat := 0           -- requests not yet granted
  stale   : Bool := false      -- R181: operands not handed over, results undefined
  spoil   : Bool := false      -- R183: results undefined
  withdrawn : Bool := false    -- R185: withdrawn from the table until its members have resumed
deriving DecidableEq, Repr

/-- An octet in a reservation table (R186), with the priority it brings and the cycle in which it entered. -/
structure MxPart where
  op      : Nat
  core    : Nat
  ctx     : Nat
  octet   : Nat
  prio    : Nat
  entered : Nat
deriving DecidableEq, Repr

/-- A request of a reservation table (R186). -/
structure MxReq where
  id      : Nat
  cluster : Nat
  parts   : List MxPart
  key     : List Nat           -- tile, SUB, XB, PI, HI, HO, XV value for B; empty for MMA
deriving DecidableEq, Repr

/-- A link request (R203, R366). -/
structure LinkOp where
  id     : Nat
  qp     : Nat
  core   : Nat
  ctx    : Nat
  tenant : Nat
  op     : Nat
  loc    : Dword
  rem    : Dword
  len    : Nat
  opnd   : Dword
  new    : Dword
  waits  : List Nat
  sent   : Bool := false
  chunks : Nat := 0
  data   : List Byte := []
  done   : Option Word := none
deriving DecidableEq, Repr

structure CedeOp where
  id     : Nat
  core   : Nat
  ctx    : Nat
  tenant : Nat
  kind   : Nat
  res    : Nat
  verdict : Option (Nat × Nat) := none   -- once it has arrived: status, and the tag that the resource passes to (R336)
deriving DecidableEq, Repr

/-- A revocation notice (R334). -/
structure Notice where
  kind   : Nat
  seq    : Nat
  count  : Nat
  t0     : Nat
  d      : Nat
  cands  : List Nat
  newTag : Nat
  ceded  : List Nat := []
  closed : Bool := false       -- closed at its deadline, with a shortfall for the skidder
  taken  : Nat := 0
deriving DecidableEq, Repr

structure Tenant where
  xlat        : Dword := 0
  noticeGroup : Option (Nat × Nat) := none
  noticePa    : Option Nat := none
  lvec  : Nat := 0
  lbase : Nat := 0
  lsize : Nat := 0
  lcur  : Nat := 0
  bud   : List Nat := [0, 0, 0, 0]
  nseq    : Nat := 0           -- last sequence given
  notices : List Notice := []
  seized  : List (Nat × List Nat) := []
  lossN   : Nat := 0
deriving DecidableEq, Repr

/-- A queue slot (R297, R298). -/
structure QSlot where
  owner : Nat := 0
  logn  : Nat := 0
  logs  : Nat := 0
  rbase : Dword := 0
  ridxa : Dword := 0
  en    : Bool := false
  restart : Word := 0
  state : Nat := 0
  r : Word := 0
  w : Word := 0
  errpos : Word := 0
  inline : Option (List Byte) := none
  claimed : List (Word × Option (List Byte)) := []  -- claimed, not settled; the packet once read
  blocked : List Word := []    -- claimed positions that are never settled: the queue met an error there (R304)
  settled : List Word := []    -- settled at or above `low`
  low   : Word := 0            -- lowest position not accepted or failed (R305)
  pubbed : List Word := []     -- accepted with PUB = 1 at or above `low`
  pubs : List (Word × SMap Nat) := []  -- for each doorbell that raised W: its value, and what happens before it (R277)
  lost : Bool := false         -- configuration changed while enabled: undefined until RESET (R298)
deriving DecidableEq, Repr

structure RoleSpec where
  tl    : Bool
  sizes : List Nat
  prio  : Nat
  ngrp  : Nat
  wd    : Nat
  entry : Nat                  -- byte offset in .zcode
deriving DecidableEq, Repr

/-- An accepted launch or barrier (R302, R307, R308). -/
structure Launch where
  id     : Nat
  qslot  : Nat
  pos    : Word
  barrier : Bool := false
  tenant : Nat
  code   : Word := 0
  base   : Dword := 0
  il     : Bool := false
  disc   : Bool := false
  gang   : Bool := false
  cores  : List Nat := []      -- core set
  waitCores : List Nat := []   -- cores whose block is not yet placed
  roles  : List RoleSpec := []
  bank0  : Nat := 0
  banks  : Nat := 0
  nspm   : Nat := 0
  karg   : Dword := 0
  nx     : Nat := 0
  ny     : Nat := 0
  nz     : Nat := 0
  order  : Nat := 0
  glog2  : Nat := 0
  nextTile : Nat := 0
  returned : List (Nat × Nat × Nat) := []
  outst    : List ((Nat × Nat × Nat) × Nat × Nat) := []   -- tile, core, block
  handout : List (Nat × Nat × Nat × Nat) := []   -- core, context, die cycle, tiles of a group's last TFETCH (R348)
  pub     : SMap Nat := []     -- what happens before the write that published it (R277)
  knows   : SMap Nat := []     -- and what its ended groups know, which happens before its completed entry
  samples : List Nat := []     -- the last 64 durations of tiles (R348)
  jseq   : Word := 0
  started : Bool := false
  endedBy : Nat := 0           -- failure code 11 when ended by firmware
  inJournal : Bool := false    -- rolled back after the journal had its ending entry (R394, R406)
deriving DecidableEq, Repr

/-- A code object of the tenant's table (R316) with its kernel notes (R302, R313). -/
structure KernelNote where
  entries : List Nat
  scratch : Nat
  order   : Nat
  tile    : Nat × Nat × Nat
deriving DecidableEq, Repr

structure CodeObj where
  tenant : Nat
  id     : Word
  base   : Dword
  size   : Nat
  forceIl : Bool
  kernels : List KernelNote := []
deriving DecidableEq, Repr

/-- A saved block (R351, R354). What the context bytes do not hold stands beside their address. -/
structure Saved where
  id     : Nat
  launch : Nat
  tenant : Nat
  core   : Nat
  index  : Nat
  addr   : Nat
  block  : Block
  groups : SMap Group
  entries : SMap (List Replay) := []   -- unfinished instructions of each group (R351)
  handler : Option Frame := none
  hgroup  : Option Group := none
  frames  : List Frame := []     -- the block's frames that wait for the handler slot
  framesF : List Frame := []     -- and for the firmware slot
  parts   : List Frame := []     -- parts handled already in the handler slot
  partsF  : List Frame := []     -- and in the firmware slot
  mxOps   : List MxOp := []      -- its matrix instructions with no pass started
  spm     : List Host.Cell := [] -- bytes of its banks, by offset from BANK0
  stamps  : List Stamp := []     -- and which writes made them what they are, by offset from BANK0 (R181)
  inMemory : Bool := false       -- its context stands at `addr` (R351); else it is on its way to another core (R310)
deriving DecidableEq, Repr

structure PClus where
  cluster : Nat
  c0      : Nat
  choice  : Nat
  est     : Nat
  ovr     : Bool := false
  bytes   : Nat := 0
  act     : Nat := 0
  base    : Nat := 0            -- its part of the save area, from SAREA, and its size (R349)
  room    : Nat := 0
  cores   : List Nat
  fin     : Bool := false
  saving  : Bool := false
deriving DecidableEq, Repr

/-- A spatial pre-emption in progress (R346 to R353). -/
structure Preempt where
  id     : Nat
  tenant : Nat
  d      : Nat
  sarea  : Nat
  ssize  : Nat
  sused  : Nat := 0
  status : Nat
  clusters : List PClus
deriving DecidableEq, Repr

structure Fctl where
  flr    : Bool := false
  pause  : Bool := false
  state  : Nat := 0
  tenant : Nat := 0
deriving DecidableEq, Repr

structure Msi where
  pend : Bool := false
  mask : Bool := true
  data : Word := 0
  addr : Dword := 0
deriving DecidableEq, Repr

structure Tracker where
  swapSeq : Word := 0
  en      : Bool := false
  cur     : Bool := false
  tenant  : Nat := 0
  buf0    : Nat := 0
  buf1    : Nat := 0
  roll    : Nat := 0
deriving DecidableEq, Repr

/-- A record in a receiver's staging (R401, R405). -/
structure StageRec where
  kind    : Nat                -- 0 frame, 1 context, 2 queue record
  frame   : Nat
  swapSeq : Word
  data    : List Byte
deriving DecidableEq, Repr

structure Receiver where
  en    : Bool := false
  qp    : Nat := 0
  sbase : Nat := 0
  ssize : Nat := 0
  ibase : Nat := 0
  isize : Nat := 0
  csize : Nat := 0
  ilast : Word := 0
  sused : Nat := 0
  staged : List StageRec := []
  applying : Option (Nat × Word) := none   -- a commit that is being applied: tenant, SWAPSEQ (R405)
deriving DecidableEq, Repr

/-- A checkpoint operation in progress (R401). -/
structure CkOp where
  id      : Nat
  op      : Nat
  tracker : Nat
  qp      : Nat
  status  : Nat
  tenant  : Nat
  frames  : Nat := 0
  bytes   : Nat := 0
  reason  : Option Nat := none   -- known outcome
deriving DecidableEq, Repr

/-- What the checkpoint engine has sent for a tenant, as it stands at the buddy module (R401 to R406). -/
structure Image where
  staged   : List (Nat × List Host.Cell) := []   -- frames sent since the last commit, by offset in the frame
  valid    : Bool := false                       -- a commit has been confirmed
  frames   : List (Nat × List Host.Cell) := []
  contexts : List Saved := []
  launches : List Launch := []
  ridx     : List Word := []                     -- QRIDX of each queue slot at the commit
  queues   : List (Nat × List Byte) := []        -- the tenant's queue slots in the layout of R339
  holds    : List (Nat × Nat) := []              -- cores, banks, chunks and queue slots that the tenant held: kind, identifier
deriving DecidableEq, Repr

/-- What the IOMMU's device context of a requester maps (R375): addresses from `base` on to physical ones. -/
structure DmaWindow where
  base : Nat
  size : Nat
  pa   : Nat
  r    : Bool
  w    : Bool
deriving DecidableEq, Repr

/-- What the outside does beside the events of the manual's table (log 100): a 64-byte write-combined store (R301, R346, R401,
R411), a peer's ABORT to a receiver (R403), what a buddy module holds for a tenant (R405, R408), a window that the module's
operating system grants a requester in the IOMMU, or takes back (R375, R376), an inbound read (R375), a hart that takes an
interrupt from its file (R372), and an access of the
upstream host to a BAR of port 0, of a virtual function or of the physical one (R376). -/
inductive Outside where
  | store64 (pa : Nat) (bytes : List Byte)
  | peerAbort (k : Nat)
  | peerImage (tenant : Nat) (im : Image)
  | window (fn : Nat) (w : Option DmaWindow)
  | pcieRead (fn pa size : Nat)
  | claim (file ident : Nat)
  | bar (vf : Option Nat) (off size : Nat) (store : Option Nat)
deriving DecidableEq, Repr

/-- Who moves next (log 1): a group's context issues, the handler's or the firmware's context turns to another issue slot
(R225), an event of another unit happens, a soft error arises (log 23), the outside does something that no event of the manual
names (log 100), or cycles pass. -/
inductive Agent where
  | issue (core ctx : Nat)
  | turn (core ctx slot : Nat)
  | strike (w : Strike)
  | event (i : Instr)
  | outside (o : Outside)
  | elapseDie (die n : Nat)
  | elapseHub (n : Nat)
deriving DecidableEq, Repr, Inhabited

structure RotEntry where
  v    : Bool := false
  perm : BitVec 3 := 0
  tt   : Nat := 0
  smod : Nat := 0
  st   : Nat := 0
  base : Dword := 0
  npg  : Nat := 0
deriving DecidableEq, Repr

/-- A queue-pair context (R363) and what the fabric last said of its peer (R364). -/
structure Qp where
  v       : Bool := false
  state   : Nat := 0
  tenant  : Nat := 0
  peerMod : Nat := 0
  peerQp  : Nat := 0
  lanes   : BitVec 96 := 0
  peerLanes : BitVec 96 := 0
deriving DecidableEq, Repr

/-- A response of this module to a remote request (R366, R370). -/
structure RemoteResp where
  smod   : Nat
  qp     : Nat
  cause  : Nat
  chunks : Nat
  data   : List Byte
deriving DecidableEq, Repr

structure Hub where
  cycle    : Nat := 0
  journal  : SMap (List Byte) := []   -- index ↦ the 32 bytes of its entry
  jhead    : Word := 0
  jstart   : Word := 0
  jstarts  : Word := 0
  msi      : SMap Msi := []
  msiSent  : List (Dword × Word) := []
  wdctl    : Word := 0x3E8
  wdleft   : Word := 0
  wdphase  : Nat := 0                 -- hub cycles since the last count of WDLEFT
  failedWarm : Nat := 0
  starting : Option Bool := none      -- a start is requested or running; true: cold
  held     : Bool := false
  trackers : SMap Tracker := []
  ckops    : List CkOp := []
  receivers : SMap Receiver := []
  rot      : SMap RotEntry := []
  qps      : SMap Qp := []
  links    : List LinkOp := []
  resps    : List RemoteResp := []
  laneDown : List Nat := []
  retries  : SMap Nat := []
  removed  : Nat := 0
  throttle : List Bool := [false, false, false, false, false]   -- sensor condition of dies 0 to 3 and of the hub die
  images   : SMap Image := []         -- tenant ↦ what checkpoint traffic has staged and committed at its buddy
  fctl     : SMap Fctl := []
  told     : SMap (SMap Nat) := []    -- journal index ↦ what happens before its entry (R277)
  hart     : SMap Nat := []           -- value the hart's last load returned
  down     : List Nat := []
  imsic    : SMap Bool := []          -- file x 256 + identity ↦ pending, file f of hart h being 9 h + f (R372)
  windows  : SMap (List DmaWindow) := []   -- requester ↦ what its device context maps (R375)
  inbound  : SMap Nat := []           -- requester ↦ value its last read returned; 65,536 up: by function of a BAR
  answers  : List (Nat × Nat) := []   -- confirmations and refusals sent to the sources of checkpoints: queue pair, reason (R405)
  struck   : List Nat := []           -- tenants that an XM has struck, until they are reset or rolled back (R397)
deriving DecidableEq, Repr

/-- A management command that is running (R412, R413). -/
structure MgCmd where
  op   : Nat
  code : Nat
deriving DecidableEq, Repr

structure Mgmt where
  cmd   : Option MgCmd := none        -- BUSY while some
  err   : Bool := false
  drop  : Nat := 0
  last  : Nat := 0
  code  : Nat := 0
  fwA   : Word := 0
  fwB   : Word := 0
  imageA : List Byte := []            -- the images in the slots (R417)
  imageB : List Byte := []
  okA   : Bool := true
  okB   : Bool := false
  act   : Bool := false               -- true: slot B
  next  : Bool := false
  fresh : Bool := false               -- slot NEXT was newly activated (R417)
  ep    : Bool := false
  modid : Nat := 0
  nextEp : Bool := false
  nextModid : Nat := 0
  xleft : Nat := 1048576
  thermal : List Word := []
  rails   : List (Word × Word) := []
  soft    : SMap Nat := []
  sample  : Word := 0
  powers  : List Nat := []            -- last ten samples of the summed power (R415)
  warn    : SMap (Option Word) := []  -- warning limits set by LIMIT, sensor ↦ limit
  warned  : List Nat := []            -- sensors in a warning condition
  log     : SMap (List Byte) := []
  logHead : Nat := 0
  measure : List (List Byte) := List.replicate 8 (List.replicate 64 0)   -- the eight measurement registers (R418)
deriving DecidableEq, Repr

structure Die where
  cycle : Nat := 0
  refills : Nat := 0             -- budget refills done (R343)
deriving DecidableEq, Repr

structure State where
  -- the model's own fields
  agenda : List Agent
  cur    : Nat × Nat
  free   : Nat
  serial : Nat
  -- memory
  mem    : List Host.Cell             -- coherent value of DRAM locations by physical address
  dram   : List Host.Cell             -- value stored in DRAM, where L2 holds newer bytes
  spm    : List Host.Cell             -- scratchpad, core x 327,680 + offset
  stamps : List Stamp                 -- the last writers of scratchpad bytes (R181, R272)
  trails : SMap Trail                 -- byte of memory x 2, or of a scratchpad x 2 + 1 ↦ the edges of its write (R270)
  hostSeen : SMap Nat                 -- writer ↦ newest of its writes that the host's harts know (R277)
  poison : SMap Bool                  -- poisoned 64-byte sectors
  badSpm : SMap Bool                  -- scratchpad words, key / 4, that an uncorrectable error has struck (R395)
  corrected : SMap Nat                -- die x 8 + structure ↦ errors corrected (R395)
  l2     : List L2Line
  -- ownership
  frameTag : SMap Nat
  bankTag  : SMap Nat                 -- core x 256 + bank
  chunkTag : SMap Nat                 -- die x 512 + chunk
  laneTag  : SMap Nat
  fenced   : List (Nat × Nat)         -- resources on their way to another owner: kind, identifier (R338)
  -- translation
  xlat   : SMap XEntry                -- die x 32,768 + index
  xlPtr  : SMap Nat                   -- tenant x 4 + die ↦ fill pointer
  walks  : SMap (List Walk)           -- die ↦ walks in progress
  misses : SMap (List Miss)           -- die ↦ misses that wait for an entry, in arrival order (R345)
  -- compute dies
  dies   : SMap Die
  ahead  : SMap Nat                   -- unit ↦ cycles that it had counted when the last start ended (R10)
  cores  : SMap Core
  tables : SMap (List Word)           -- cluster x 4 + k ↦ 261 words
  biases : SMap (List Word)           -- cluster x 4 + k ↦ 64 words
  mxReqs : List MxReq
  mxOps  : List MxOp
  copies : List Copy
  engines : SMap CopyEngine           -- die x 8 + engine
  budget : SMap Int                   -- die x 4,096 + tenant
  cedes  : List CedeOp
  -- tenants, queues, launches
  tenants : SMap Tenant
  queues  : SMap QSlot
  launches : List Launch
  codeTable : SMap Nat                -- the code-object table, 64 doublewords an entry (R316)
  saved   : List Saved
  preempts : List Preempt
  wrote   : SMap (List Word)          -- tenant ↦ values that its registers have held, for R21
  -- hub and management
  hub    : Hub
  mgmt   : Mgmt
deriving DecidableEq, Repr

/-- The machine right after reset: nothing bound, nothing placed, every register at its reset value (R387, R425), DRAM
zero (R260). The journal's start record is written by COLD_START; log 4 names the values the manual does not state. -/
def State.reset : State where
  agenda := []
  cur := (0, 0)
  free := 0
  serial := 1
  mem := []
  dram := []
  spm := []
  stamps := []
  trails := []
  hostSeen := []
  poison := []
  badSpm := []
  corrected := []
  l2 := []
  frameTag := []
  bankTag := []
  chunkTag := []
  laneTag := []
  fenced := []
  xlat := []
  xlPtr := []
  walks := []
  misses := []
  dies := []
  ahead := []
  cores := []
  tables := []
  biases := []
  mxReqs := []
  mxOps := []
  copies := []
  engines := []
  budget := []
  cedes := []
  tenants := []
  queues := []
  launches := []
  codeTable := []
  saved := []
  preempts := []
  wrote := []
  hub := {}
  mgmt := {}

end Sys2Proof.Machine
end

