-- ==== Sys2Proof/Machine/Map.lean ====
section
/-! DEFINITION. Sparse tables in canonical form (keys strictly rising, no default listed), memory as such a table of
bytes, and little-endian accesses of it. -/

namespace Sys2Proof.Machine
open Sys2Proof

/-- The value of a key; `d` where the key is not listed. -/
def mget {α : Type} (d : α) (m : SMap α) (k : Nat) : α :=
  match m with
  | [] => d
  | (j, v) :: t => if j = k then v else mget d t k

/-- The table without a key. -/
def merase {α : Type} (m : SMap α) (k : Nat) : SMap α :=
  match m with
  | [] => []
  | (j, v) :: t => if j = k then merase t k else (j, v) :: merase t k

/-- The table with a key that it does not list, before the first greater key. -/
def mput {α : Type} (m : SMap α) (k : Nat) (x : α) : SMap α :=
  match m with
  | [] => [(k, x)]
  | (j, v) :: t => if k < j then (k, x) :: (j, v) :: t else (j, v) :: mput t k x

/-- The table in which a key has a value: the default is not listed. -/
def mset {α : Type} [DecidableEq α] (d : α) (m : SMap α) (k : Nat) (x : α) : SMap α :=
  if x = d then merase m k else mput (merase m k) k x

/-- The table with every listed value changed by `h`: no default is listed. -/
def mmap {α : Type} [DecidableEq α] (d : α) (h : Nat → α → α) (m : SMap α) : SMap α :=
  (m.map (fun q => (q.1, h q.1 q.2))).filter (fun q => decide (q.2 ≠ d))

/-- Canonical form: keys strictly rising and above `lo`, no value equal to the default. -/
def mwfFrom {α : Type} [DecidableEq α] (d : α) : Option Nat → SMap α → Bool
  | _, [] => true
  | none, (k, v) :: t => !decide (v = d) && mwfFrom d (some k) t
  | some lo, (k, v) :: t => decide (lo < k) && !decide (v = d) && mwfFrom d (some k) t

def mwf {α : Type} [DecidableEq α] (d : α) (m : SMap α) : Bool := mwfFrom d none m

/-- Memory's canonical form; an unlisted byte reads zero (R260). -/
def Memory.wf (m : List Host.Cell) : Bool := mwf (0 : Byte) m

def readByte (m : List Host.Cell) (a : Nat) : Byte := mget 0 m a
def writeByte (m : List Host.Cell) (a : Nat) (x : Byte) : List Host.Cell := mset 0 m a x

/-- `n` bytes from an address on. -/
def readBytes (m : List Host.Cell) (a : Nat) : Nat → List Byte
  | 0 => []
  | n + 1 => readByte m a :: readBytes m (a + 1) n

def writeBytes (m : List Host.Cell) (a : Nat) : List Byte → List Host.Cell
  | [] => m
  | x :: xs => writeBytes (writeByte m a x) (a + 1) xs

/-- A little-endian value of `n` bytes. -/
def readLE (m : List Host.Cell) (a n : Nat) : Nat := bytesToNat (readBytes m a n)
def writeLE (m : List Host.Cell) (a n v : Nat) : List Host.Cell := writeBytes m a (natToBytes n v)

/-- Elements of a list at positions that satisfy a test, and replacement of the first element that does. -/
def updFirst {α : Type} (p : α → Bool) (g : α → α) : List α → List α
  | [] => []
  | x :: xs => if p x then g x :: xs else x :: updFirst p g xs

/-- Insertion into a list sorted by a number, behind equals; and the stable sort. -/
def insertNat {α : Type} (key : α → Nat) (x : α) : List α → List α
  | [] => [x]
  | y :: ys => if key x < key y then x :: y :: ys else y :: insertNat key x ys

def sortNat {α : Type} (key : α → Nat) (xs : List α) : List α := xs.foldl (fun ys x => insertNat key x ys) []

/-- Lanes of a mask, ascending. -/
def lanesOf (m : Mask) : List Nat := (List.range 64).filter (fun l => m.getLsbD l)

def maskOf (ls : List Nat) : Mask := ls.foldl (fun m l => m ||| (1#64 <<< l)) 0

def lowestLane (m : Mask) : Option Nat := (lanesOf m).head?

/-- A list of words and a list of bytes as each other, little-endian. -/
def wordsToBytes (ws : List Word) : List Byte := ws.flatMap (fun w => natToBytes 4 w.toNat)

def bytesToWords : List Byte → List Word
  | a :: b :: c :: d :: t => BitVec.ofNat 32 (bytesToNat [a, b, c, d]) :: bytesToWords t
  | _ => []

/-- CRC-32C, reflected polynomial 0x82F6_3B78 (R391, R416; log 9). -/
def crcStep (c : Word) : Nat → Word
  | 0 => c
  | n + 1 => crcStep (if c.getLsbD 0 then (c >>> 1) ^^^ 0x82F63B78 else c >>> 1) n

def crc32c (bs : List Byte) : Word :=
  ~~~ bs.foldl (fun c b => crcStep (c ^^^ b.setWidth 32) 8) 0xFFFFFFFF

end Sys2Proof.Machine
end

