-- ==== Sys2Proof/Machine/Num.lean ====
section
/-! DEFINITION. Number formats to the bit (R36 to R42), exact arithmetic on their values, and rounding (R43 to R48). -/

namespace Sys2Proof.Machine
open Sys2Proof

/-- Rounding modes (R43, R59). -/
inductive RMode where
  | rne | rz | rd | ru
deriving DecidableEq, Repr

def rmodeOf (m : Nat) : RMode :=
  if m % 4 = 0 then .rne else if m % 4 = 1 then .rz else if m % 4 = 2 then .rd else .ru

/-- A decoded floating-point element: NaN (signalling or not), infinity, or (-1)^neg x m x 2^e. -/
inductive FVal where
  | nan (sig : Bool)
  | inf (neg : Bool)
  | num (neg : Bool) (m : Nat) (e : Int)
deriving DecidableEq, Repr

/-- Whether a format has infinities and NaNs as IEEE 754, the single NaN 0x80 of F8N, or neither (F4). -/
inductive FKind where
  | ieee | f8n | f4
deriving DecidableEq, Repr

/-- A floating-point format: exponent bits, fraction bits, bias. -/
structure Fmt where
  ew   : Nat
  fw   : Nat
  bias : Nat
  kind : FKind
deriving DecidableEq, Repr

def fF32 : Fmt := ⟨8, 23, 127, .ieee⟩
def fF16 : Fmt := ⟨5, 10, 15, .ieee⟩
def fB16 : Fmt := ⟨8, 7, 127, .ieee⟩
def fF8N : Fmt := ⟨4, 3, 7, .f8n⟩
def fF8W : Fmt := ⟨5, 2, 15, .ieee⟩
def fF4  : Fmt := ⟨2, 1, 1, .f4⟩
/-- The inner accumulator's format (R50). -/
def fE8M15 : Fmt := ⟨8, 15, 127, .ieee⟩

/-- Codes without sign: exponent all ones with fraction zero, the largest finite, the canonical NaN (R37 to R40). -/
def infCode (f : Fmt) : Nat := (2 ^ f.ew - 1) * 2 ^ f.fw
def maxCode (f : Fmt) : Nat :=
  match f.kind with
  | .ieee => infCode f - 1
  | _ => 2 ^ (f.ew + f.fw) - 1
def nanCode (f : Fmt) : Nat :=
  match f.kind with
  | .ieee => infCode f + 2 ^ (f.fw - 1)
  | .f8n => 0x80
  | .f4 => 0
def signCode (f : Fmt) (neg : Bool) : Nat := if neg then 2 ^ (f.ew + f.fw) else 0

/-- The value of a code (R36 to R40); F4's 0b1000 reads as -0 (R41). -/
def fdecode (f : Fmt) (x : Nat) : FVal :=
  let neg := x.testBit (f.ew + f.fw)
  let e := (x / 2 ^ f.fw) % 2 ^ f.ew
  let m := x % 2 ^ f.fw
  let fin := if e = 0 then FVal.num neg m (1 - (f.bias : Int) - f.fw)
             else FVal.num neg (2 ^ f.fw + m) ((e : Int) - f.bias - f.fw)
  match f.kind with
  | .ieee =>
    if e = 2 ^ f.ew - 1 then (if m = 0 then .inf neg else .nan (!m.testBit (f.fw - 1))) else fin
  | .f8n => if x % 256 = 0x80 then .nan false else fin
  | .f4 => fin

/-- Exceptions as bits NV DZ OF UF NX (R26). -/
abbrev Exc := BitVec 5
def excNV : Exc := 16
def excDZ : Exc := 8
def excOF : Exc := 4
def excUF : Exc := 2
def excNX : Exc := 1

def bitLen (n : Nat) : Nat := if n = 0 then 0 else Nat.log2 n + 1

/-- `m` shifted right by `sh` and rounded in a mode, and whether it is inexact; `st` says that the exact value lies
strictly above `m` and below `m + 1`. -/
def roundShift (md : RMode) (neg : Bool) (m sh : Nat) (st : Bool) : Nat × Bool :=
  let q := m / 2 ^ sh
  let r := m % 2 ^ sh
  let half := 2 ^ sh / 2
  let inexact := r != 0 || st
  let up :=
    match md with
    | .rne => sh != 0 && (decide (half < r) || (r == half && (st || q % 2 == 1)))
    | .rz => false
    | .rd => neg && inexact
    | .ru => !neg && inexact
  (if up then q + 1 else q, inexact)

/-- A nonzero exact value m x 2^e (plus less than 2^e if `st`) rounded to a quantum 2^q. -/
def roundAt (md : RMode) (neg : Bool) (m : Nat) (e : Int) (st : Bool) (q : Int) : Nat × Bool :=
  if q ≤ e then (m * 2 ^ (e - q).toNat, st) else roundShift md neg m (q - e).toNat st

/-- The result of rounding to a format: code without sign, inexact, overflow, tiny (R43, R44). -/
structure Rounded where
  code    : Nat
  inexact : Bool
  huge    : Bool
  tiny    : Bool
deriving DecidableEq, Repr

/-- Round a nonzero magnitude to a format (R43, R44); tininess is judged after rounding with an unbounded exponent. -/
def roundMag (f : Fmt) (md : RMode) (neg : Bool) (m : Nat) (e : Int) (st : Bool) : Rounded :=
  let l := bitLen m
  let qu := e + l - (f.fw + 1 : Nat)
  let mu := (roundAt md neg m e st qu).1
  let emin := 1 - (f.bias : Int)
  let top := if mu ≥ 2 ^ (f.fw + 1) then qu + f.fw + 1 else qu + f.fw
  let q := max qu (emin - f.fw)
  let r := roundAt md neg m e st q
  let code := (q + f.fw + f.bias - 1).toNat * 2 ^ f.fw + r.1
  { code := code, inexact := r.2, huge := decide (maxCode f < code), tiny := decide (top < emin) }

/-- Where an overflow goes in a mode: the largest finite value or infinity (R44). -/
def overToMax (md : RMode) (neg : Bool) : Bool :=
  match md with
  | .rne => false
  | .rz => true
  | .rd => !neg
  | .ru => neg

/-- The code and exceptions of an exact nonzero magnitude in an IEEE format (R43, R44, R46). -/
def roundIeee (f : Fmt) (md : RMode) (neg : Bool) (m : Nat) (e : Int) (st : Bool) : Nat × Exc :=
  let r := roundMag f md neg m e st
  if r.huge then
    ((if overToMax md neg then maxCode f else infCode f) + signCode f neg, excOF ||| excNX)
  else
    (r.code + signCode f neg, (if r.inexact then (if r.tiny then excUF ||| excNX else excNX) else 0))

/-- Code of a value that needs no rounding decision: NaN becomes canonical (R45). -/
def packVal (f : Fmt) (md : RMode) (v : FVal) : Nat × Exc :=
  match v with
  | .nan sig => (nanCode f, if sig then excNV else 0)
  | .inf neg => (infCode f + signCode f neg, 0)
  | .num neg m e => if m = 0 then (signCode f neg, 0) else roundIeee f md neg m e false

/-- An exact sum of two finite values as sign, magnitude, exponent; a zero sum takes the sign rule of R116, in
the matrix engine's additions too, of which the manual gives none (log 93, DESIGN CHOICE). -/
def addNum (md : RMode) (n1 : Bool) (m1 : Nat) (e1 : Int) (n2 : Bool) (m2 : Nat) (e2 : Int) : FVal :=
  let e := min e1 e2
  let a : Int := (m1 * 2 ^ (e1 - e).toNat : Nat)
  let b : Int := (m2 * 2 ^ (e2 - e).toNat : Nat)
  let s := (if n1 then -a else a) + (if n2 then -b else b)
  if s = 0 then
    (if m1 = 0 ∧ m2 = 0 ∧ n1 = n2 then .num n1 0 0 else .num (md == .rd) 0 0)
  else .num (decide (s < 0)) s.natAbs e

def fneg : FVal → FVal
  | .nan s => .nan s
  | .inf n => .inf (!n)
  | .num n m e => .num (!n) m e

def fabs : FVal → FVal
  | .nan s => .nan s
  | .inf _ => .inf false
  | .num _ m e => .num false m e

def isNan : FVal → Bool
  | .nan _ => true
  | _ => false
def isSig : FVal → Bool
  | .nan s => s
  | _ => false
def isZero : FVal → Bool
  | .num _ m _ => m == 0
  | _ => false
def isInf : FVal → Bool
  | .inf _ => true
  | _ => false
def signOf : FVal → Bool
  | .nan _ => false
  | .inf n => n
  | .num n _ _ => n

def sigExc (vs : List FVal) : Exc := if vs.any isSig then excNV else 0

/-- a + b exactly, with the invalid case (R116). -/
def addVal (md : RMode) (a b : FVal) : FVal × Exc :=
  match a, b with
  | .nan s, y => (.nan false, sigExc [.nan s, y])
  | x, .nan s => (.nan false, sigExc [x, .nan s])
  | .inf n, .inf k => if n = k then (.inf n, 0) else (.nan false, excNV)
  | .inf n, _ => (.inf n, 0)
  | _, .inf n => (.inf n, 0)
  | .num n1 m1 e1, .num n2 m2 e2 => (addNum md n1 m1 e1 n2 m2 e2, 0)

/-- a x b exactly (R116). -/
def mulVal (a b : FVal) : FVal × Exc :=
  match a, b with
  | .nan s, y => (.nan false, sigExc [.nan s, y])
  | x, .nan s => (.nan false, sigExc [x, .nan s])
  | .inf n, y => if isZero y then (.nan false, excNV) else (.inf (n != signOf y), 0)
  | x, .inf n => if isZero x then (.nan false, excNV) else (.inf (n != signOf x), 0)
  | .num n1 m1 e1, .num n2 m2 e2 => (.num (n1 != n2) (m1 * m2) (e1 + e2), 0)

/-- a x b + c exactly; 0 x infinity is invalid even when c is a quiet NaN (R116). -/
def fmaVal (md : RMode) (a b c : FVal) : FVal × Exc :=
  let p := mulVal a b
  let s := addVal md p.1 c
  (s.1, p.2 ||| s.2 ||| sigExc [c])

/-- Round an exact value with its exceptions to an IEEE format. -/
def finish (f : Fmt) (md : RMode) (v : FVal × Exc) : Nat × Exc :=
  let r := packVal f md v.1
  (r.1, v.2 ||| r.2)

/-- Floor of the square root, bit by bit from bit `b - 1` down. -/
def isqrtAux (n r : Nat) : Nat → Nat
  | 0 => r
  | b + 1 => if (r + 2 ^ b) * (r + 2 ^ b) ≤ n then isqrtAux n (r + 2 ^ b) b else isqrtAux n r b
def isqrt (n : Nat) : Nat := isqrtAux n 0 (bitLen n / 2 + 1)

/-- Quotient of two nonzero magnitudes with at least `p` significant bits, its exponent, and whether it is inexact. -/
def divMag (p m1 : Nat) (e1 : Int) (m2 : Nat) (e2 : Int) : Nat × Int × Bool :=
  let k := p + bitLen m2 + 1 - min (p + bitLen m2 + 1) (bitLen m1)
  let n := m1 * 2 ^ k
  (n / m2, e1 - e2 - k, n % m2 != 0)

/-- Square root of a nonzero magnitude with at least `p` significant bits. -/
def sqrtMag (p m : Nat) (e : Int) : Nat × Int × Bool :=
  let k0 := 2 * p + 2 - min (2 * p + 2) (bitLen m)
  let k := if (e - k0) % 2 = 0 then k0 else k0 + 1
  let n := m * 2 ^ k
  let r := isqrt n
  (r, (e - k) / 2, r * r != n)

/-- FDIV (R116). -/
def fdivF (f : Fmt) (md : RMode) (a b : FVal) : Nat × Exc :=
  match a, b with
  | .nan s, y => (nanCode f, sigExc [.nan s, y])
  | x, .nan s => (nanCode f, sigExc [x, .nan s])
  | .inf n, .inf _ => let _ := n; (nanCode f, excNV)
  | .inf n, y => (infCode f + signCode f (n != signOf y), 0)
  | x, .inf n => (signCode f (signOf x != n), 0)
  | .num n1 m1 e1, .num n2 m2 e2 =>
    let neg := n1 != n2
    if m2 = 0 then (if m1 = 0 then (nanCode f, excNV) else (infCode f + signCode f neg, excDZ))
    else if m1 = 0 then (signCode f neg, 0)
    else
      let q := divMag (f.fw + 4) m1 e1 m2 e2
      roundIeee f md neg q.1 q.2.1 q.2.2

/-- FSQRT (R116). -/
def fsqrtF (f : Fmt) (md : RMode) (a : FVal) : Nat × Exc :=
  match a with
  | .nan s => (nanCode f, sigExc [.nan s])
  | .inf n => if n then (nanCode f, excNV) else (infCode f, 0)
  | .num n m e =>
    if m = 0 then (signCode f n, 0)
    else if n then (nanCode f, excNV)
    else
      let q := sqrtMag (f.fw + 4) m e
      roundIeee f md false q.1 q.2.1 q.2.2

/-- Comparison of two values that are not NaN: a < b, as rationals extended with infinities; -0 = +0. -/
def numKey (m : Nat) (e base : Int) : Nat := m * 2 ^ (e - base).toNat
def fltVal (a b : FVal) : Bool :=
  match a, b with
  | .nan _, _ => false
  | _, .nan _ => false
  | .inf n, .inf k => n && !k
  | .inf n, .num _ _ _ => n
  | .num _ _ _, .inf k => !k
  | .num n1 m1 e1, .num n2 m2 e2 =>
    let base := min e1 e2
    let x : Int := (numKey m1 e1 base : Nat)
    let y : Int := (numKey m2 e2 base : Nat)
    decide ((if n1 then -x else x) < (if n2 then -y else y))
def feqVal (a b : FVal) : Bool := !isNan a && !isNan b && !fltVal a b && !fltVal b a

/-- a orders below b where -0 is below +0 (R117). -/
def fbelow (a b : FVal) : Bool := fltVal a b || (feqVal a b && signOf a && !signOf b)

/-- FMIN or FMAX on codes of a format (R117). -/
def fminmax (f : Fmt) (isMax useNan : Bool) (x y : Nat) : Nat × Exc :=
  let a := fdecode f x
  let b := fdecode f y
  let ex := sigExc [a, b]
  if isNan a && isNan b then (nanCode f, ex)
  else if isNan a then (if useNan then nanCode f else y, ex)
  else if isNan b then (if useNan then nanCode f else x, ex)
  else if isMax then (if fbelow a b then y else x, ex)
  else (if fbelow b a then y else x, ex)

/-- FCMP: condition code, result, exceptions (R119). -/
def fcmpF (cond : Nat) (a b : FVal) : Bool × Exc :=
  let un := isNan a || isNan b
  let quiet := sigExc [a, b]
  let anyNan := if un then excNV else 0
  if cond = 0 then (feqVal a b, quiet)
  else if cond = 1 then (un || !feqVal a b, quiet)
  else if cond = 2 then (fltVal a b, anyNan)
  else if cond = 3 then (!un && !fltVal b a, anyNan)
  else if cond = 4 then (fltVal b a, anyNan)
  else if cond = 5 then (!un && !fltVal a b, anyNan)
  else if cond = 6 then (un, quiet)
  else (!un, quiet)

/-- FCLASS (R120). -/
def fclassF (f : Fmt) (x : Nat) : Nat :=
  match fdecode f x with
  | .nan s => if s then 2 ^ 8 else 2 ^ 9
  | .inf n => if n then 2 ^ 0 else 2 ^ 7
  | .num n m _ =>
    if m = 0 then (if n then 2 ^ 3 else 2 ^ 4)
    else if m < 2 ^ f.fw then (if n then 2 ^ 2 else 2 ^ 5)
    else if n then 2 ^ 1 else 2 ^ 6

/-- A finite value rounded to an integer in a mode, and whether it is inexact. -/
def roundInt (md : RMode) (neg : Bool) (m : Nat) (e : Int) : Int × Bool :=
  let r := roundAt md neg m e false 0
  ((if neg then -(r.1 : Int) else r.1), r.2)

/-- FRND (R118). -/
def frndF (f : Fmt) (md : RMode) (a : FVal) : Nat × Exc :=
  match a with
  | .nan s => (nanCode f, sigExc [.nan s])
  | .inf n => (infCode f + signCode f n, 0)
  | .num n m e =>
    let k := (roundAt md n m e false 0).1
    if k = 0 then (signCode f n, 0) else ((roundIeee f .rz n k 0 false).1, 0)

/-- Format codes of R124 that are floating point. -/
def fmtOf (code : Nat) : Fmt :=
  if code = 0 then fF32 else if code = 1 then fF16 else if code = 2 then fB16
  else if code = 3 then fF8N else if code = 4 then fF8W else fF4

def isFloatCode (code : Nat) : Bool := decide (code ≤ 5)
def isSignedCode (code : Nat) : Bool := code == 6 || code == 8 || code == 10 || code == 12

def intLo (code : Nat) : Int := if isSignedCode code then -(2 ^ (fmtWidth code - 1) : Nat) else 0
def intHi (code : Nat) : Int :=
  if isSignedCode code then (2 ^ (fmtWidth code - 1) : Nat) - 1 else (2 ^ fmtWidth code : Nat) - 1

/-- An integer as a code of a width. -/
def intCode (w : Nat) (x : Int) : Nat := (x % (2 ^ w : Nat)).toNat

/-- The integer that a code of an integer format stands for (R34). -/
def intDecode (code x : Nat) : Int :=
  let w := fmtWidth code
  if isSignedCode code && x.testBit (w - 1) then (x : Int) - (2 ^ w : Nat) else x

/-- Narrow conversion of a value (R47): RNE or RZ, with the saturation bit. -/
def toNarrow (f : Fmt) (md : RMode) (sat : Bool) (v : FVal) : Nat × Exc :=
  match f.kind, v with
  | .ieee, .nan s => (nanCode f, if s then excNV else 0)
  | .f8n, .nan s => (0x80, if s then excNV else 0)
  | .f4, .nan _ => (0, excNV)
  | .ieee, .inf n => (infCode f + signCode f n, 0)
  | .f8n, .inf n => (if sat then maxCode f + signCode f n else 0x80, excNV)
  | .f4, .inf n => (maxCode f + signCode f n, excNV)
  | k, .num n m e =>
    if m = 0 then (if k = .ieee then signCode f n else 0, 0)
    else
      let r := roundMag f md n m e false
      if r.huge then
        let big := maxCode f + signCode f n
        (if sat then big
         else match k with
           | .ieee => if md = .rz then big else infCode f + signCode f n
           | .f8n => if md = .rz then big else 0x80
           | .f4 => big, excOF ||| excNX)
      else
        (if r.code = 0 && k != .ieee then 0 else r.code + signCode f n,
         if r.inexact then (if r.tiny then excUF ||| excNX else excNX) else 0)

/-- A floating-point value to an integer format, rounded and clamped (R48). -/
def toInt (code : Nat) (md : RMode) (v : FVal) : Nat × Exc :=
  let w := fmtWidth code
  match v with
  | .nan _ => (0, excNV)
  | .inf n => (intCode w (if n then intLo code else intHi code), excNV)
  | .num n m e =>
    let r := roundInt md n m e
    if r.1 < intLo code then (intCode w (intLo code), excNV)
    else if intHi code < r.1 then (intCode w (intHi code), excNV)
    else (intCode w r.1, if r.2 then excNX else 0)

def intVal (x : Int) : FVal := .num (decide (x < 0)) x.natAbs 0

/-- One element converted between format codes (R125, R126): source code, target code, mode, S. -/
def convert (src dst : Nat) (md : RMode) (sat : Bool) (x : Nat) : Nat × Exc :=
  if isFloatCode src then
    let v := fdecode (fmtOf src) x
    if dst = 0 then packVal fF32 md v
    else if isFloatCode dst then toNarrow (fmtOf dst) md sat v
    else toInt dst md v
  else
    let k := intDecode src x
    if dst = 0 then (if k = 0 then (0, 0) else packVal fF32 md (intVal k))
    else if isFloatCode dst then toNarrow (fmtOf dst) md sat (intVal k)
    else (intCode (fmtWidth dst) (satInt k (intLo dst) (intHi dst)), 0)

/-- Digit i of a packed ternary byte; bytes 243 to 255 decode as zeros (R42). -/
def terDigit (b i : Nat) : Nat := if 243 ≤ b then 0 else (b / 3 ^ i) % 3
/-- The value of a digit code. -/
def terVal (d : Nat) : Int := if d = 1 then 1 else if d = 2 then -1 else 0
def terCode (x : Int) : Nat := if x = 1 then 1 else if x = -1 then 2 else 0

end Sys2Proof.Machine
end

