-- ==== Sys2Proof/Config.lean ====
section
/-! DEFINITION. What the manual leaves to the part or leaves open: constants without a body, of which nothing can be
proved but what holds of every value (log 5, 6, 7, 8). -/

namespace Sys2Proof.Config
open Sys2Proof Sys2Proof.Machine

/-- The n-th value drawn where the manual calls a register or a byte undefined (R21). -/
opaque freeWord : Nat → Word
/-- The n-th choice drawn where the manual allows several outcomes. -/
opaque freeNat : Nat → Nat
/-- The n-th choice between two outcomes. -/
opaque freeBit : Nat → Bool
/-- Who moves when the agenda is empty (log 1). -/
opaque nextAgent : Nat → Agent
/-- The stepping's result of an approximated function, before the bound of R122 is applied: function, operand. -/
opaque approx : Nat → Word → Word
/-- Where a core's firmware slot starts when it takes a frame (R279). -/
opaque firmwareEntry : Dword
/-- 64-byte SHAKE256 digest (R417, R418). -/
opaque digest : List Byte → List Byte
/-- The fields of an image's header (R417). -/
structure ImageHeader where
  magic      : Word
  version    : Word
  bodyLength : Nat
  digest     : List Byte
deriving DecidableEq, Repr, Inhabited

/-- The header of an image, in its own layout (R417). -/
opaque imageHeader : List Byte → ImageHeader
/-- The vendor key's XMSS signature over a header: header, signature (R417). -/
opaque signatureValid : List Byte → List Byte → Bool
/-- The fused minimum firmware version (R413, R417). -/
opaque minVersion : Word
/-- Bytes of an ATTEST report: nonce, MODID, STEPPING, FWVERA, FWVERB, MCFG, the eight measurements, the XMSS index used
and the signature over them, in the part's own layout (R418). -/
opaque attestReport : List Byte → Nat → List Byte → List Word → List (List Byte) → Nat → List Byte
/-- The die of a rail: 0 to 3 a compute die, else the hub die (R415). -/
opaque railDie : Nat → Nat
/-- Fused critical limit of rail i, in units of 10 mA (R415). -/
opaque railCritical : Nat → Nat
/-- Warning limit of rail i at reset, in units of 10 mA (R415). -/
opaque railWarning : Nat → Nat
/-- The components that an image loads, measured at a start: image, component (R418). -/
opaque component : List Byte → Nat → List Byte

/-- The stepping identifier `Z8B0` (R423). -/
def stepping : List Byte := [0x5A, 0x38, 0x42, 0x30] ++ List.replicate 12 0

end Sys2Proof.Config
end

