-- ==== Sys2Proof/Machine/Order.lean ====
section
/-! DEFINITION. What happens before what (R263, R267, R270 to R277): the writers, what each group knows of their writes, the
edges that a write carries to a read that returns it, and the last writer of scratchpad bytes. A read that the model answers
takes its value in the order of the machine's steps; this bookkeeping decides what an OPRDY hands over (R181) and what a wide
release waits for (R272). -/

namespace Sys2Proof.Machine
open Sys2Proof

/-- A writer: the handler's or firmware's context of a core, a group, or a copy. -/
def groupWriter (c x born : Nat) : Nat := if 48 ≤ x then c * 64 + x else 2 ^ 20 + 2 * (born * 64 + x)
def copyWriter (id : Nat) : Nat := 2 ^ 20 + 2 * id + 1

/-- What one agent knows of writes joined with what another knows. -/
def joinSeen (a b : SMap Nat) : SMap Nat := b.foldl (fun m q => mset 0 m q.1 (max q.2 (mget 0 m q.1))) a

/-- What a group of slot `x` knows at its place `n`, its own earlier writes among it. -/
def ownSeen (c x n : Nat) (g : Group) : SMap Nat := mset 0 g.seen (groupWriter c x g.born) n

/-- What groups of a core know at a place, once each has learnt from every other. -/
def jointSeen (k : Core) (c n : Nat) (xs : List Nat) : SMap Nat :=
  xs.foldl (fun m x => joinSeen m (ownSeen c x n (mget {} k.groups x))) []

/-- The number that stands for a core at the host's and the hub's accesses. -/
def hostCore : Nat := 1000

/-- Two cores lie in one instance of a scope (R156, R270): the core, the cluster, the die, the module or domain, the system. -/
def sharesScope (a b scope : Nat) : Bool :=
  if scope = 1 then a == b
  else if scope = 2 then a / 4 == b / 4
  else if scope = 3 then a / 192 == b / 192
  else if scope ≤ 5 then decide (a < hostCore) && decide (b < hostCore)
  else true

/-- A release is one of an acquire at a scope by an agent of a core (R270); the core store order is one of an acquire at any
scope (R267). -/
def covers (e : Edge) (core scope : Nat) : Bool :=
  if e.order then e.core == core else sharesScope e.core core e.scope && sharesScope e.core core scope

/-- An edge joined with those of the same scope, core and kind. -/
def joinEdge (es : List Edge) (e : Edge) : List Edge :=
  let same := fun (q : Edge) => q.scope == e.scope && q.core == e.core && q.order == e.order
  if es.any same then es.map (fun q => if same q then { q with knows := joinSeen q.knows e.knows } else q) else es ++ [e]
def joinEdges (as bs : List Edge) : List Edge := bs.foldl joinEdge as

/-- What some edges tell an agent that acquires at a scope. -/
def toldBy (es : List Edge) (core scope : Nat) : SMap Nat :=
  (es.filter (fun e => covers e core scope)).foldl (fun m e => joinSeen m e.knows) []

/-! ### Trails of bytes -/

/-- The keys of bytes of memory and of scratchpads in a table of trails. -/
def trailKeys (spm : Bool) (a n : Nat) : List Nat := (List.range n).map (fun i => 2 * (a + i) + spm.toNat)

/-- A byte is written: by a write with edges, or by one with none. An atomic's read synchronises with the earlier ones. -/
def trailStep (es : List Edge) (rmw : Bool) (t : SMap Trail) (key : Nat) : SMap Trail :=
  let q := mget {} t key
  mset {} t key { own := es, past := joinEdges q.past (q.own.filter (fun e => !e.order)), rmw := rmw }

def trailWrite (t : SMap Trail) (spm : Bool) (a n : Nat) (es : List Edge) (rmw : Bool) : SMap Trail :=
  if t.isEmpty && es.isEmpty then t else (trailKeys spm a n).foldl (trailStep es rmw) t

/-- The edges of a read of bytes (R270). -/
def trailRead (t : SMap Trail) (spm : Bool) (a n : Nat) : List Edge :=
  if t.isEmpty then []
  else (trailKeys spm a n).foldl (fun es key =>
    let q := mget {} t key
    joinEdges es (if q.rmw then joinEdges q.own q.past else q.own)) []

/-- The trails of a sector go with it into a level that caches it. -/
def trailFill (l1 t : SMap Trail) (sec : Nat) : SMap Trail :=
  if l1.isEmpty && t.isEmpty then l1
  else (trailKeys false (sec * 64) 64).foldl (fun m key => mset {} m key (mget {} t key)) l1

/-! ### What a group learns -/

/-- A group learns of writes at its place `n`: what it does from there on knows them, its later releases in the queue among it
(R272). -/
def learn (m : SMap Nat) (n : Nat) (g : Group) : Group :=
  if m.isEmpty then g
  else
    let tell := fun (e : Edge) => if n < e.at' then { e with knows := joinSeen e.knows m } else e
    { g with seen := joinSeen g.seen m, releases := g.releases.map tell
             storeq := g.storeq.map (fun q => { q with edges := q.edges.map tell }) }

/-- The edges of a write that enters a queue at place `n` (R270): of its own release, and of the earlier fences. -/
def edgesAt (k : Core) (c x rel n : Nat) (xs : List Nat) : List Edge :=
  (if rel = 0 then [] else [{ scope := rel, core := c, at' := n, knows := jointSeen k c (n - 1) xs }]) ++
    (mget {} k.groups x).releases

/-- The edge of the core store order (R267). -/
def orderEdge (k : Core) (c : Nat) : Edge := { scope := 1, core := c, at' := 0, order := true, knows := k.performed }

/-- A write has performed at core scope (R267). -/
def notePerformed (q : QItem) (k : Core) : Core :=
  { k with performed := mset 0 k.performed q.writer (max q.id (mget 0 k.performed q.writer)) }

/-- Every write that some edges of a wide release cover is acknowledged: none is queued or under way (R272). -/
def coveredDone (k : Core) (es : List Edge) : Bool :=
  es.all (fun e => decide (e.scope ≤ 1) ||
    (k.flight.all (fun w => decide (mget 0 e.knows w.item.writer < w.item.id)) &&
     k.groups.all (fun g => g.2.storeq.all (fun q => decide (mget 0 e.knows q.writer < q.id)))))

/-! ### Last writers of scratchpad bytes -/

/-- What is left of a run of bytes once others have been written. -/
def Stamp.without (key n : Nat) (q : Stamp) : List Stamp :=
  [{ q with len := min q.len (key - q.key) },
   { q with key := max q.key (key + n), len := q.len - (key + n - q.key) }].filter (fun r => r.len != 0)

/-- Bytes have a new last writer. -/
def stampWrite (ss : List Stamp) (key n writer id : Nat) : List Stamp :=
  let old := ss.flatMap (Stamp.without key n)
  match old with
  | q :: rest =>
    if q.writer = writer ∧ q.id = id ∧ q.key + q.len = key then { q with len := q.len + n } :: rest
    else ⟨key, n, writer, id⟩ :: old
  | [] => [⟨key, n, writer, id⟩]

end Sys2Proof.Machine
end

