-- ==== Sys2Proof/Machine/Ops.lean ====
section
/-! DEFINITION. The operations that every instruction and event is written with: cores and groups, free values, the
frontier (R219 to R222, R134), results in flight (R67 to R72), rendezvous (R229 to R232), and taking a trap and returning
from one (R281 to R287). -/

namespace Sys2Proof.Machine
open Sys2Proof

/-! ### Where things stand -/

/-- The handler context and the firmware context of a core, beside the group slots 0 to 47 (R8). -/
def handlerCtx : Nat := 48
def firmwareCtx : Nat := 49

def dieOf (core : Nat) : Nat := core / 192
def clusterOf (core : Nat) : Nat := core / 4

def getDie (s : State) (d : Nat) : Die := mget {} s.dies d
def setDie (s : State) (d : Nat) (x : Die) : State := { s with dies := mset {} s.dies d x }

/-- The cycle of the arithmetic clock of a core's die (R12). -/
def now (s : State) (core : Nat) : Nat := (getDie s (dieOf core)).cycle

/-- Units with a local cycle counter (R4, R10), beside the cores, whose numbers are their own: the matrix engine of a cluster, a
system copy engine by die x 8 + engine, and the hub's units: 0 the host complex, 1 queue memory and launch registers,
2 the ticket counter, 3 the journal controller, 4 the revocation unit, 5 the link unit, 6 and 7 the root ports, 8 the management
controller, 9 the abort engine. -/
def unitMatrix (cluster : Nat) : Nat := 768 + cluster
def unitCopy (e : Nat) : Nat := 960 + e
def unitHub (i : Nat) : Nat := 992 + i

/-- A unit's counter: every cycle of its clock since it left reset, those of the start in which it did so and those since
(R10, R11; log 27, DEDUCED). -/
def unitCycles (s : State) (u clock : Nat) : Nat := mget 0 s.ahead u + clock
def coreCount (s : State) (c : Nat) : Nat := unitCycles s c (now s c)
def matrixCount (s : State) (cl : Nat) : Nat := unitCycles s (unitMatrix cl) (now s (cl * 4))
def copyCount (s : State) (e : Nat) : Nat := unitCycles s (unitCopy e) (getDie s (e / 8)).cycle
/-- The host complex runs at 3.2 GHz, the hub's other units at 1.2 GHz. -/
def hubCount (s : State) (i : Nat) : Nat := unitCycles s (unitHub i) (if i = 0 then s.hub.cycle * 8 / 3 else s.hub.cycle)

def getCore (s : State) (c : Nat) : Core := mget {} s.cores c
def setCore (s : State) (c : Nat) (k : Core) : State := { s with cores := mset {} s.cores c k }
def updCore (s : State) (c : Nat) (h : Core → Core) : State := setCore s c (h (getCore s c))

def Core.group (k : Core) (x : Nat) : Group := mget {} k.groups x
def Core.withGroup (k : Core) (x : Nat) (g : Group) : Core := { k with groups := mset {} k.groups x g }

def getGroup (s : State) (c x : Nat) : Group := (getCore s c).group x
def setGroup (s : State) (c x : Nat) (g : Group) : State := updCore s c (fun k => k.withGroup x g)
def updGroup (s : State) (c x : Nat) (h : Group → Group) : State := setGroup s c x (h (getGroup s c x))

def getTenant (s : State) (t : Nat) : Tenant := mget {} s.tenants t
def setTenant (s : State) (t : Nat) (x : Tenant) : State := { s with tenants := mset {} s.tenants t x }

/-- f.tenant's fields (R32). -/
def Core.bound (k : Core) : Bool := k.fTenant.getLsbD 31
def Core.tid (k : Core) : Nat := (k.fTenant.extractLsb' 0 12).toNat

/-- The tenant whose translations and ownership a context uses: the core's, and the system for the firmware slot. -/
def tenantOf (s : State) (c x : Nat) : Nat := if x = firmwareCtx then 0 else (getCore s c).tid

def Group.width (g : Group) : Nat := 8 * 2 ^ g.wd
/-- The allotment S (R17). -/
def Group.allotment (g : Group) : Nat := g.allot.foldl (· + ·) 0
/-- Lanes 0 to W - 1. -/
def laneMask (w : Nat) : Mask := BitVec.ofNat 64 (2 ^ w - 1)
/-- The live threads (R219). -/
def Group.liveMask (g : Group) : Mask := g.frontier.foldl (fun m e => m ||| e.mask) 0

/-- Home slot and lane of the thread in a lane (R33): its own place where it has not been moved. -/
def homeOf (g : Group) (x l : Nat) : Nat × Nat :=
  let h := mget 0 g.home l
  if h = 0 then (x, l) else ((h - 1) / 64, (h - 1) % 64)

/-- The level of a context's code and whether it is the handler slot (R74). -/
def privOf (g : Group) (x : Nat) : Priv :=
  if x = firmwareCtx then ⟨3, false⟩ else if x = handlerCtx then ⟨2, true⟩ else ⟨if g.tlevel then 2 else 1, false⟩

/-- Interlocked mode (R71): by the launch, and always in the handler slot and the firmware slot. -/
def interlocked (g : Group) (x : Nat) : Bool := g.il || decide (handlerCtx ≤ x)

/-- A number for an asynchronous operation (log 2). -/
def nextSerial (s : State) : Nat × State := (s.serial, { s with serial := s.serial + 1 })

/-! ### Free values (R21, R69; log 5) -/

/-- Free values that one step may draw: field, context, register and lane choose one of them. -/
def freeStride : Nat := 2 ^ 30
def freeIndex (s : State) (field x r l : Nat) : Nat :=
  s.free * freeStride + ((field % 64 * 64 + x % 64) * 1024 + r % 1024) * 64 + l % 64
/-- The next step draws others. -/
def stepFree (s : State) : State := { s with free := s.free + 1 }
def freeWordAt (s : State) (field x r l : Nat) : Word := Config.freeWord (freeIndex s field x r l)
def freeBitAt (s : State) (field x r l : Nat) : Bool := Config.freeBit (freeIndex s field x r l)
def freeNatAt (s : State) (field x r l : Nat) : Nat := Config.freeNat (freeIndex s field x r l)

/-- A register value that the manual calls undefined: zero, or a value that a register of the same tenant has held
(R21). -/
def undefWord (s : State) (c field x r l : Nat) : Word :=
  let h := mget [] s.wrote (tenantOf s c x)
  (0 :: h).getD (freeNatAt s field x r l % (h.length + 1)) 0

/-- Values that registers of a tenant receive, for R21. -/
def remember (s : State) (t : Nat) (ws : List Word) : State :=
  { s with wrote := mset [] s.wrote t (ws.foldl (fun h w => if w == 0 || h.contains w then h else h ++ [w]) (mget [] s.wrote t)) }

/-! ### The frontier -/

def isParked (p : Park) : Bool := p != .none

/-- Whether a result has still to be written as cycle `t` sees it (R68): not yet due, or of variable latency. -/
def Pend.inFlight (p : Pend) (t : Nat) : Bool :=
  match p.due with
  | none => true
  | some d => decide (t < d)

/-- A result of variable duration (R220). -/
def Pend.variable (p : Pend) : Bool := p.due.isNone

/-- An entry is ready: neither parked nor waiting (R220). -/
def entryReady (e : Entry) : Bool := !isParked e.park && e.wait == .none

/-- LD, LDS, ATOM and ATOMS outstanding for the lanes of an entry (R219). -/
def outstandingOf (g : Group) (m : Mask) : Nat :=
  (g.loads.filter (fun r => r.lanes.any (fun l => m.getLsbD l.lane))).length

/-- `a` goes before `b` at a choice point (R221). -/
def entryBefore (g : Group) (a b : Entry) : Bool :=
  let oa := outstandingOf g a.mask
  let ob := outstandingOf g b.mask
  if a.prio ≠ b.prio then decide (b.prio < a.prio)
  else if oa ≠ ob then decide (oa < ob)
  else if a.pc ≠ b.pc then decide (a.pc.toNat < b.pc.toNat)
  else decide ((lowestLane a.mask).getD 64 < (lowestLane b.mask).getD 64)

def bestEntry (g : Group) : List Entry → Option Entry
  | [] => none
  | e :: es =>
    match bestEntry g es with
    | none => some e
    | some b => if entryBefore g b e then some b else some e

/-- A choice point (R221): no entry is the running one until the group has chosen afresh, which it does as soon as an entry
is ready, at the end of the same move or of a later one. -/
def choose (g : Group) : Group := { g with running := none }

/-- The choice (R221): the ready entry that goes first, an entry that issued YIELD only if no other is ready (R140); none
while no entry is ready. -/
def pickEntry (g : Group) : Group :=
  let ready := g.frontier.filter entryReady
  let rest := ready.filter (fun e => some e.pc ≠ g.yielded)
  match bestEntry g (if rest.isEmpty then ready else rest) with
  | none => { g with running := none }
  | some e => { g with running := some e.pc, yielded := none }

/-- The entry, not parked, that stands at an address. -/
def freeEntryAt (g : Group) (pc : Dword) : Option Entry :=
  g.frontier.find? (fun e => e.pc == pc && !isParked e.park)

/-- The running entry (R221). -/
def runningEntry (g : Group) : Option Entry :=
  match g.running with
  | none => none
  | some pc => freeEntryAt g pc

def updEntry (g : Group) (pc : Dword) (h : Entry → Entry) : Group :=
  { g with frontier := updFirst (fun e => e.pc == pc && !isParked e.park) h g.frontier }

/-- `enter` (R134), with the merge of R222: a merged entry waits for its lanes' results before it issues. -/
def enter (g : Group) (pc : Dword) (m : Mask) (prio notBefore : Nat) : Group :=
  if m = 0 then g
  else match freeEntryAt g pc with
    | some _ => updEntry g pc (fun e => { e with mask := e.mask ||| m, prio := max e.prio prio, settle := true,
                                                 notBefore := max e.notBefore notBefore, wait := .none })
    | none => { g with frontier := g.frontier ++ [{ pc := pc, mask := m, prio := prio, notBefore := notBefore }] }

/-- The frontier without the entry that issues: the one that is not parked at lane scope, the parked one at a wider
scope (R231). -/
def isIssuing (wide : Bool) (pc : Dword) (e : Entry) : Bool := e.pc == pc && isParked e.park == wide

def issuingEntry (g : Group) (wide : Bool) (pc : Dword) : Option Entry := g.frontier.find? (isIssuing wide pc)

def dropIssuing (g : Group) (wide : Bool) (pc : Dword) : Group :=
  match issuingEntry g wide pc with
  | none => g
  | some e => { g with frontier := g.frontier.erase e }

/-- The issuing entry goes on at another address with its priority unchanged: it stays the running entry, unless it
merges with an entry that stands there (R222), which is a choice point. -/
def advance (g : Group) (wide : Bool) (pc next : Dword) (notBefore : Nat) : Group :=
  match issuingEntry g wide pc with
  | none => g
  | some e =>
    let g1 := dropIssuing g wide pc
    match freeEntryAt g1 next with
    | some _ => choose (enter g1 next e.mask e.prio notBefore)
    | none =>
      { g1 with frontier := g1.frontier ++ [{ e with pc := next, park := .none, wait := .none, settle := false,
                                                     notBefore := notBefore }],
                running := some next }

/-- The running entry becomes waiting: a choice point (R220, R221). -/
def waitEntry (g : Group) (pc : Dword) (w : Wait) : Group := choose (updEntry g pc (fun e => { e with wait := w }))

/-! ### Groups that act together -/

/-- A group in whose name an instruction issues: its slot, the lanes that have arrived or stand in the issuing entry,
and those that execute (R15). -/
structure Member where
  slot   : Nat
  active : Mask
  exec   : Mask
deriving DecidableEq, Repr

abbrev Members := List Member

def slotsOf (k : Core) : List Nat := (k.groups.filter (fun g => g.2.live && decide (g.1 < handlerCtx))).map (·.1)

/-- The members of a rendezvous (R229, R66). The handler's and the firmware's context are in no block and no set (log 18, DEDUCED). -/
def membersAt (k : Core) (x : Nat) (sc : Scope) (byRole : Bool) : List Nat :=
  let g := k.group x
  match sc with
  | .lane => [x]
  | .group => [x]
  | .set => match g.setId with
    | none => [x]
    | some id => (slotsOf k).filter (fun y => (k.group y).block == g.block && (k.group y).setId == some id)
  | .block =>
    if handlerCtx ≤ x then [x]
    else (slotsOf k).filter (fun y => (k.group y).block == g.block && (!byRole || (k.group y).role == g.role))

/-- Members of the issuing group's set, in set order (R19). -/
def setMembers (k : Core) (x : Nat) : List Nat :=
  match (k.group x).setId with
  | none => []
  | some _ => membersAt k x .set false

/-- Every live thread of every member has arrived at the rendezvous at `pc` (R231), and no member is stopped (R238). -/
def rdvComplete (k : Core) (ms : List Nat) (pc : Dword) (p : Park) : Bool :=
  ms.all (fun y => decide ((k.group y).stop = .run) &&
    (k.group y).frontier.all (fun e => e.pc == pc && e.park == p)) &&
  ms.any (fun y => (k.group y).frontier.any (fun e => e.park == p))

/-! ### Registers and results in flight -/

/-- The key of a register of a lane. -/
def cellKey (r l : Nat) : Nat := r * 64 + l

def regAt (g : Group) (r l : Nat) : Word := mget 0 g.regs (cellKey r l)
/-- A cell is written; an error that had struck it is gone (R395). -/
def putCell (g : Group) (key : Nat) (v : Word) : Group :=
  { g with regs := mset 0 g.regs key v, bad := g.bad.filter (fun q => q != key) }
def setReg (g : Group) (r l : Nat) (v : Word) : Group := putCell g (cellKey r l) v

/-- A write to a register clears the latches that hold it (R23); a completion word that stood there is gone. -/
def clearLatch (g : Group) (rs : List Nat) : Group :=
  let keeps := fun (b : Nat × Nat) => rs.all (fun r => decide (r < b.1) || decide (b.1 + b.2 ≤ r))
  { g with latchA := g.latchA.filter keeps, latchB := g.latchB.filter keeps,
           dones := g.dones.filter (fun q => !rs.contains q.1) }

/-- A group has read the completed handles in some registers: the copies' writes happen before what it does next (R274). -/
def learnDones (rs : List (Nat × Nat)) (g : Group) : Group :=
  if g.dones.isEmpty then g
  else
    let got := g.dones.filter (fun q => rs.any (fun b => decide (b.1 ≤ q.1) && decide (q.1 < b.1 + b.2)))
    { g with seen := got.foldl (fun m q => mset 0 m (copyWriter q.2) q.2) g.seen
             dones := g.dones.filter (fun q => !got.contains q) }

/-- The registers written since the last OPRDY (R181). -/
def markDirty (g : Group) (rs : List Nat) : Group :=
  { g with dirty := rs.foldl (fun d r => if d.contains r then d else d ++ [r]) g.dirty }

/-- Runs of registers of a group that a pending matrix instruction uses (R183): operation, base, length, and whether
the run is the accumulator run with its hold half. -/
def mxRunsOf (s : State) (c x : Nat) : List (Nat × Nat × Nat × Bool) :=
  s.mxOps.flatMap (fun o =>
    if o.members.any (fun m => m.core == c && m.ctx == x) then
      [(o.id, o.f.a.toNat, mxARun o.op, false), (o.id, o.f.c.toNat, mxAccLen o.op o.f.imm, true)] ++
        (if o.op = 0x2C0 then [(o.id, o.f.b.toNat, 8, false)] else [])
    else [])

def inRun (r : Nat) (q : Nat × Nat × Nat × Bool) : Bool := decide (q.2.1 ≤ r) && decide (r < q.2.1 + q.2.2.1)

/-- A write to a register of a pending matrix instruction spoils its results (R183). -/
def spoilRuns (s : State) (c x : Nat) (rs : List Nat) : State :=
  let hit := ((mxRunsOf s c x).filter (fun q => rs.any (fun r => inRun r q))).map (·.1)
  if hit.isEmpty then s
  else { s with mxOps := s.mxOps.map (fun o => if hit.contains o.id then { o with spoil := true } else o) }

/-- A value written to a register of a pending matrix instruction leaves it undefined (R183). -/
def keptValue (s : State) (c x r l : Nat) (v : Word) : Word :=
  if (mxRunsOf s c x).any (inRun r) then undefWord s c 0 x r l else v

def Pend.touches (p : Pend) (r l : Nat) : Bool := p.lanes.getLsbD l && p.regs.contains r

/-- Two writes to one register in flight together (R69): which of them the register keeps is open. The cells that the
new write wins are those of `old` it makes skip (log 6, DEDUCED). -/
def raceSkip (s : State) (x t : Nat) (old : Pend) (new : Pend) : Pend × Pend :=
  if !old.inFlight t then (old, new)
  else
    let both := (new.regs.filter (fun r => old.regs.contains r)).flatMap
      (fun r => (lanesOf (new.lanes &&& old.lanes)).map (fun l => (r, l)))
    let win := both.filter (fun q => freeBitAt s 1 x q.1 q.2)
    let lose := both.filter (fun q => !freeBitAt s 1 x q.1 q.2)
    ({ old with skip := old.skip ++ win.map (fun q => cellKey q.1 q.2) },
     { new with skip := new.skip ++ lose.map (fun q => cellKey q.1 q.2) })

def racePends (s : State) (x t : Nat) : List Pend → Pend → List Pend
  | [], new => [new]
  | p :: ps, new => let q := raceSkip s x t p new; q.1 :: racePends s x t ps q.2

/-- The cells of a result are written, but for those another write wins. -/
def landCells (g : Group) (p : Pend) : Group :=
  p.cells.foldl (fun g q => if p.skip.contains q.1 then g else putCell g q.1 q.2)
    (clearLatch g p.regs)

/-- A result lands: its cells are written, its exceptions folded into k.fpflags (R27), and it is in flight no more. -/
def landPend (g : Group) (p : Pend) : Group :=
  let g1 := landCells { g with pend := g.pend.filter (fun q => q.id != p.id) } p
  { g1 with fpflags := g1.fpflags ||| p.exc.setWidth 32 }

/-- Results that readers see already are written before another write goes out (R68). -/
def landDue (t : Nat) (g : Group) : Group :=
  g.pend.foldl (fun g p => if p.ready && !p.inFlight t && p.held.isNone then landPend g p else g) g

/-- A result goes into flight. In interlocked mode no earlier write to its registers is in flight (R71). -/
def postPend (s : State) (c x : Nat) (p : Pend) : State :=
  let s1 := remember (spoilRuns s c x p.regs) (tenantOf s c x) (p.cells.map (·.2))
  let p1 := { p with cells := p.cells.map (fun q => (q.1, keptValue s c x (q.1 / 64) (q.1 % 64) q.2)) }
  updGroup s1 c x (fun g =>
    let g1 := landDue (now s c) g
    markDirty { g1 with pend := racePends s x (now s c) g1.pend p1 } p.regs)

/-- A write that is readable at once, of cells (register, lane, value): a result in flight to a cell may win (R69). -/
def putCells (s : State) (c x : Nat) (cells : List (Nat × Nat × Word)) : State :=
  let rs := cells.map (·.1)
  updGroup (remember (spoilRuns s c x rs) (tenantOf s c x) (cells.map (·.2.2))) c x (fun g =>
    let g0 := landDue (now s c) g
    let g1 := cells.foldl (fun g q => setReg g q.1 q.2.1 (keptValue s c x q.1 q.2.1 q.2.2)) (clearLatch g0 rs)
    { g1 with pend := g1.pend.map (fun p =>
      { p with skip := p.skip ++ ((cells.filter (fun q => p.touches q.1 q.2.1 &&
          (!p.inFlight (now s c) || freeBitAt s 2 x q.1 q.2.1))).map (fun q => cellKey q.1 q.2.1)) }) })

/-- The same of a write that an OPRDY has to hand over (R181). -/
def writeCells (s : State) (c x : Nat) (cells : List (Nat × Nat × Word)) : State :=
  updGroup (putCells s c x cells) c x (fun g => markDirty g (cells.map (·.1)))

/-- An engine's write of one word to all lanes of a register (R192). -/
def writeAllLanes (s : State) (c x r : Nat) (v : Word) : State :=
  if r = vnull then s
  else writeCells s c x ((List.range (getGroup s c x).width).map (fun l => (r, l, v)))

/-- What a read of a register of a lane gives (R69, R183): the value written, or where results are in flight any of
the value before and the values after them; nothing defined while a matrix instruction uses the register (log 6, DEDUCED), or
where an error has struck it and the read is not one that raises XM (log 23).
The value after a load is among them once the load has it for the lane, and for that register of a pair or run. -/
def readCell (s : State) (c x field r l : Nat) : Word :=
  if r = vnull then 0
  else
    let g := getGroup s c x
    let t := now s c
    if (mxRunsOf s c x).any (inRun r) || g.bad.contains (cellKey r l) then undefWord s c (field + 16) x r l
    else
      let hits := g.pend.filter (fun p => p.touches r l)
      let base := (hits.filter (fun p => !p.inFlight t && !p.skip.contains (cellKey r l))).foldl
        (fun v p => mget v p.cells (cellKey r l)) (regAt g r l)
      let open' := (hits.filter (fun p => p.inFlight t)).map (fun p => mget base p.cells (cellKey r l))
      if open'.isEmpty then base
      else (base :: open').getD (freeNatAt s field x r l % (open'.length + 1)) base

/-! ### Taking a trap and returning from one -/

/-- A trap as the instruction or unit that raises it gives it: class, information, address of R280, address of the
instruction, the groups it suspends, the group whose instruction raised it, and the replay entries of the trapping
instruction and of those not yet re-injected (R279, R285, R287). -/
structure TrapReq where
  cls    : Nat
  info   : Word
  addr   : Dword := 0
  pc     : Dword
  slots  : List Nat
  origin : Nat
  replay : List (Nat × Replay) := []
  masks  : List (Nat × Mask) := []
deriving DecidableEq, Repr

/-- Class codes (R279). -/
def clsIE : Nat := 1
def clsRB : Nat := 2
def clsSM : Nat := 3
def clsTM : Nat := 4
def clsTP : Nat := 5
def clsOV : Nat := 6
def clsAL : Nat := 7
def clsHX : Nat := 8
def clsXM : Nat := 9
def clsSW : Nat := 10
def clsBK : Nat := 11

/-- A group stops issuing (R281 step 1); one already stopped stays stopped by its earlier trap. -/
def stopGroup (id : Nat) (g : Group) : Group :=
  { g with stop := if g.stop = .run ∨ g.stop = .held then .trap id else g.stop, running := none }

def updSlots (k : Core) (xs : List Nat) (h : Group → Group) : Core :=
  xs.foldl (fun k x => k.withGroup x (h (k.group x))) k

/-- A context whose threads have all ended: its queue goes on draining. -/
def endContext (g : Group) : Group := { g with live := false, frontier := [], running := none, yielded := none }

/-- A fault in the handler (R279, R288): the handler's threads end, and the frame that it handled goes to the firmware slot
with its members still stopped, and with it every other part of its suspension (R282) (log 14, DEDUCED). -/
def handlerFault (k : Core) : Core :=
  let k1 := k.withGroup handlerCtx (endContext (k.group handlerCtx))
  match k.curH with
  | none => k1
  | some fr =>
    { k1 with
      curH := none
      framesH := k.framesH.filter (fun p => p.id != fr.id)
      framesF := k.framesF ++ fr :: k.framesH.filter (fun p => p.id == fr.id)
      partsH := k.partsH.filter (fun p => p.id != fr.id)
      partsF := k.partsF ++ k.partsH.filter (fun p => p.id == fr.id) }

/-- Raising a trap: step 1 of R281 for every group it suspends. TRAP_TAKE does the rest. A trap of the handler slot itself is
a fault in the handler. -/
def raiseTrap (s : State) (c : Nat) (t : TrapReq) : State :=
  let id := s.serial
  if t.slots.contains handlerCtx then updCore { s with serial := id + 1 } c handlerFault
  else updCore { s with serial := id + 1 } c (fun k =>
    let k1 := updSlots k t.slots (stopGroup id)
    { k1 with raised := k1.raised ++ [{ id := id, cls := t.cls, info := t.info, addr := t.addr, pc := t.pc,
                                        slots := t.slots, origin := t.origin, replay := t.replay, masks := t.masks }] })

/-- The words of an instruction that an entry of the replay queue holds (R286). -/
def replayOf (kind : Nat) (i : Instr) (f : Fields) (pc : Dword) (x : Mask) (words : SMap Word) (share : Nat)
    (member : List Nat) : Replay :=
  let w := encodeFields ((opcodeOf i).getD 0) f
  { kind := kind, i := i, word1 := w.extractLsb' 0 64, word2 := w.extractLsb' 64 32, imm := f.imm, scope := f.scope,
    x := x, words := words, share := share, member := member, pc := pc }

/-- Words 6 to 13 of a lane, as numbered in Replay.words. -/
def laneWord (l w : Nat) : Nat := l * 8 + (w - 6)
def putWord (m : SMap Word) (l w : Nat) (v : Word) : SMap Word := mset 0 m (laneWord l w) v
def putWord64 (m : SMap Word) (l w : Nat) (v : Dword) : SMap Word :=
  putWord (putWord m l w (v.setWidth 32)) l (w + 1) ((v >>> 32).setWidth 32)

/-- One access of each lane of a load: its lower half where it has two. -/
def LoadRec.bases (r : LoadRec) : List LdLane := r.lanes.filter (fun l => !l.half)

/-- KIND 001 (R285): an LD whose data had not all returned. -/
def loadReplay (r : LoadRec) : Replay :=
  { replayOf 1 (.ld r.f) r.f r.pc (maskOf (r.bases.map (·.lane)))
      (r.bases.foldl (fun m l => putWord64 m l.lane 6 l.va) []) r.share r.member with id := r.id }

def mxInstr (o : MxOp) : Instr :=
  if o.op = 0x2C0 then .mma o.f else if o.op = 0x2C1 then .mmas o.f else .mmat o.f

/-- KIND 010 (R285, R286): a matrix instruction with no pass started; the tile address of octet q stands in lane 8q. -/
def mxReplay (o : MxOp) (m : MxMember) : Replay :=
  { replayOf 2 (mxInstr o) o.f o.pc m.exec
      ((m.octets.zip m.sas).foldl (fun ws q => putWord64 ws (8 * q.1) 6 (q.2.setWidth 64)) []) o.id
      (o.members.map (·.ctx)) with id := o.id, xv := m.xv }

/-- The unfinished instructions of a member in program order (R285), the trap's own entries last; a matrix instruction
that a failed re-injection carries over stands among those. -/
def replayQueue (s : State) (c x : Nat) (own : List (Nat × Replay)) : List Replay :=
  let g := getGroup s c x
  let lds := (g.loads.filter (fun r => r.kind == .ld)).map (fun r => (r.id, loadReplay r))
  let mxs := (s.mxOps.filter (fun o => !o.started && own.all (fun q => q.2.share != o.id))).flatMap (fun o =>
    (o.members.filter (fun m => m.core == c && m.ctx == x)).map (fun m => (o.id, mxReplay o m)))
  let ordered := sortNat (·.1) (lds ++ mxs)
  ordered.map (·.2) ++ (own.filter (fun q => q.1 == x)).map (·.2)

/-- One lane of a frame: what its entry of the frontier gives (R283). A wait in SETJOIN, GROW or a control-register
write is recorded as ordinary: the instruction issues again. -/
def frameLane (g : Group) (l : Nat) : FLane :=
  match g.frontier.find? (fun e => e.mask.getLsbD l) with
  | none => {}
  | some e =>
    match e.park with
    | .rdv sc id br => { state := 2, prio := e.prio, pc := e.pc, park := .rdv sc id br }
    | .trapped sc => { state := 2, prio := e.prio, pc := e.pc, park := .trapped sc }
    | _ => { state := 1, prio := e.prio, pc := e.pc }

def frameMember (s : State) (c x : Nat) (own : List (Nat × Replay)) (masks : List (Nat × Mask)) : FMember :=
  let g := getGroup s c x
  { slot := x, lanes := (List.range g.width).map (frameLane g), entries := replayQueue s c x own,
    mask := ((masks.find? (fun q => q.1 == x)).map (·.2)).getD 0 }

/-- Members of a suspension in parts of at most sixteen (R282). -/
def partsOf (ms : List FMember) : Nat → List (List FMember)
  | 0 => []
  | n + 1 => if ms.isEmpty then [] else ms.take 16 :: partsOf (ms.drop 16) n

/-- The slot a frame goes to (R279): firmware for OV and XM, for a trap of the firmware slot, and when t.handler.EN = 0. -/
def toFirmware (k : Core) (r : Raised) : Bool :=
  r.cls == clsOV || r.cls == clsXM || r.slots.any (fun x => decide (handlerCtx ≤ x)) || !k.tHandler.getLsbD 0

/-- A group whose trap is taken stands in SETJOIN no more: its frame resumes it there (R143). -/
def leaveJoin (g : Group) : Group :=
  { g with frontier := g.frontier.map (fun e => match e.park with | .join _ _ => { e with park := .none } | _ => e) }

/-- R281 step 2 for one group: results are written, and those of LD are discarded with the load, which stands in the replay
queue from now on (R285). Acquires in progress go on (R163). -/
def settleGroup (g : Group) : Group :=
  let lds := (g.loads.filter (fun r => r.kind == .ld)).map (·.id)
  let g1 := { g with pend := g.pend.filter (fun p => !lds.contains p.id) }
  (g1.pend.filter (·.ready)).foldl landPend
    { leaveJoin g1 with loads := g1.loads.filter (fun r => r.kind != .ld), replays := g1.replays ++ lds, latchA := none,
                        latchB := none }

/-- Whether step 2 of R281 is over for a group but for its arithmetic: no LDS, ATOM or ATOMS is outstanding. -/
def drained (g : Group) : Bool := g.loads.all (fun r => r.kind == .ld)

/-- A raised trap may be taken: every group it suspends is stopped by it and has drained. -/
def takeReady (k : Core) (r : Raised) : Bool :=
  r.slots.all (fun x => decide ((k.group x).stop = .trap r.id) && drained (k.group x))

/-- Lanes held for a result are ordinary again at the next instruction (R28). -/
def freeHeld (next : Dword) (g : Group) : Group :=
  (g.frontier.filter (fun e => e.park == .hold && e.pc == next)).foldl
    (fun g e => (if (freeEntryAt g next).isSome then choose else id)
      (enter { g with frontier := g.frontier.erase e } e.pc e.mask e.prio e.notBefore)) g

/-- A result is written, and the lanes that wait for it go on. -/
def landResult (g : Group) (p : Pend) : Group :=
  match p.frees with
  | none => landPend g p
  | some next => freeHeld next (landPend g p)

/-- The issues whose results are written when a group is settled: all members' are written together (R105). -/
def settledShares (g : Group) : List Nat :=
  ((g.pend.filter (fun p => p.ready && p.share != 0)).map (·.share)).eraseDups

def sharedPends (shares : List Nat) (g : Group) : List Pend := g.pend.filter (fun p => p.ready && shares.contains p.share)

/-- The results of such issues are written in a group that is not itself settled. -/
def landShared (shares : List Nat) (g : Group) : Group := (sharedPends shares g).foldl landResult g

/-- The traps of results that land while their group is being stopped (R28): raised behind the trap being taken. -/
def heldTraps (ps : List Pend) : List Held := (ps.filter (·.ready)).filterMap (·.held)

def swReq (h : Held) (x : Nat) : TrapReq :=
  { cls := clsSW, info := 0x80000000 ||| h.exc.setWidth 32, pc := h.pc, slots := h.slots, origin := x }

/-- Matrix instructions with no pass started that have a member among some groups of a core: they are withdrawn, and no
member of them, stopped or not, issues until they have completed (R185). -/
def withdrawnBy (s : State) (c : Nat) (xs : List Nat) : List MxOp :=
  s.mxOps.filter (fun o => !o.started && !o.withdrawn && o.members.any (fun m => m.core == c && xs.contains m.ctx))

/-- Requests without the octets of withdrawn instructions: priority and age are those of the octets that are left (R186). -/
def dropParts (gone : List Nat) (qs : List MxReq) : List MxReq :=
  (qs.map (fun q => { q with parts := q.parts.filter (fun p => !gone.contains p.op) })).filter (fun q => !q.parts.isEmpty)

def withdrawOps (s : State) (os : List MxOp) : State :=
  let gone := os.map (·.id)
  let s1 := { s with mxOps := s.mxOps.map (fun o => if gone.contains o.id then { o with withdrawn := true } else o)
                     mxReqs := dropParts gone s.mxReqs }
  os.foldl (fun s o => o.members.foldl (fun s m => updGroup s m.core m.ctx (fun g =>
    { g with rewait := if g.rewait.contains o.id then g.rewait else g.rewait ++ [o.id] })) s) s1

/-- Taking a trap, steps 2 to 5 of R281, in one step: results written, with those of one issue in every member (R105), replay entries formed, matrix requests withdrawn
(R185), latches cleared, one frame for each sixteen groups queued; a part that does not hold the trapping member has ORIGIN 0 (log 19, DEDUCED). -/
def takeTrap (s : State) (c : Nat) (r : Raised) : State :=
  let k := getCore s c
  let xs := r.slots
  let ms := xs.map (fun x => frameMember s c x r.replay r.masks)
  let parts := partsOf ms (ms.length + 1)
  let origin := xs.idxOf r.origin
  let frames := parts.zipIdx.map (fun q =>
    ({ id := r.id, cls := r.cls, info := r.info, addr := r.addr, pc := r.pc,
       origin := if origin / 16 = q.2 then origin % 16 else 0, part := q.2,
       parts := parts.length, members := q.1 } : Frame))
  let shares := xs.flatMap (fun x => settledShares (k.group x))
  let others := (k.groups.map (·.1)).filter (fun y => !xs.contains y && !(sharedPends shares (k.group y)).isEmpty)
  let held := xs.flatMap (fun x => (heldTraps (k.group x).pend).map (fun h => swReq h x)) ++
    others.flatMap (fun y => (heldTraps (sharedPends shares (k.group y))).map (fun h => swReq h y))
  let s1 := withdrawOps s (withdrawnBy s c xs)
  let s2 := updCore s1 c (fun k =>
    let k1 := updSlots (updSlots k others (landShared shares)) xs settleGroup
    let k2 := { k1 with raised := k1.raised.filter (fun q => q.id != r.id),
                        growq := k1.growq.filter (fun q => !xs.contains q.ctx),
                        csrPend := k1.csrPend.filter (fun q => !xs.contains q.ctx) }
    if toFirmware k r then { k2 with framesF := k2.framesF ++ frames } else { k2 with framesH := k2.framesH ++ frames })
  held.foldl (fun s t => raiseTrap s c t) s2

/-- Lanes of a frame with equal PC and state form one entry with the highest priority among them (R287). Their next
instruction waits for results as for SW = 1 (R72). -/
def addLane (es : List Entry) (l : Nat) (q : FLane) : List Entry :=
  if q.state = 0 then es
  else if es.any (fun e => e.pc == q.pc && e.park == q.park) then
    updFirst (fun e => e.pc == q.pc && e.park == q.park)
      (fun e => { e with mask := e.mask ||| (1#64 <<< l), prio := max e.prio q.prio }) es
  else es ++ [{ pc := q.pc, mask := 1#64 <<< l, prio := q.prio, park := q.park, settle := true }]

def lanesToFrontier (ls : List FLane) : List Entry := ls.zipIdx.foldl (fun es q => addLane es q.2 q.1) []

/-- The next trap, already raised, that keeps a group stopped when a frame is resumed. -/
def nextStop (k : Core) (x : Nat) : Stop :=
  match k.raised.find? (fun r => r.slots.contains x) with
  | some r => .trap r.id
  | none => .run

/-- A member goes on from its frame: its frontier as edited (R287 steps 1 and 3). -/
def resumeMember (k : Core) (m : FMember) : Core :=
  let g := k.group m.slot
  k.withGroup m.slot { g with frontier := lanesToFrontier m.lanes, stop := nextStop k m.slot, running := none,
                              rewait := g.rewait ++ ((m.entries.filter (fun e => e.kind == 2)).map (·.share)).filter
                                (fun i => !g.rewait.contains i) }

/-- Return from a trap: every member of every part is resumed (R282, R287). The entries are re-injected beside it. -/
def resumeFrames (s : State) (c : Nat) (parts : List Frame) : State :=
  updCore s c (fun k => (parts.flatMap (·.members)).foldl resumeMember k)

end Sys2Proof.Machine
end

