-- ==== Sys2Proof/Machine/Operands.lean ====
section
/-! DEFINITION. Operands: register fields of a lane, pairs and runs (R13, R14), the predicate (R15), PERM (R63), scalar
operands (R191), the element order of wider scopes (R19, R104), and the results of per-lane instructions. -/

namespace Sys2Proof.Machine
open Sys2Proof

/-- Which field a register is read for; it tells free values of one step apart. -/
def fldA : Nat := 3
def fldB : Nat := 4
def fldC : Nat := 5
def fldP : Nat := 6
def fldD : Nat := 7

/-- A register field of a lane; 1023 reads zero (R13). -/
def readReg (s : State) (c x field : Nat) (r : BitVec 10) (l : Nat) : Word := readCell s c x field r.toNat l

/-- Register `r + k` of a run from base `r` (R14). From the base 1023 a pair reads zero (R14), and so, by the model's choice,
does a longer run (log 80, DESIGN CHOICE). -/
def readRun (s : State) (c x field : Nat) (r : BitVec 10) (k l : Nat) : Word :=
  if r.toNat = vnull then 0 else readCell s c x field (r.toNat + k) l

/-- The pair from base `r`: the low half in the lower register (R14). -/
def readPair (s : State) (c x field : Nat) (r : BitVec 10) (l : Nat) : Dword :=
  readRun s c x field r 1 l ++ readRun s c x field r 0 l

/-- The predicate of a lane (R15). -/
def predHolds (s : State) (c x : Nat) (f : Fields) (l : Nat) : Bool :=
  if f.p.toNat = vnull then true else (readReg s c x fldP f.p l != 0) != f.pn

/-- The lanes of `m` that execute (R15). -/
def execMask (s : State) (c x : Nat) (f : Fields) (m : Mask) : Mask :=
  if f.p.toNat = vnull then m else maskOf ((lanesOf m).filter (predHolds s c x f))

/-- `permsrc` of R63 for segments of at most `w` lanes: the lane whose register lane `l` reads. -/
def permLane (cls z d w l : Nat) : Nat :=
  let s := min (2 ^ z) w
  let d' := d % s
  let b := l - l % s
  if cls = 1 then b + (l - b + d') % s
  else if cls = 2 then b + ((l - b) ^^^ d')
  else b + d'

/-- The lane that lane `l` reads source A (`tb = false`) or B (`tb = true`) from, after the PERM field (R63). -/
def srcLane (f : Fields) (w : Nat) (tb : Bool) (l : Nat) : Nat :=
  if permClass f.perm = 0 || permTargetB f.perm != tb then l
  else permLane (permClass f.perm) (permSeg f.perm) (permDist f.perm) w l

def widthOf (s : State) (c x : Nat) : Nat := (getGroup s c x).width

/-- Sources A, B and C of a lane, A and B after PERM. -/
def opA (s : State) (c x : Nat) (f : Fields) (l : Nat) : Word :=
  readReg s c x fldA f.a (srcLane f (widthOf s c x) false l)
def opB (s : State) (c x : Nat) (f : Fields) (l : Nat) : Word :=
  readReg s c x fldB f.b (srcLane f (widthOf s c x) true l)
def opC (s : State) (c x : Nat) (f : Fields) (l : Nat) : Word := readReg s c x fldC f.c l
def pairA (s : State) (c x : Nat) (f : Fields) (l : Nat) : Dword :=
  readPair s c x fldA f.a (srcLane f (widthOf s c x) false l)
def pairB (s : State) (c x : Nat) (f : Fields) (l : Nat) : Dword :=
  readPair s c x fldB f.b (srcLane f (widthOf s c x) true l)
def pairC (s : State) (c x : Nat) (f : Fields) (l : Nat) : Dword := readPair s c x fldC f.c l
def runA (s : State) (c x : Nat) (f : Fields) (k l : Nat) : Word := readRun s c x fldA f.a k l
def runC (s : State) (c x : Nat) (f : Fields) (k l : Nat) : Word := readRun s c x fldC f.c k l

/-- The two halves of a 64-bit result. -/
def lo32 (v : Dword) : Word := v.setWidth 32
def hi32 (v : Dword) : Word := (v >>> 32).setWidth 32
def pairWords (v : Dword) : List Word := [lo32 v, hi32 v]

/-- Registers base to base + n - 1 of a destination; none where it is 1023 (R13; for a run longer than a pair log 80,
DESIGN CHOICE). -/
def destRegs (d : BitVec 10) (n : Nat) : List Nat :=
  if d.toNat = vnull then [] else (List.range n).map (d.toNat + ·)

/-- The cells of `n` registers from `d` for the lanes of `ls`, `val k l` the value of the k-th register of lane l. -/
def cellsOf (d : BitVec 10) (n : Nat) (ls : List Nat) (val : Nat → Nat → Word) : List (Nat × Word) :=
  if d.toNat = vnull then []
  else (List.range n).flatMap (fun k => ls.map (fun l => (cellKey (d.toNat + k) l, val k l)))

/-- The results of an instruction in the lanes of a member that execute. -/
def resultPend (s : State) (c : Nat) (f : Fields) (m : Member) (id : Nat) (lat : Option Nat) (n : Nat)
    (val : Nat → List Word) : Pend :=
  let res := (lanesOf m.exec).map (fun l => (l, val l))
  { id := id, lanes := m.exec, regs := destRegs f.d n,
    cells := if f.d.toNat = vnull then [] else
      (List.range n).flatMap (fun k => res.map (fun q => (cellKey (f.d.toNat + k) q.1, q.2.getD k 0))),
    due := lat.map (now s c + ·) }

/-- Results of `n` registers from D go into flight for every member, each lane's from that lane's operands, as results of one
issue, which are written together (R105). Nothing is posted where no lane executes or D is 1023. -/
def postResults (s : State) (c : Nat) (f : Fields) (ms : Members) (lat : Option Nat) (n : Nat)
    (val : State → Nat → Nat → List Word) : State :=
  ms.foldl (fun t m =>
    if m.exec = 0 || f.d.toNat == vnull then t
    else
      let id := t.serial
      postPend { t with serial := id + 1 } c m.slot { resultPend s c f m id lat n (val s m.slot) with share := s.serial }) s

/-- A scalar operand: the lowest-numbered executing lane gives it (R191). -/
def scalarLane (ms : Members) : Option (Nat × Nat) :=
  match ms with
  | [] => none
  | m :: rest => match lowestLane m.exec with
    | some l => some (m.slot, l)
    | none => scalarLane rest

/-- An element of a wider scope (R104): member slot, lane, and whether it executes. -/
structure Elem where
  slot : Nat
  lane : Nat
  exec : Bool
deriving DecidableEq, Repr

/-- The elements in order: ascending slot, then ascending lane (R19, R104). -/
def elemsOf (s : State) (c : Nat) (ms : Members) : List Elem :=
  ms.flatMap (fun m => (List.range (widthOf s c m.slot)).map (fun l => ⟨m.slot, l, m.exec.getLsbD l⟩))

/-- Results per element: `val e` is the words of element number e, written to the executing elements. -/
def postElems (s : State) (c : Nat) (f : Fields) (ms : Members) (lat : Option Nat) (n : Nat)
    (val : Nat → List Word) : State :=
  let base := ms.foldl (fun (acc : List (Nat × Nat) × Nat) m =>
    (acc.1 ++ [(m.slot, acc.2)], acc.2 + widthOf s c m.slot)) ([], 0)
  postResults s c f ms lat n (fun _ x l =>
    val (((base.1.find? (fun q => q.1 == x)).map (·.2)).getD 0 + l))

end Sys2Proof.Machine
end

