-- ==== Sys2Proof/Machine/Flags.lean ====
section
/-! DEFINITION. k.fpflags (R26 to R28): folding, RW1C writes and the trap of an enabled exception; k.gstat (R29); the
matrix sticky flags (R190). -/

namespace Sys2Proof.Machine
open Sys2Proof

/-- The exceptions of `e` whose trap bit is set in k.fpflags (R26). -/
def enabledExc (flags : Word) (e : BitVec 5) : BitVec 5 := e &&& flags.extractLsb' 8 5

/-- A write to k.fpflags: trap bits are written, a 1 clears a flag, the rest stays zero (R26). -/
def writeFpflags (old v : Word) : Word :=
  (v &&& 0x1F00) ||| (old &&& 0x1F &&& ~~~ v)

/-- Whether a live thread of a group is away from its home (R29 RG). -/
def awayFromHome (g : Group) : Bool :=
  g.home.any (fun q => g.liveMask.getLsbD q.1)

/-- k.gstat (R29). -/
def gstatOf (g : Group) : Word :=
  let setPart : Nat := match g.setId with
    | none => 0
    | some id => id % 16 * 2 ^ 20 + 2 ^ 19
  BitVec.ofNat 32 ((if g.tlevel then 2 ^ 28 else 0) + (if g.il then 2 ^ 27 else 0) + (if awayFromHome g then 2 ^ 26 else 0)
    + g.wd % 4 * 2 ^ 24 + setPart + g.role % 4 * 2 ^ 17 + g.handles.length % 32 * 2 ^ 12 + g.allotment % 1024)

/-- The exceptions a member raised, over its executing lanes (R27). -/
def orExc (es : List Exc) : Exc := es.foldl (· ||| ·) 0

/-- Results of a floating-point instruction (R27, R28): `val` gives the words and the exceptions of a lane. Where an
exception is raised whose trap bit is set, every member is held until the results have landed and then traps. -/
def fpPends (s : State) (c : Nat) (f : Fields) (ms : Members) (lat : Option Nat) (n : Nat)
    (val : State → Nat → Nat → List Word × Exc) : List (Member × Pend) :=
  ms.zipIdx.map (fun q =>
    let m := q.1
    let res := (lanesOf m.exec).map (fun l => (l, val s m.slot l))
    (m, { id := s.serial + q.2, lanes := m.exec, regs := destRegs f.d n,
          cells := if f.d.toNat = vnull then [] else
            (List.range n).flatMap (fun k => res.map (fun r => (cellKey (f.d.toNat + k) r.1, r.2.1.getD k 0))),
          due := lat.map (now s c + ·), exc := orExc (res.map (fun r => r.2.2)), fp := true, share := s.serial }))

/-- The exceptions raised and enabled among all members (R28). -/
def enabledOf (s : State) (c : Nat) (ps : List (Member × Pend)) : Exc :=
  orExc (ps.map (fun q => enabledExc (getGroup s c q.1.slot).fpflags q.2.exc))

/-- Posts floating-point results; the flag says that the members are held (R28). The first member with an enabled
exception carries the trap. -/
def postFp (s : State) (c : Nat) (pc next : Dword) (ms : Members) (ps : List (Member × Pend)) : State × Bool :=
  let en := enabledOf s c ps
  let carrier := (ps.find? (fun q => enabledExc (getGroup s c q.1.slot).fpflags q.2.exc != 0)).map (fun q => q.1.slot)
  let s1 := { s with serial := s.serial + ps.length }
  (ps.foldl (fun t q =>
      if q.1.exec = 0 || (q.2.cells.isEmpty && q.2.exc == 0) then t
      else postPend t c q.1.slot
        { q.2 with held := if en != 0 && carrier == some q.1.slot then some ⟨pc, next, ms.map (·.slot), en⟩ else none }) s1,
   en != 0)

end Sys2Proof.Machine
end

