-- ==== Sys2Proof/Machine/Memory.lean ====
section
/-! DEFINITION. Memory as programs reach it: ownership tags (R326), the L2 slices and DRAM behind them (R249, R258 to
R260), dirty trackers (R399), L1 (R254 to R258), scratchpads (R159, R251), translation (R261, R262, R329, R345), the
checks of R157 to R159, and acquires (R163). -/

namespace Sys2Proof.Machine
open Sys2Proof

/-! ### Tags -/

def frameOf (pa : Nat) : Nat := pa / 65536

/-- The tag that no tenant has. A resource on its way to another owner answers every check with it, so that every access of its
tenant raises OV (R338, R215), until its new tag is written (log 44, DEDUCED). -/
def fencedTag : Nat := 4095
def tagUnder (s : State) (kind res tag : Nat) : Nat := if s.fenced.contains (kind, res) then fencedTag else tag

/-- The tags that checks meet, by frame, bank, chunk and lane (R326). -/
def frameTagOf (s : State) (frame : Nat) : Nat := tagUnder s 2 frame (mget 0 s.frameTag frame)
def bankTagOf (s : State) (core bank : Nat) : Nat := tagUnder s 1 (core * 256 + bank) (mget 0 s.bankTag (core * 256 + bank))
def chunkTagOf (s : State) (die chunk : Nat) : Nat := tagUnder s 3 (die * 512 + chunk) (mget 0 s.chunkTag (die * 512 + chunk))
def laneTagOf (s : State) (lane : Nat) : Nat := tagUnder s 4 lane (mget 0 s.laneTag lane)

/-- DRAM (R248): the first 96 GiB of each of four 128 GiB windows. -/
def isDram (pa : Nat) : Bool := decide (pa < 0x8000000000) && decide (pa % 0x2000000000 < 0x1800000000)

/-- The home die of a DRAM byte (R249). -/
def homeDie (pa : Nat) : Nat := pa / 2 ^ 37 % 4

/-- Home die, slice and set of a line (R249), as one number. -/
def l2Place (line : Nat) : Nat :=
  let l := line % 2 ^ 29
  (line / 2 ^ 29 % 4 * 96 + (l + l / 96) % 96) * 2048 + l / 96 % 2048

/-! ### Replacement -/

/-- The way that a cache takes (R258), and what every way's value rises by first: the lowest free way, else the lowest
way with value 3, values rising until there is one. -/
def victim (ways : List Nat) (occ : List (Nat × Nat)) : Nat × Nat :=
  match ways.find? (fun w => !occ.any (fun o => o.1 == w)) with
  | some w => (w, 0)
  | none =>
    let top := occ.foldl (fun m o => max m o.2) 0
    (((occ.filter (fun o => o.2 == top)).foldl (fun m o => min m o.1) 1000), 3 - top)

/-- HINT (R65): the value at which L1 and L2 insert a line; none: no allocate. -/
def hintL1 (h : Nat) : Option Nat :=
  if h ≤ 3 then some h else if h = 5 ∨ h = 7 then some 3 else none
def hintL2 (h : Nat) : Option Nat :=
  if h ≤ 3 then some h else if h = 4 ∨ h = 7 then some 3 else none

/-! ### L2 and DRAM -/

def l2Find (s : State) (line : Nat) : Option L2Line := s.l2.find? (fun q => q.line == line)
def l2Upd (s : State) (line : Nat) (h : L2Line → L2Line) : State :=
  { s with l2 := updFirst (fun q => q.line == line) h s.l2 }

/-- The bytes of a line whose dirty bit is set. -/
def dirtyBytes (q : L2Line) : List Nat :=
  ((List.range 256).filter (fun i => q.dirty.getLsbD i)).map (fun i => q.line * 256 + i)

/-- A line's dirty bytes go to DRAM (R259). -/
def l2Clean (s : State) (q : L2Line) : State :=
  { l2Upd { s with dram := (dirtyBytes q).foldl (fun d a => writeByte d a 0) s.dram } q.line
      (fun q => { q with dirty := 0 }) with mem := s.mem }

/-- A line leaves L2: its dirty bytes are written to DRAM first. -/
def l2Evict (s : State) (q : L2Line) : State :=
  let s1 := l2Clean s q
  { s1 with l2 := s1.l2.filter (fun p => p.line != q.line) }

/-- A line leaves L2 without writeback: its locations are as DRAM holds them (R327). -/
def l2Drop (s : State) (q : L2Line) : State :=
  let back := (dirtyBytes q).foldl (fun (m : List Host.Cell × List Host.Cell) a =>
    (writeByte m.1 a (readByte m.2 a), writeByte m.2 a 0)) (s.mem, s.dram)
  { s with mem := back.1, dram := back.2, l2 := s.l2.filter (fun p => p.line != q.line) }

/-- A line of DRAM is allocated in its set at a re-reference value (R7, R258, R259). -/
def l2Alloc (s : State) (line ins : Nat) : State :=
  match l2Find s line, isDram (line * 256) with
  | some _, _ => s
  | none, false => s
  | none, true =>
    let here := s.l2.filter (fun q => l2Place q.line == l2Place line)
    let v := victim (List.range 16) (here.map (fun q => (q.way, q.rrpv)))
    let s1 := { s with l2 := s.l2.map (fun q =>
      if l2Place q.line == l2Place line then { q with rrpv := q.rrpv + v.2 } else q) }
    let s2 := match s1.l2.find? (fun q => l2Place q.line == l2Place line && q.way == v.1) with
      | some q => l2Evict s1 q
      | none => s1
    { s2 with l2 := s2.l2 ++ [{ line := line, way := v.1, rrpv := ins, secs := 0, dirty := 0 }] }

/-- A read of sector `sec` (physical address / 64) at its home (R258, R259): a hit sets the line's value to 0 unless the
access itself has allocated the line (`mine`), a missing sector is filled, and an absent line is allocated unless the
insertion says not to. -/
def l2Read (s : State) (sec : Nat) (ins : Option Nat) (mine : Bool) : State :=
  let line := sec / 4
  let fill := fun (q : L2Line) => { q with secs := q.secs ||| (1#4 <<< (sec % 4)) }
  match l2Find s line with
  | some _ => l2Upd s line (fun q => { fill q with rrpv := if mine then q.rrpv else 0 })
  | none =>
    match ins with
    | none => s
    | some v => l2Upd (l2Alloc s line v) line fill

/-- An access reads a sector at its home, once however many lanes touch it (R157, R160, R258) (log 84, DEDUCED). -/
def bringL2 (s : State) (b : Brought) (sec : Nat) (ins : Option Nat) (quiet : Bool) : State × Brought :=
  if b.secs.contains sec then (s, b)
  else
    (l2Read s sec ins (quiet || b.l2.contains (sec / 4)),
     { b with secs := sec :: b.secs,
              l2 := if (l2Find s (sec / 4)).isNone && ins.isSome then sec / 4 :: b.l2 else b.l2 })

/-- One byte written at its home: the stored value stays in DRAM behind a byte that was clean (R259). -/
def l2PutByte (s : State) (a : Nat) (v : Byte) : State :=
  match l2Find s (a / 256) with
  | none => { s with mem := writeByte s.mem a v }
  | some q =>
    let s1 := if q.dirty.getLsbD (a % 256) then s else { s with dram := writeByte s.dram a (readByte s.mem a) }
    { l2Upd s1 (a / 256) (fun q => { q with dirty := q.dirty ||| (1#256 <<< (a % 256)) }) with
      mem := writeByte s.mem a v }

def putBytes (s : State) (a : Nat) : List Byte → State
  | [] => s
  | b :: bs => putBytes (l2PutByte s a b) (a + 1) bs

/-- The lines that the bytes from `a` on touch. -/
def linesOf (a n : Nat) : List Nat := (List.range ((a + n + 255) / 256 - a / 256)).map (a / 256 + ·)
def sectorsOf (a n : Nat) : List Nat := (List.range ((a + n + 63) / 64 - a / 64)).map (a / 64 + ·)

/-- A write that covers a whole sector clears its poison mark (R260). -/
def clearPoison (s : State) (a n : Nat) : State :=
  { s with poison := s.poison.filter (fun q => !(decide (a ≤ q.1 * 64) && decide (q.1 * 64 + 64 ≤ a + n))) }

/-- The mark of one sector is cleared: the writes of one instruction have covered it (R260). -/
def unpoison (s : State) (sec : Nat) : State := { s with poison := merase s.poison sec }

/-- One tracker: a bit of its current buffer is set where its tenant is the tag of the frame written (R399). -/
def trackOne (tag bit : Nat) (s : State) (q : Nat × Tracker) : State :=
  let a := (if q.2.cur then q.2.buf1 else q.2.buf0) + bit / 8
  if q.2.en && q.2.tenant == tag then
    { s with mem := writeByte s.mem a (readByte s.mem a ||| (1#8 <<< (bit % 8))) }
  else s

/-- Every dirty tracker of the tenant whose tag a frame carries, until another is written (R250), gets the frame's bit
(R399). -/
def trackerBit (s : State) (frame : Nat) : State :=
  s.hub.trackers.foldl (trackOne (mget 0 s.frameTag frame) (frame / 2097152 % 4 * 1572864 + frame % 2097152)) s

/-- Frames that the bytes from `a` on touch. -/
def framesOf (a n : Nat) : List Nat := (List.range ((a + n + 65535) / 65536 - a / 65536)).map (a / 65536 + ·)

/-- A write acknowledged at the home of its bytes (R259, R269, R399): every kind of write to DRAM goes through it.
`ins` is the value at which L2 inserts a line; none: no allocate (R195) (log 71, DESIGN CHOICE). -/
def homeWrite (s : State) (a : Nat) (bs : List Byte) (ins : Option Nat) : State :=
  if bs.isEmpty then s
  else
    let s1 := match ins with
      | some v => (linesOf a bs.length).foldl (fun s l => l2Alloc s l v) s
      | none => s
    let s2 := { s1 with trails := trailWrite s1.trails false a bs.length [] false }
    (framesOf a bs.length).foldl trackerBit (clearPoison (putBytes s2 a bs) a bs.length)

/-- Whether a sector that the bytes touch is poisoned (R260) (log 23, DESIGN CHOICE). -/
def poisoned (s : State) (a n : Nat) : Bool := (sectorsOf a n).any (fun q => mget false s.poison q)

/-! ### Scratchpads -/

/-- The key of a scratchpad byte: target core and offset. -/
def spmKey (core off : Nat) : Nat := core * 327680 + off

/-- A scratchpad word that the bytes from `key` on cover is struck no more (R395). -/
def mendSpm (s : State) (key n : Nat) : State :=
  { s with badSpm := s.badSpm.filter (fun q => !(decide (key ≤ q.1 * 4) && decide (q.1 * 4 + 4 ≤ key + n))) }

/-- Whether an uncorrectable error has struck bytes of a scratchpad (R395). -/
def struckSpm (s : State) (key n : Nat) : Bool := s.badSpm.any (fun q => runsMeet (q.1 * 4) 4 key n)

/-- Bytes written to a scratchpad bank by a writer, as its write number `n`: it is their last writer (R181, R272). -/
def spmWrite (s : State) (w n key : Nat) (bs : List Byte) : State :=
  { mendSpm s key bs.length with
      spm := writeBytes s.spm key bs
      stamps := stampWrite s.stamps key bs.length w n
      trails := trailWrite s.trails true key bs.length [] false }

/-- Bytes of a B tile (R174). -/
def tileBytes (o : MxOp) : Nat := if o.op = 0x2C0 then 0 else 2048

/-- A write into the B tile of a pending matrix instruction spoils it (R183). -/
def spoilTiles (s : State) (key n : Nat) : State :=
  if s.mxOps.isEmpty then s
  else { s with mxOps := s.mxOps.map (fun o =>
    if o.members.any (fun m => m.tiles.any (fun t => runsMeet t (tileBytes o) key n))
    then { o with spoil := true } else o) }

/-- The checks of R159 on a scratchpad address of core `c`: the key of its first byte, or the class of the failure. -/
def checkSpm (s : State) (c tenant : Nat) (size : Nat) (sa : Word) : Except Nat Nat :=
  let off := (sa.extractLsb' 0 19).toNat
  let ci := (sa.extractLsb' 21 2).toNat
  let mate := sa.getLsbD 23
  let target := if mate then c / 4 * 4 + ci else c
  if sa.toNat % size ≠ 0 then .error clsAL
  else if sa.extractLsb' 24 8 ≠ 0 then .error clsTP
  else if !mate && ci != 0 then .error clsTP
  else if sa.extractLsb' 19 2 ≠ 0 then .error clsTP
  else if 8192 * (getCore s target).nspm ≤ off then .error clsTP
  else if bankTagOf s target (off / 8192) ≠ tenant then .error clsOV
  else .ok (spmKey target off)

/-! ### L1 -/

def l1Find (k : Core) (line : Nat) : Option L1Line := k.l1.find? (fun q => q.line == line)

/-- The 64 bytes of a valid sector as a number. -/
def l1Sector (k : Core) (sec : Nat) : Option Nat :=
  match l1Find k (sec / 4) with
  | none => none
  | some q => let v := mget 0 q.secs (sec % 4); if v = 0 then none else some (v - 1)

def l1Upd (k : Core) (line : Nat) (h : L1Line → L1Line) : Core :=
  { k with l1 := updFirst (fun q => q.line == line) h k.l1 }

/-- A load hit sets the line's value to 0 (R256). -/
def l1Touch (k : Core) (sec : Nat) : Core := l1Upd k (sec / 4) (fun q => { q with rrpv := 0 })

/-- Words of a line that are struck, but for those of a sector. -/
def badOutside (q : L1Line) (sec : Nat) : List Nat := q.bad.filter (fun w => w / 16 != sec % 4)

/-- Whether an uncorrectable error has struck bytes of a line in L1 (R395). -/
def l1Struck (k : Core) (a n : Nat) : Bool :=
  match l1Find k (a / 256) with
  | none => false
  | some q => q.bad.any (fun w => runsMeet (q.line * 256 + w * 4) 4 a n)

/-- A fill of a sector (R256, R258): into the line where it is present, which re-references it unless the access itself has
allocated it (`mine`), else into a way taken by R258 unless the hint says not to allocate. -/
def l1Fill (k : Core) (sec data hint : Nat) (mine : Bool) : Core :=
  let line := sec / 4
  match l1Find k line with
  | some _ => l1Upd k line (fun q => { q with secs := mset 0 q.secs (sec % 4) (data + 1), bad := badOutside q sec,
                                              rrpv := if mine then q.rrpv else 0 })
  | none =>
    match hintL1 hint with
    | none => k
    | some ins =>
      let same := fun (q : L1Line) => q.line % 32 == line % 32
      let v := victim ((List.range (40 - k.nspm)).map (k.nspm + ·)) ((k.l1.filter same).map (fun q => (q.bank, q.rrpv)))
      let aged := k.l1.map (fun q => if same q then { q with rrpv := q.rrpv + v.2 } else q)
      { k with l1 := aged.filter (fun q => !(same q && q.bank == v.1)) ++
          [{ line := line, bank := v.1, secs := [(sec % 4, data + 1)], rrpv := ins }] }

/-- A store updates the bytes of a valid sector, but for those of which `keep` says that L1 holds a later write, and allocates
nothing (R257). -/
def l1Store (k : Core) (a : Nat) (bs : List Byte) (keep : Nat → Bool) : Core :=
  { k with l1 := k.l1.map (fun q =>
      if (linesOf a bs.length).contains q.line then
        { q with
          bad := q.bad.filter (fun w => !(decide (a ≤ q.line * 256 + w * 4) && decide (q.line * 256 + w * 4 + 4 ≤ a + bs.length)))
          secs := q.secs.map (fun e =>
            (e.1, bytesToNat ((List.range 64).map (fun i =>
              let p := q.line * 256 + e.1 * 64 + i
              if a ≤ p ∧ p < a + bs.length ∧ keep p = false then bs.getD (p - a) 0
              else BitVec.ofNat 8 ((e.2 - 1) / 256 ^ i))) + 1)) }
      else q) }

/-- A store of the core to a byte has left its queue and is not acknowledged (R267). -/
def storeInFlight (k : Core) (p : Nat) : Bool :=
  k.flight.any (fun w => w.item.kind == .st && !w.item.spm &&
    w.item.lanes.any (fun l => decide (l.addr ≤ p) && decide (p < l.addr + w.item.size)))

/-- A sector is dropped, and fills of it requested before are not installed (R166). -/
def l1DropSector (k : Core) (sec : Nat) : Core :=
  { k with
    l1 := (k.l1.map (fun q => if q.line == sec / 4 then { q with secs := merase q.secs (sec % 4), bad := badOutside q sec }
      else q)).filter (fun q => !q.secs.isEmpty)
    groups := mmap {} (fun _ g => { g with loads := g.loads.map (fun r =>
      { r with install := r.install.filter (fun x => x != sec) }) }) k.groups
    prefs := k.prefs.map (fun p => if p.sector == some sec then { p with install := false } else p) }

/-- Every line is dropped, and no fill requested before is installed (R163). -/
def l1DropAll (k : Core) : Core :=
  { k with l1 := [], groups := mmap {} (fun _ g => { g with loads := g.loads.map (fun r =>
      { r with install := [] }) }) k.groups, prefs := k.prefs.map (fun p => { p with install := false }) }

/-! ### Translation -/

/-- What an access needs: 0 fetch, 1 read, 2 write, 3 read and write (R158, R62). -/
def permits (need : Nat) (r w x : Bool) : Bool :=
  if need = 0 then x else if need = 1 then r else if need = 2 then w else r && w

/-- Bits [63:56] are copies of bit 56 (R158). -/
def signExtended (va : Dword) : Bool := va.extractLsb' 57 7 == (if va.getLsbD 56 then 0x7F else 0)

/-- Virtual address bits [56:16]. -/
def pageOf (va : Dword) : Nat := (va.extractLsb' 16 41).toNat

/-- What a translation comes to: an address, a failure, a walk in progress, or no entry for the walk (R345). -/
inductive Tr where
  | pa (a : Nat)
  | fault (cls : Nat)
  | wait
  | full
deriving DecidableEq, Repr

/-- One entry of an Sv57 table (R329): the leaf, the next table, or a class of failure. -/
def walkStep (pte level : Nat) (va : Dword) : Sum WalkDone Nat :=
  let bit := fun i => pte.testBit i
  let ppn := pte / 2 ^ 10 % 2 ^ 44
  let leaf := bit 1 || bit 2 || bit 3
  if !bit 0 then .inl (.fault clsTM)
  else if pte / 2 ^ 54 % 2 ^ 9 ≠ 0 then .inl (.fault clsTP)
  else if bit 63 && (!leaf || level != 0 || ppn % 16 != 8) then .inl (.fault clsTP)
  else if !leaf then (if level = 0 then .inl (.fault clsTM) else .inr (ppn * 4096))
  else if level = 0 && !bit 63 then .inl (.fault clsTP)
  else if level ≠ 0 ∧ ppn % 2 ^ (9 * level) ≠ 0 then .inl (.fault clsTP)
  else if !bit 4 then .inl (.fault clsTP)
  else if !bit 6 then .inl (.fault clsTP)
  else
    let frame := if level = 0 then ppn / 16 else (ppn * 4096 + va.toNat % 2 ^ (12 + 9 * level)) / 65536
    .inl (.leaf frame (bit 1) (bit 2) (bit 3) (bit 7))

/-- The walk from a table page down; each table page must carry the tenant's tag, and a poisoned sector of it is XM (R260). -/
def walkTables (s : State) (tenant : Nat) (va : Dword) : Nat → Nat → WalkDone
  | table, 0 =>
    if frameTagOf s (frameOf table) ≠ tenant then .fault clsOV
    else if poisoned s (table + va.toNat / 2 ^ 12 % 512 * 8) 8 then .fault clsXM
    else match walkStep (readLE s.mem (table + va.toNat / 2 ^ 12 % 512 * 8) 8) 0 va with
      | .inl d => d
      | .inr _ => .fault clsTM
  | table, level + 1 =>
    if frameTagOf s (frameOf table) ≠ tenant then .fault clsOV
    else if poisoned s (table + va.toNat / 2 ^ (12 + 9 * (level + 1)) % 512 * 8) 8 then .fault clsXM
    else match walkStep (readLE s.mem (table + va.toNat / 2 ^ (12 + 9 * (level + 1)) % 512 * 8) 8) (level + 1) va with
      | .inl d => d
      | .inr next => walkTables s tenant va next level

/-- t.xlat (R328). -/
def walkMode (s : State) (tenant : Nat) : Bool := (getTenant s tenant).xlat.getLsbD 63
def rootOf (s : State) (tenant : Nat) : Nat := ((getTenant s tenant).xlat.extractLsb' 0 40).toNat * 4096

def walk (s : State) (tenant : Nat) (va : Dword) : WalkDone := walkTables s tenant va (rootOf s tenant) 4

/-- What a finished walk gives an access (R329): D for a write, then permission, then the leaf's frame tag (log 22, DEDUCED). -/
def walkResult (s : State) (tenant need : Nat) (d : WalkDone) : Except Nat Nat :=
  match d with
  | .fault cls => .error cls
  | .leaf frame r w x dirty =>
    if !permits need r (w && dirty) x then .error clsTP
    else if frameTagOf s frame ≠ tenant then .error clsOV
    else .ok frame

/-- Chunks of a die that a tenant holds, ascending. -/
def chunksOf (s : State) (tenant die : Nat) : List Nat :=
  ((s.chunkTag.filter (fun q => q.2 == tenant && q.1 / 512 == die && !s.fenced.contains (3, q.1))).map (fun q => q.1 % 512))

/-- The shared buffer's entry for a page of a tenant (R261): key and entry. -/
def xlatFind (s : State) (tenant die page : Nat) : Option (Nat × XEntry) :=
  s.xlat.find? (fun q => q.1 / 32768 == die && q.2.v && q.2.page == page &&
    chunkTagOf s die (q.1 % 32768 / 64) == tenant)

/-- A core's L1 translation buffer takes an entry, the least recently used of 256 leaving it (R261). -/
def tlbPut (k : Core) (e : TlbEntry) : Core :=
  { k with tlb := (e :: k.tlb.filter (fun q => !(q.tenant == e.tenant && q.page == e.page))).take 256 }

/-- A core's copy of an entry goes. -/
def tlbDrop (k : Core) (tenant page : Nat) : Core :=
  { k with tlb := k.tlb.filter (fun q => !(q.tenant == tenant && q.page == page)) }

def tlbFind (k : Core) (tenant page : Nat) : Option TlbEntry :=
  k.tlb.find? (fun q => q.tenant == tenant && q.page == page)

/-- A walk's fill (R262): the entry for the page where there is one, else the one the round-robin pointer names. -/
def xlatFill (s : State) (tenant die : Nat) (e : XEntry) : State :=
  match xlatFind s tenant die e.page with
  | some q => { s with xlat := mset {} s.xlat q.1 e }
  | none =>
    let ch := chunksOf s tenant die
    if ch.isEmpty then s
    else
      let p := mget 0 s.xlPtr (tenant * 4 + die) % (64 * ch.length)
      { s with xlat := mset {} s.xlat (die * 32768 + ch.getD (p / 64) 0 * 64 + p % 64) e
               xlPtr := mset 0 s.xlPtr (tenant * 4 + die) ((p + 1) % (64 * ch.length)) }

/-- Tenants that hold a core of a die. -/
def tenantsOnDie (s : State) (die : Nat) : List Nat :=
  ((s.cores.filter (fun k => k.1 / 192 == die && k.2.bound)).map (fun k => k.2.tid)).eraseDups

/-- The entry of the page-request queue that a miss takes (R345): a quota entry, a pool entry, or none. -/
def walkRoom (s : State) (die tenant : Nat) : Option Bool :=
  let busy := (mget [] s.walks die).filter (fun w => w.done.isNone)
  let ts := tenantsOnDie s die
  if ts.contains tenant && decide ((busy.filter (fun w => w.quota && w.tenant == tenant)).length < 4) then some true
  else if (busy.filter (fun w => !w.quota)).length < 1024 - 4 * ts.length then some false
  else none

/-- Who waits for a walk: a core, and a context with the kind of its access, so that a fetch leaves a walk to the data
access of the instruction it fetched (log 15, DEDUCED). -/
def walkWaiter (c x need : Nat) : Nat × Nat := (c, 2 * x + (if need = 0 then 1 else 0))

/-- A walk in progress for a page of a tenant. -/
def walkingTo (tenant page : Nat) (w : Walk) : Bool := w.done.isNone && w.tenant == tenant && w.page == page

/-- A waiting miss joins the walk of its page, or starts one where its tenant may have an entry (R345). -/
def grantMiss (die : Nat) (s : State) (m : Miss) : State :=
  let ws := mget [] s.walks die
  let rest := mset [] s.misses die ((mget [] s.misses die).erase m)
  if ws.any (walkingTo m.tenant m.page) then
    { s with misses := rest
             walks := mset [] s.walks die (updFirst (walkingTo m.tenant m.page)
               (fun w => if w.waiters.contains m.waiter then w else { w with waiters := w.waiters ++ [m.waiter] }) ws) }
  else match walkRoom s die m.tenant with
    | none => s
    | some quota =>
      { s with serial := s.serial + 1, misses := rest
               walks := mset [] s.walks die (ws ++ [{ id := s.serial, tenant := m.tenant, page := m.page, quota := quota,
                                                      core := m.waiter.1, need := m.need, waiters := [m.waiter] }]) }

/-- Entries that are free go to waiting misses in arrival order: a quota entry to its tenant's oldest, a pool entry to the
oldest of the die (R345). -/
def grantMisses (s : State) (die : Nat) : State := (mget [] s.misses die).foldl (grantMiss die) s

/-- A miss that needs a walk takes its place behind those that wait (R345). -/
def askWalk (s : State) (c x tenant page need : Nat) : State :=
  let die := dieOf c
  let m : Miss := ⟨tenant, page, need, walkWaiter c x need⟩
  let ms := mget [] s.misses die
  grantMisses (if ms.contains m then s else { s with misses := mset [] s.misses die (ms ++ [m]) }) die

/-- Translation of a sign-extended address for a context (R261, R158 steps 3 to 5). An entry found is the issuing tenant's
only where its cached tag is (R250). The waits of prefetches are told apart by a context number from 64 on. -/
def translate (s : State) (c x : Nat) (va : Dword) (need : Nat) : State × Tr :=
  let t := tenantOf s c (x % 64)
  let k := getCore s c
  let page := pageOf va
  let die := dieOf c
  let here := fun (frame tag : Nat) =>
    if tag ≠ t then Tr.fault clsOV else Tr.pa (frame * 65536 + va.toNat % 65536)
  let byWalk := fun (s : State) =>
    match (mget [] s.walks die).find? (fun w => w.done.isSome && w.tenant == t && w.page == page &&
        w.waiters.contains (walkWaiter c x need)) with
    | some w => match walkResult s t need (w.done.getD (.fault clsTM)) with
      | .ok frame => (s, here frame (frameTagOf s frame))
      | .error cls => (s, Tr.fault cls)
    | none =>
      let s1 := askWalk s c x t page need
      (s1, if (mget [] s1.walks die).any (walkingTo t page) then Tr.wait else Tr.full)
  let entry := fun (s : State) (e : TlbEntry) =>
    if e.bad then (s, Tr.fault clsXM)
    else if permits need e.r e.w e.x then (s, here e.frame e.tag)
    else if walkMode s t then byWalk s
    else (s, .fault clsTP)
  match tlbFind k t page with
  | some e => entry (setCore s c (tlbPut k e)) e
  | none => match xlatFind s t die page with
    | some q =>
      let e : TlbEntry := ⟨t, page, q.2.frame, q.2.r, q.2.w, q.2.x, q.2.tag, q.2.bad⟩
      entry (if e.bad then s else setCore s c (tlbPut k e)) e
    | none => if walkMode s t then byWalk s else (s, .fault clsTM)

/-- The walks that contexts of a core wait for go on without them: the groups have been stopped. -/
def forgetWalks (s : State) (c : Nat) (xs : List Nat) : State :=
  let die := dieOf c
  let gone := fun (w : Nat × Nat) => w.1 == c && xs.contains (w.2 / 2)
  if (mget [] s.walks die).isEmpty && (mget [] s.misses die).isEmpty then s
  else { s with
    misses := mset [] s.misses die ((mget [] s.misses die).filter (fun m => !gone m.waiter))
    walks := mset [] s.walks die (((mget [] s.walks die).map (fun w =>
      { w with waiters := w.waiters.filter (fun v => !gone v) })).filter (fun w => w.done.isNone || !w.waiters.isEmpty)) }

/-- The results of walks that a context waited for are used up once its access has been decided. -/
def useWalks (s : State) (c x need : Nat) (pages : List Nat) : State :=
  if (mget [] s.walks (dieOf c)).isEmpty then s
  else
    let ws := (mget [] s.walks (dieOf c)).map (fun w =>
      if w.done.isSome && pages.contains w.page then 
        { w with waiters := w.waiters.filter (· != walkWaiter c x need) } else w)
    { s with walks := mset [] s.walks (dieOf c) (ws.filter (fun w => w.done.isNone || !w.waiters.isEmpty)) }

/-- Translation by an engine for a core's tenant (R196, R262): a walk is made within the step. -/
def engineTranslate (s : State) (die tenant : Nat) (va : Dword) (need : Nat) : State × Except Nat Nat :=
  let t := tenant
  if !signExtended va then (s, .error clsTP)
  else
    let byWalk := fun (_ : Unit) =>
      let d := walk s t va
      match walkResult s t need d with
      | .ok frame =>
        let s1 := match d with
          | .leaf f r w x dd => xlatFill s t die { v := true, page := pageOf va, frame := f, x := x, w := w && dd, r := r,
                                                   tag := frameTagOf s f }
          | .fault _ => s
        (s1, .ok (frame * 65536 + va.toNat % 65536))
      | .error cls => (s, .error cls)
    match xlatFind s t die (pageOf va) with
    | some q =>
      if q.2.bad then (s, .error clsXM)
      else if permits need q.2.r q.2.w q.2.x then
        (if q.2.tag ≠ t then (s, .error clsOV) else (s, .ok (q.2.frame * 65536 + va.toNat % 65536)))
      else if walkMode s t then byWalk () else (s, .error clsTP)
    | none => if walkMode s t then byWalk () else (s, .error clsTM)

/-! ### The checks of an access -/

/-- One lane's access after its checks: an address of memory, or a scratchpad key. -/
structure Acc where
  slot : Nat
  lane : Nat
  va   : Dword
  addr : Nat
deriving DecidableEq, Repr

/-- The checks of all executing lanes (R157): all passed, a walk is awaited, a walk that has no entry, or the lowest
failing element with its class and address. -/
inductive Chk where
  | ok (as : List Acc)
  | wait
  | full
  | fail (slot lane cls : Nat) (addr : Dword)
deriving DecidableEq, Repr

def Chk.push (a : Acc) : Chk → Chk
  | .ok as => .ok (a :: as)
  | r => r

/-- R158 for one lane. -/
def checkGlobal (s : State) (c x : Nat) (size need : Nat) (ea : Dword) : State × Tr :=
  if ea.toNat % size ≠ 0 then (s, .fault clsAL)
  else if !signExtended ea then (s, .fault clsTP)
  else translate s c x ea need

/-- R157, R158 for all executing lanes in the order of R104. Walks are asked for on behalf of later lanes too. -/
def checkGlobals (s : State) (c size need : Nat) : List (Nat × Nat × Dword) → State × Chk
  | [] => (s, .ok [])
  | (x, l, ea) :: rest =>
    match checkGlobal s c x size need ea with
    | (s1, .fault cls) => (s1, .fail x l cls ea)
    | (s1, .pa a) => let r := checkGlobals s1 c size need rest; (r.1, r.2.push ⟨x, l, ea, a⟩)
    | (s1, .wait) => let r := checkGlobals s1 c size need rest; (r.1, if r.2 = .full then .full else .wait)
    | (s1, .full) => let r := checkGlobals s1 c size need rest; (r.1, .full)

/-- R157, R159 for all executing lanes. -/
def checkSpms (s : State) (c size : Nat) : List (Nat × Nat × Word) → Chk
  | [] => .ok []
  | (x, l, sa) :: rest =>
    match checkSpm s c (tenantOf s c x) size sa with
    | .error cls => .fail x l cls (sa.setWidth 64)
    | .ok key => (checkSpms s c size rest).push ⟨x, l, sa.setWidth 64, key⟩

/-! ### Outstanding requests (R157, R228) -/

def dedup (xs : List Nat) : List Nat := xs.foldl (fun ys x => if ys.contains x then ys else ys ++ [x]) []

def laneSectors (n : Nat) (as : List Nat) : List Nat := dedup (as.flatMap (fun a => sectorsOf a n))

/-- A request: the issue it belongs to and its sector (R157). -/
abbrev Request := Nat × Bool × Nat

def dedupReqs (rs : List Request) : List Request := rs.foldl (fun ys r => if ys.contains r then ys else ys ++ [r]) []

/-- Bytes of one access of a load: those of 16 bytes are two of 8 (R162). -/
def LoadRec.piece (r : LoadRec) : Nat := min r.size 8

def scratch (k : LKind) : Bool := k == .lds || k == .atoms

/-- The requests of a write whose acknowledgement, and of a load whose data, is awaited. An ATOM counts once, as a load. -/
def itemRequests (q : QItem) : List Request :=
  if q.kind = .atom then [] else (laneSectors q.size (q.lanes.map (·.addr))).map (fun a => (q.inst, q.spm, a))
def loadRequests (r : LoadRec) : List Request :=
  (laneSectors r.piece ((r.lanes.filter (·.val.isNone)).map (·.addr))).map (fun a => (r.share, scratch r.kind, a))
def prefRequest (p : Pref) : Request := (p.share, false, p.va.toNat / 64)

def queueRequests (g : Group) : List Request := g.loads.flatMap loadRequests ++ g.storeq.flatMap itemRequests

/-- Outstanding requests of a group, and of a core: one for each sector of an instruction, whichever of its members touch it
(R8, R157, R228). -/
def groupRequests (k : Core) (x : Nat) : Nat :=
  (dedupReqs (queueRequests (k.group x) ++ (k.flight.filter (fun q => q.ctx == x)).flatMap (fun q => itemRequests q.item) ++
    (k.prefs.filter (fun q => q.ctx == x)).map prefRequest)).length

def coreRequests (k : Core) : Nat :=
  (dedupReqs (k.groups.flatMap (fun g => queueRequests g.2) ++ k.flight.flatMap (fun q => itemRequests q.item) ++
    k.prefs.map prefRequest)).length

/-- Whether an instruction's requests fit: all of them in the core's 3,072, and each member's in its 512 (R157, R228). -/
def requestsFit (k : Core) (all : Nat) (per : List (Nat × Nat)) : Bool :=
  decide (coreRequests k + all ≤ 3072) && per.all (fun q => decide (groupRequests k q.1 + q.2 ≤ 512))

/-- LDs whose data has not all returned, and matrix instructions with no pass started: at most 31 (R285). -/
def inFlight31 (s : State) (c x : Nat) : Bool :=
  decide (((getGroup s c x).loads.filter (fun r => r.kind == .ld)).length +
    (s.mxOps.filter (fun o => !o.started && o.members.any (fun m => m.core == c && m.ctx == x))).length < 31)

/-! ### Acquires (R163, R271) -/

/-- A write of the core has performed at core scope (R267): it has left its queue, and a mate-bank store, an atomic or
a reduction has performed at its bank or home. -/
def performedCore (k : Core) (c id : Nat) : Bool :=
  k.groups.all (fun g => g.2.storeq.all (fun q => q.id != id)) &&
  k.flight.all (fun q => q.id != id || (q.item.kind == .st &&
    (!q.item.spm || q.item.lanes.all (fun l => l.addr / 327680 == c))))

def acknowledged (k : Core) (id : Nat) : Bool :=
  k.groups.all (fun g => g.2.storeq.all (fun q => q.id != id)) && k.flight.all (fun q => q.id != id)

def loadReturned (k : Core) (id : Nat) : Bool := k.groups.all (fun g => g.2.loads.all (fun r => r.id != id))

/-- Numbers of the loads, and of the writes queued or under way, of groups of a core. -/
def loadsOf (k : Core) (xs : List Nat) : List Nat := xs.flatMap (fun x => (k.group x).loads.map (·.id))
def writeIds (k : Core) (x : Nat) : List Nat :=
  (k.group x).storeq.map (·.id) ++ (k.flight.filter (fun q => q.ctx == x)).map (·.id)

/-- A load has returned, and does not stand in a replay queue to be issued again (R285, R287). -/
def loadOver (k : Core) (id : Nat) : Bool := loadReturned k id && k.groups.all (fun g => !g.2.replays.contains id)

def acqDone (k : Core) (c : Nat) (a : AcqRec) : Bool :=
  a.loads.all (loadOver k) && a.items.all (fun i => if a.acked then acknowledged k i else performedCore k c i)

/-- Acquires whose loads have returned are over; a wide one drops the core's L1 (R163). -/
def settleAcqs (k : Core) (c : Nat) : Core :=
  let drop := k.groups.any (fun g => g.2.acqs.any (fun a => a.wide && acqDone k c a))
  let k1 := { k with groups := mmap {} (fun _ g =>
    { g with acqs := g.acqs.filter (fun a => !acqDone k c a) }) k.groups }
  if drop then l1DropAll k1 else k1

end Sys2Proof.Machine
end

