-- ==== Sys2Proof/Machine/Issue.lean ====
section
/-! DEFINITION. How an instruction issues: the dependence waits of R67 to R72, the register-bound check (R18), arrival at
a rendezvous and the scope-mismatch fault (R229 to R236), the effect, and what the group does next (R67, R221, R222,
R237); and fetching an instruction's bytes (R60, R62, R278). -/

namespace Sys2Proof.Machine
open Sys2Proof

/-- What an instruction's effect comes to. -/
inductive Res where
  /-- The effect is complete; the issuing entries go on at the next instruction. -/
  | ok (s : State)
  /-- The effect is complete, and it has placed the issuing entries itself. -/
  | moved (s : State)
  /-- The instruction cannot issue yet for a reason of variable duration (R220). -/
  | wait (s : State)
  /-- An address of the instruction is being translated (R262). R220 does not count that among the waits: the entry stays
  the running one. -/
  | stay (s : State)
  /-- The instruction has issued and its entries are parked, at the next instruction or at this one, until a unit
  releases them. -/
  | park (next : Bool) (p : Park) (s : State)
  /-- A trap; the lanes resume at the next instruction or at this one (R279). -/
  | trap (next : Bool) (t : TrapReq) (s : State)
deriving Repr

/-! ### Dependences (R67 to R72) -/

inductive Dep where
  | go
  | stay          -- a fixed-latency result or a STALL count: the entry stays ready (R220)
  | wait (w : Wait)
deriving DecidableEq, Repr

/-- Register runs of an instruction, 1023 left out: all, and those it reads. -/
def namedRuns (op : Nat) (f : Fields) : List (Nat × Nat) :=
  ((regRefs op f).filter (fun r => r.base != vnull)).map (fun r => (r.base, r.n))
def readRuns (op : Nat) (f : Fields) : List (Nat × Nat) :=
  ((regRefs op f).filter (fun r => r.base != vnull && !r.write)).map (fun r => (r.base, r.n))

/-- MMA, MMAS and MMAT. -/
def matrixOp (op : Nat) : Bool := decide (0x2C0 ≤ op) && decide (op ≤ 0x2C2)

/-- What a matrix instruction reads of the accumulator run that it writes: C but with CZ, the hold half with HI (R173, R177). -/
def accReads (op : Nat) (f : Fields) : List (Nat × Nat) :=
  if matrixOp op then
    (if f.imm.getLsbD 4 then [] else [(f.c.toNat, mxCols op)]) ++
      (if f.imm.getLsbD 2 then [(f.c.toNat + mxCols op, mxCols op)] else [])
  else []

/-- HTEST, HMOV, HCANCEL and HWAIT name a handle without waiting for it (R194), their predicate register apart, and an
asynchronous instruction's D is judged by R193. -/
def handleOp (op : Nat) : Bool := decide (0x283 ≤ op) && decide (op ≤ 0x286)
def asyncOp (op : Nat) : Bool :=
  (decide (0x280 ≤ op) && decide (op ≤ 0x282)) || op == 0x302 || matrixOp op

/-- Registers whose pending handle an instruction waits for (R70, and R71 for those it writes, a matrix instruction's
accumulator run among them). -/
def handleRuns (op : Nat) (f : Fields) (il : Bool) : List (Nat × Nat) :=
  if handleOp op then (if f.p.toNat = vnull then [] else [(f.p.toNat, 1)])
  else if il && !asyncOp op then namedRuns op f
  else if il && matrixOp op then readRuns op f ++ [(f.c.toNat, mxAccLen op f.imm)]
  else readRuns op f ++ accReads op f

/-- Results in flight to lanes of an entry that block it: those to registers of `rs`, or all. -/
def blocking (g : Group) (t : Nat) (m : Mask) (rs : Option (List (Nat × Nat))) : List Pend :=
  g.pend.filter (fun p => p.inFlight t && p.lanes &&& m != 0 &&
    match rs with
    | none => true
    | some q => p.regs.any (fun r => q.any (fun b => decide (b.1 ≤ r) && decide (r < b.1 + b.2))))

def depOf (ps : List Pend) (w : Wait) (next : Dep) : Dep :=
  if ps.isEmpty then next else if ps.any (·.variable) then .wait w else .stay

/-- The lanes whose results an entry waits for: its own, or all where the group has no other entry (R223). -/
def waitLanes (g : Group) (e : Entry) : Mask := if g.frontier.length ≤ 1 then BitVec.allOnes 64 else e.mask

/-- The waits that end before an entry issues at lane scope or arrives at a rendezvous: SW (R67), a merge (R222), what a
resumption has re-injected (R72, R185), and a compaction that moves the group's units (R244). -/
def depArrive (s : State) (c x : Nat) (f : Fields) (e : Entry) : Dep :=
  let g := getGroup s c x
  if g.rewait.any (fun i => s.mxOps.any (fun o => o.id == i)) || (getCore s c).moving.contains x then .wait .other
  else depOf (if e.settle || (f.sw && !interlocked g x) then blocking g (now s c) (waitLanes g e) none else []) .results .go

/-- The waits for registers that end before an instruction issues: interlocks (R71) and pending handles (R70). -/
def depIssue (s : State) (c x op : Nat) (f : Fields) (e : Entry) : Dep :=
  let g := getGroup s c x
  let il := interlocked g x
  let runs := namedRuns op f
  depOf (if il then blocking g (now s c) (waitLanes g e) (some runs) else []) (.regs runs)
    (if g.handles.any (fun h => (handleRuns op f il).any (fun b => decide (b.1 ≤ h.reg) && decide (h.reg < b.1 + b.2)))
     then .wait (.handles (handleRuns op f il))
     else if il && (mxRunsOf s c x).any (fun q => q.2.2.2 && runs.any (fun b => runsMeet b.1 b.2 q.2.1 q.2.2.1))
     then .wait .other
     else .go)

/-- Whether an instruction of opcode `op` may issue for an entry of context `x`, or, at a wider scope, the entry may arrive
at its rendezvous (R67 to R72, R222, R223, R230) (log 11, DEDUCED). -/
def depCheck (s : State) (c x op : Nat) (f : Fields) (e : Entry) : Dep :=
  match depArrive s c x f e with
  | .go => if f.scope = .lane then depIssue s c x op f e else .go
  | d => d

/-- Whether the instruction of a completed rendezvous may issue for one member: its merged or resumed entry has waited
(R72, R222), and so has the member for what the instruction names (R70, R71). -/
def memberFree (s : State) (c op : Nat) (f : Fields) (pc : Dword) (x : Nat) : Bool :=
  match issuingEntry (getGroup s c x) true pc with
  | none => true
  | some e => depArrive s c x f e == .go && depIssue s c x op f e == .go

/-! ### Issue slots (R225 to R227) -/

/-- Whether a group may share an issue with those that have it already (R227): co-issue in other windows, or pairing with
one group of the same window and width whose lanes are others. -/
def sharesWith (u v : SlotUse) : Bool :=
  u.joins && v.joins && u.launch == v.launch && u.role == v.role && u.pc == v.pc &&
  v.parts.all (fun q =>
    match u.parts.filter (fun r => runsMeet q.1 q.2.1 r.1 r.2.1) with
    | [] => true
    | [r] => r.1 == q.1 && r.2.1 == q.2.1 && r.2.2 &&& q.2.2 == 0
    | _ => false)

/-- The issue slot that an instruction would use, that of the member with the lowest group slot (R231), and what the slot's
use then is; none where the slot has issued in this cycle (R226) and the issue cannot be shared (R227). -/
def slotUse (s : State) (c : Nat) (f : Fields) (pc : Dword) (ms : Members) : Option (Nat × SlotUse) :=
  match ms.find? (fun m => m.active != 0) with
  | none => none
  | some m =>
    let k := getCore s c
    let g := k.group m.slot
    let u := mget {} k.slots g.slot
    let v : SlotUse := { cycle := now s c + 1, joins := decide (m.slot < handlerCtx) && (f.scope == .lane || f.scope == .group),
                         launch := (mget none k.blocks g.block).map (·.launch), role := g.role, pc := pc,
                         parts := [(g.window, g.width, m.exec)] }
    if u.cycle ≤ now s c then some (g.slot, v)
    else if sharesWith u v then some (g.slot, { u with parts := u.parts ++ v.parts })
    else none

/-- The slot has issued for the groups `xs`; its other groups lose their latches (R23). -/
def takeSlot (s : State) (c : Nat) (u : Option (Nat × SlotUse)) (xs : List Nat) : State :=
  match u with
  | none => s
  | some q => updCore s c (fun k => { k with
      slots := mset {} k.slots q.1 q.2
      groups := mmap {} (fun y g =>
        if !xs.contains y && g.slot == q.1 then { g with latchA := none, latchB := none } else g)
        k.groups })

/-! ### The register-bound check -/

/-- The first register, in the order of R16, that lies outside the allotment (R18) (log 65, DEDUCED). -/
def outOfBound (g : Group) (op : Nat) (f : Fields) : Option Nat :=
  match (namedRuns op f).find? (fun r => decide (g.allotment < r.1 + r.2)) with
  | some r => some (max r.1 g.allotment)
  | none => none

def rbOf (k : Core) (op : Nat) (f : Fields) (xs : List Nat) : Option (Nat × Nat) :=
  match xs with
  | [] => none
  | x :: rest => match outOfBound (k.group x) op f with
    | some r => some (x, r)
    | none => rbOf k op f rest

/-- Registers that the core reads for an instruction, the predicate apart: the matrix engine reads a matrix instruction's runs
(R184), the core its tile address. -/
def coreRuns (op : Nat) (f : Fields) : List (Nat × Nat) :=
  if op = 0x2C0 then [] else if op = 0x2C1 ∨ op = 0x2C2 then [(f.b.toNat, 1)] else readRuns op f

/-- An instruction that takes values from lanes of its group that need not execute. -/
def crossesLanes (op : Nat) (f : Fields) : Bool :=
  permClass f.perm != 0 || (decide (0x040 ≤ op) && decide (op < 0x080)) || op == 0x2C1 || op == 0x2C2

/-- An error has struck one of some registers of a lane. -/
def struckAt (g : Group) (rs : List (Nat × Nat)) (l : Nat) : Bool :=
  rs.any (fun b => (List.range b.2).any (fun i => g.bad.contains (cellKey (b.1 + i) l)))

/-- The lowest lane of a member in which an instruction reads a struck register (R395). -/
def struckLane (g : Group) (op : Nat) (f : Fields) (m : Member) : Option Nat :=
  if g.bad.isEmpty then none
  else (lanesOf (laneMask g.width)).find? (fun l =>
    ((crossesLanes op f || m.exec.getLsbD l) && struckAt g (coreRuns op f) l) ||
    (m.active.getLsbD l && f.p.toNat != vnull && struckAt g [(f.p.toNat, 1)] l))

/-- The first member, and its lane, that reads a struck register. -/
def struckOf (k : Core) (op : Nat) (f : Fields) : Members → Option (Nat × Nat)
  | [] => none
  | m :: ms => match struckLane (k.group m.slot) op f m with
    | some l => some (m.slot, l)
    | none => struckOf k op f ms

/-- XM of a register that an instruction reads (R395): nothing is performed, and the lanes stay at the instruction; the manual
gives such a trap no KIND and no address (log 23, DESIGN CHOICE). -/
def struckReq (s : State) (x l : Nat) (pc : Dword) (xs : List Nat) : TrapReq :=
  { cls := clsXM, info := BitVec.ofNat 32 (l * 16 + freeNatAt s 12 x 2 l % 7),
    addr := freeWordAt s 12 x 1 l ++ freeWordAt s 12 x 0 l, pc := pc, slots := xs, origin := x }

/-! ### After the effect -/

/-- Bytes of the instruction, and the address after it. -/
def nextPc (pc : Dword) (f : Fields) : Dword := pc + BitVec.ofNat 64 (lenBytes f.len)

/-- Earliest cycle of the next instruction (R67); interlocked mode ignores STALL (R71). -/
def nextCycle (s : State) (c x : Nat) (f : Fields) : Nat :=
  now s c + 1 + (if interlocked (getGroup s c x) x then 0 else f.stall.toNat)

/-- A group has issued (R226), has read what the instruction names (R274), and keeps or gives up its reuse latches (R23). -/
def markIssued (s : State) (c op : Nat) (f : Fields) (g : Group) : Group :=
  { learnDones (readRuns op f ++ accReads op f) g with
           lastIssue := now s c + 1, gave := op == 0x187 && g.yielded.isSome,
           latchA := if f.ra then latchRun op f { f with a := ~~~f.a } else none,
           latchB := if f.rb then latchRun op f { f with b := ~~~f.b } else none }

/-- Every issuing entry goes on at the next instruction. -/
def retire (s : State) (c op : Nat) (f : Fields) (pc : Dword) (wide : Bool) (xs : List Nat) : State :=
  updCore s c (fun k => xs.foldl (fun k x =>
    k.withGroup x (advance (markIssued s c op f (k.group x)) wide pc (nextPc pc f) (nextCycle s c x f))) k)

/-- The issuing entry of a group is parked, at its address or at the next. -/
def parkEntry (g : Group) (wide : Bool) (pc at' : Dword) (p : Park) (notBefore : Nat) : Group :=
  let h := fun (e : Entry) =>
    { e with pc := at', park := p, wait := .none, settle := false, notBefore := notBefore }
  choose { g with frontier := updFirst (isIssuing wide pc) h g.frontier }

def parkAll (s : State) (c op : Nat) (f : Fields) (pc : Dword) (wide next : Bool) (p : Park) (xs : List Nat) : State :=
  updCore s c (fun k => xs.foldl (fun k x =>
    k.withGroup x (parkEntry (markIssued s c op f (k.group x)) wide pc (if next then nextPc pc f else pc) p
      (nextCycle s c x f))) k)

/-- The lanes of a trapping instruction resume at the next one, or stay at it, parked at the rendezvous that had
completed when the scope is wider (R237, R279). -/
def stopLanes (s : State) (c op : Nat) (f : Fields) (pc : Dword) (wide next : Bool) (xs : List Nat) : State :=
  if next then retire s c op f pc wide xs
  else if wide then
    let h := fun (e : Entry) => { e with park := .trapped f.scope }
    updCore s c (fun k => updSlots k xs (fun g => { g with frontier := updFirst (isIssuing wide pc) h g.frontier }))
  else s

/-- A member of an issue with the lanes that execute (R15, R231): none of a slot that holds no entry at the instruction,
as a vacant slot, whose lanes still count as elements (R19). -/
def memberOf (s : State) (c : Nat) (f : Fields) (pc : Dword) (wide : Bool) (x : Nat) : Member :=
  match issuingEntry (getGroup s c x) wide pc with
  | none => ⟨x, 0, 0⟩
  | some e => ⟨x, e.mask, execMask s c x f e.mask⟩

/-- The instruction issues once for all its members: the register-bound check, against the allotment of every member, a
vacant slot among them (R18, R139), then its effect, in one issue slot (R226). -/
def issueNow (op : Nat) (f : Fields) (body : Dword → Members → State → Res) (s : State) (c : Nat) (pc : Dword)
    (wide : Bool) (xs : List Nat) : State :=
  let ms := xs.map (memberOf s c f pc wide)
  let ys := xs.filter (fun x => (issuingEntry (getGroup s c x) wide pc).isSome)
  match rbOf (getCore s c) op f xs with
  | some q =>
    raiseTrap (stopLanes s c op f pc wide false ys) c
      { cls := clsRB, info := BitVec.ofNat 32 q.2, pc := pc, slots := xs, origin := q.1 }
  | none => match struckOf (getCore s c) op f ms with
  | some q => stepFree (raiseTrap (stopLanes s c op f pc wide false ys) c (struckReq s q.1 q.2 pc xs))
  | none =>
    let u := slotUse s c f pc ms
    match body pc ms s with
    | .ok s1 => stepFree (retire (takeSlot s1 c u ys) c op f pc wide ys)
    | .moved s1 => stepFree (updCore (takeSlot s1 c u ys) c (fun k => updSlots k ys (markIssued s c op f)))
    | .park next p s1 => stepFree (parkAll (takeSlot s1 c u ys) c op f pc wide next p ys)
    | .wait s1 => stepFree (if wide then s1 else
        updCore s1 c (fun k => updSlots k ys (fun g => waitEntry g pc .other)))
    | .stay s1 => stepFree s1
    | .trap next t s1 => stepFree (raiseTrap (stopLanes (takeSlot s1 c u ys) c op f pc wide next ys) c t)

/-! ### Rendezvous -/

/-- The trap information of SM (R235). -/
def smInfo (code aset : Nat) (asc : Scope) (cset : Nat) (csc : Nat) : Word :=
  BitVec.ofNat 32 (cset % 16 * 4096 + csc % 4 * 1024 + scopeCode asc * 256 + aset % 16 * 16 + code)

/-- REGROUP, RGHOME and SYNC with its role modifier count the groups of the role alone (R66, R229). -/
def byRoleOp (op : Nat) (f : Fields) : Bool := op == 0x1C3 || op == 0x1C4 || (op == 0x1C0 && f.mod == 1)

/-- The rendezvous that an instruction opens or joins. -/
def rdvOf (g : Group) (op : Nat) (f : Fields) : Park :=
  .rdv f.scope (if f.scope = .set then g.setId.getD 0 else 0) (byRoleOp op f)

/-- Whether an entry of slot `y` is parked at a rendezvous other than (`pc`, `p`) of slot `x`, and that rendezvous
counts the threads of slot `x` (R233). -/
def conflicts (k : Core) (x : Nat) (pc : Dword) (p : Park) (y : Nat) (e : Entry) : Bool :=
  match e.park with
  | .rdv sc id br =>
    !(e.pc == pc && e.park == p && (sc != .group || y == x)) && (membersAt k y sc br).contains x &&
      (sc != .set || (k.group x).setId == some id)
  | _ => false

/-- The first rendezvous in conflict with an arrival, by slot and then by place in the frontier, and a slot parked at it (R233)
(log 98, DESIGN CHOICE). -/
def findConflict (k : Core) (x : Nat) (pc : Dword) (p : Park) : List Nat → Option (Nat × Entry)
  | [] => none
  | y :: ys => match (k.group y).frontier.find? (conflicts k x pc p y) with
    | some e => some (y, e)
    | none => findConflict k x pc p ys

/-- An entry's lanes become an ordinary entry at their own address (R236). -/
def unpark (g : Group) (pc : Dword) (p : Park) : Group :=
  (g.frontier.filter (fun e => e.pc == pc && e.park == p)).foldl
    (fun g e => enter { g with frontier := g.frontier.erase e } e.pc e.mask e.prio e.notBefore) g

/-- The same for lanes that frames of stopped groups record as parked. -/
def unparkLanes (xs : List Nat) (pc : Dword) (p : Park) (fr : Frame) : Frame :=
  { fr with members := fr.members.map (fun m =>
      if xs.contains m.slot then
        { m with lanes := m.lanes.map (fun q => if q.pc == pc && q.park == p then { q with state := 1, park := .none } else q) }
      else m) }

/-- A rendezvous of some members is dissolved (R236), in their frontiers and in their frames. -/
def dissolve (k : Core) (xs : List Nat) (pc : Dword) (p : Park) : Core :=
  let k1 := updSlots k xs (fun g => unpark g pc p)
  let h := unparkLanes xs pc p
  { k1 with framesH := k1.framesH.map h, framesF := k1.framesF.map h, curH := k1.curH.map h, curF := k1.curF.map h,
            partsH := k1.partsH.map h, partsF := k1.partsF.map h }

/-- SM, codes 1 and 5 (R233, R235, R236). -/
def raiseConflict (s : State) (c x op : Nat) (f : Fields) (pc : Dword) (xs : List Nat) (y : Nat) (e : Entry) : State :=
  let k := getCore s c
  let g := k.group x
  let p := rdvOf g op f
  match e.park with
  | .rdv sc id br =>
    let ys := membersAt k y sc br
    let both := (slotsOf k).filter (fun z => xs.contains z || ys.contains z)
    let all := if both.isEmpty then [x] else both
    let s1 := updCore s c (fun k => dissolve (dissolve k xs pc p) ys e.pc e.park)
    raiseTrap s1 c
      { cls := clsSM,
        info := smInfo (if sc = f.scope then 1 else 5) (if f.scope = .set then g.setId.getD 0 else 0) f.scope
          (if sc = .set then id else 0) (scopeCode sc),
        pc := pc, slots := all, origin := all.headD x }
  | _ => s

/-- The running entry arrives (R230): it is parked, or merges into an entry parked there, which then waits for its lanes'
results before it issues (R222). -/
def arrive (g : Group) (pc : Dword) (p : Park) : Group :=
  match freeEntryAt g pc with
  | none => g
  | some e =>
    let g1 := { g with frontier := g.frontier.erase e }
    let here := fun (q : Entry) => q.pc == pc && q.park == p
    let join := fun (q : Entry) => { q with mask := q.mask ||| e.mask, prio := max q.prio e.prio, settle := true }
    choose (if g1.frontier.any here then { g1 with frontier := updFirst here join g1.frontier }
      else { g1 with frontier := g1.frontier ++ [{ e with park := p, wait := .none, settle := false }] })

/-- The instruction of a rendezvous that has completed may issue in this cycle: for every member, and in its slot (R231). -/
def rdvFree (s : State) (c op : Nat) (f : Fields) (pc : Dword) (xs : List Nat) : Bool :=
  xs.all (memberFree s c op f pc) && (slotUse s c f pc (xs.map (memberOf s c f pc true))).isSome

/-- An instruction at a wider scope (R230 to R234): the entry arrives, and where that completes the rendezvous and nothing
is to be waited for the instruction issues; else RENDEZVOUS_COMPLETE brings its issue. -/
def issueWide (op : Nat) (f : Fields) (body : Dword → Members → State → Res) (s : State) (c x : Nat) (pc : Dword) : State :=
  let k := getCore s c
  let g := k.group x
  if f.scope = .set ∧ g.setId = none then
    raiseTrap s c { cls := clsSM, info := smInfo 6 0 f.scope 0 0, pc := pc, slots := [x], origin := x }
  else
    let p := rdvOf g op f
    let xs := membersAt k x f.scope (byRoleOp op f)
    match findConflict k x pc p xs with
    | some q => raiseConflict s c x op f pc xs q.1 q.2
    | none =>
      let s1 := updGroup s c x (fun g => arrive g pc p)
      if rdvComplete (getCore s1 c) xs pc p && rdvFree s1 c op f pc xs then issueNow op f body s1 c pc true xs else s1

/-- An encoded instruction issues for the running entry of the context that `cur` names. -/
def issue (op : Nat) (f : Fields) (body : Dword → Members → State → Res) (s : State) :
    Host.Outcome State Fault Refusal :=
  let c := s.cur.1
  let x := s.cur.2
  match runningEntry (getGroup s c x) with
  | none => .fault .noIssuer
  | some e =>
    match depCheck s c x op f e with
    | .stay => .next s
    | .wait w => .next (updGroup s c x (fun g => waitEntry g e.pc w))
    | .go =>
      if f.scope = .lane then
        (if (slotUse s c f e.pc [memberOf s c f e.pc false x]).isSome then .next (issueNow op f body s c e.pc false [x])
         else .next s)
      else .next (issueWide op f body s c x e.pc)

/-! ### Fetch -/

inductive Fetch where
  | idle (s : State)
  | run (i : Instr) (s : State)
deriving Repr

/-- The fetch block at a physical address: the buffered bytes, which may have been replaced, or those of the home
slice (R278) (log 21, DEDUCED); none where an error has struck the bytes that are read (R260, R395). -/
def fetchBlock (s : State) (c pa : Nat) : State × Option (List Byte) :=
  let b := pa / 32
  let k := getCore s c
  let bytes := readBytes s.mem (b * 32) 32
  let fresh : State × Option (List Byte) :=
    if poisoned s (b * 32) 32 then (s, none)
    else (setCore s c { k with ibuf := mset [] k.ibuf b bytes, ibad := k.ibad.filter (fun q => q != b) }, some bytes)
  match mget [] k.ibuf b with
  | [] => fresh
  | old => if freeBitAt s 8 0 0 0 then fresh else (s, if k.ibad.contains b then none else some old)

/-- A fault of a fetch (R62, R279, R280: KIND 0). -/
def fetchTrap (s : State) (c x cls : Nat) (pc : Dword) : State :=
  raiseTrap s c { cls := cls, info := 0, addr := pc, pc := pc, slots := [x], origin := x }

/-- IE, raised once the instruction would issue (R76). -/
def illegal (s : State) (c x : Nat) (e : Entry) (pc : Dword) (err : DecodeError) (bs : List Byte) : State :=
  let w := BitVec.ofNat 128 (bytesToNat bs)
  let trap := raiseTrap s c { cls := clsIE, info := ieInfo err bs, pc := pc, slots := [x], origin := x }
  match lenOfBits (w.extractLsb' 0 2) with
  | none => trap
  | some len =>
    let f := fieldsOfWord len w
    match depCheck s c x (opOfWord w) f e with
    | .go => trap
    | .stay => s
    | .wait q => updGroup s c x (fun g => waitEntry g pc q)

/-- The running entry's next instruction (R62, R76): fetched, checked and decoded. Nothing happens where the group has
nothing to issue in this cycle. -/
def fetchNext (s : State) (c x : Nat) : Fetch :=
  let g := getGroup s c x
  if !g.live || g.stop != .run then .idle s
  else
    match runningEntry g with
    | none => .idle s
    | some e =>
      if now s c < e.notBefore ∨ now s c < g.lastIssue then .idle s
      else if e.pc.toNat % 4 ≠ 0 then .idle (fetchTrap s c x clsAL e.pc)
      else if !signExtended e.pc then .idle (fetchTrap s c x clsTP e.pc)
      else match translate s c x e.pc 0 with
        | (s2, .fault cls) => .idle (fetchTrap (useWalks s2 c x 0 [pageOf e.pc]) c x cls e.pc)
        | (s2, .wait) => .idle s2
        | (s2, .full) => .idle (updGroup s2 c x (fun g => waitEntry g e.pc .other))
        | (s2, .pa pa) =>
          match fetchBlock (useWalks s2 c x 0 [pageOf e.pc]) c pa with
          | (s3, none) => .idle (fetchTrap s3 c x clsXM e.pc)
          | (s3, some block) =>
            let bs := block.drop (pa % 32)
            match decode (privOf g x) (pa % 32) bs with
            | .ok i => .run i { s3 with cur := (c, x) }
            | .error err => .idle (illegal s3 c x e e.pc err bs)

end Sys2Proof.Machine
end

