-- ==== Sys2Proof/Machine/Control.lean ====
section
/-! DEFINITION. Control flow, opcodes 0x180 to 0x188 (R133 to R141). -/

namespace Sys2Proof.Machine
open Sys2Proof

/-- Distinct targets of lanes, in the order of their lowest lanes, with the lanes that go there (R135). -/
def splitTargets (ts : List (Nat × Dword)) : List (Dword × Mask) :=
  ts.foldl (fun acc q =>
    if acc.any (fun r => r.1 == q.2) then
      updFirst (fun r => r.1 == q.2) (fun r => (r.1, r.2 ||| (1#64 <<< q.1))) acc
    else acc ++ [(q.2, 1#64 <<< q.1)]) []

/-- The issuing entry's lanes go to targets with a priority each (R134): `to` for the executing lanes, then the
fall-through for the rest. A transfer is a choice point (R221). -/
def transfer (g : Group) (wide : Bool) (pc : Dword) (goes : List (Dword × Mask)) (pt : Nat) (rest : Dword × Mask)
    (pf notBefore : Nat) : Group :=
  let g1 := dropIssuing g wide pc
  let g2 := goes.foldl (fun g q => enter g q.1 q.2 pt notBefore) g1
  choose (enter g2 rest.1 rest.2 pf notBefore)

/-- The lanes of a member that do not execute. -/
def Member.idle (m : Member) : Mask := m.active &&& ~~~m.exec

/-- A transfer for every member (there is one: these instructions are of lane or group scope). -/
def transferAll (f : Fields) (pc : Dword) (ms : Members) (s : State) (goes : Member → List (Dword × Mask))
    (rest : Member → Mask) (pt pf : Nat) : State :=
  let c := s.cur.1
  ms.foldl (fun s m => updGroup s c m.slot (fun g =>
    transfer g (f.scope != .lane) pc (goes m) pt (nextPc pc f, rest m) pf (nextCycle s c m.slot f))) s

/-- The target of BRA and CALL (R135). -/
def immTarget (pc : Dword) (f : Fields) : Dword := pc + f.imm.signExtend 64

/-- BRA (R135, R136): `.any` and `.all` send every live lane one way. -/
def performBra (f : Fields) (pc : Dword) (ms : Members) (s : State) : Res :=
  let pt := f.a.toNat % 256
  let pf := f.b.toNat % 256
  let go := fun (m : Member) =>
    if f.mod = 1 then (if m.exec != 0 then m.active else 0)
    else if f.mod = 2 then (if m.exec == m.active then m.active else 0)
    else m.exec
  .moved (transferAll f pc ms s (fun m => [(immTarget pc f, go m)]) (fun m => m.active &&& ~~~(go m)) pt pf)
def execBra (f : Fields) (s : State) : Host.Outcome State Fault Refusal := issue 0x180 f (performBra f) s

/-- The targets in vA:A+1 of the executing lanes. -/
def regTargets (s : State) (f : Fields) (m : Member) : List (Dword × Mask) :=
  splitTargets ((lanesOf m.exec).map (fun l => (l, pairA s s.cur.1 m.slot f l)))

/-- BRX (R135). -/
def performBrx (f : Fields) (pc : Dword) (ms : Members) (s : State) : Res :=
  .moved (transferAll f pc ms s (regTargets s f) Member.idle (f.imm.toNat % 256) (f.imm.toNat / 256 % 256))
def execBrx (f : Fields) (s : State) : Host.Outcome State Fault Refusal := issue 0x182 f (performBrx f) s

/-- The link pair of the executing lanes: readable at the target without wait (R135). -/
def writeLinks (f : Fields) (pc : Dword) (ms : Members) (s : State) : State :=
  if f.d.toNat = vnull then s
  else ms.foldl (fun s m => writeCells s s.cur.1 m.slot ((lanesOf m.exec).flatMap (fun l =>
    [(f.d.toNat, l, lo32 (nextPc pc f)), (f.d.toNat + 1, l, hi32 (nextPc pc f))]))) s

/-- CALL (R135). -/
def performCall (f : Fields) (pc : Dword) (ms : Members) (s : State) : Res :=
  .moved (transferAll f pc ms (writeLinks f pc ms s) (fun m => [(immTarget pc f, m.exec)]) Member.idle
    (f.a.toNat % 256) (f.b.toNat % 256))
def execCall (f : Fields) (s : State) : Host.Outcome State Fault Refusal := issue 0x183 f (performCall f) s

/-- CALLX (R135): the targets are read before the links are written. -/
def performCallx (f : Fields) (pc : Dword) (ms : Members) (s : State) : Res :=
  .moved (transferAll f pc ms (writeLinks f pc ms s) (regTargets s f) Member.idle
    (f.imm.toNat % 256) (f.imm.toNat / 256 % 256))
def execCallx (f : Fields) (s : State) : Host.Outcome State Fault Refusal := issue 0x184 f (performCallx f) s

/-- The priority of the issuing entry. -/
def issuingPrio (s : State) (c : Nat) (f : Fields) (pc : Dword) (m : Member) : Nat :=
  ((issuingEntry (getGroup s c m.slot) (f.scope != .lane) pc).map (·.prio)).getD 0

/-- RET (R138): each lane enters by itself, so that lanes with equal addresses merge (R134); lanes that do not execute go on
with their entry's priority. -/
def performRet (f : Fields) (pc : Dword) (ms : Members) (s : State) : Res :=
  let pf := (ms.head?.map (issuingPrio s s.cur.1 f pc)).getD 0
  let goes := fun (m : Member) => (lanesOf m.exec).map (fun l => (pairA s s.cur.1 m.slot f l, 1#64 <<< l))
  .moved (transferAll f pc ms s goes Member.idle (f.b.toNat % 256) pf)
def execRet (f : Fields) (s : State) : Host.Outcome State Fault Refusal := issue 0x185 f (performRet f) s

/-- The threads of some lanes of a group end (R139): their homes no longer hold a thread. -/
def endHomes (k : Core) (x : Nat) (ls : List Nat) : Core :=
  ls.foldl (fun k l =>
    let h := homeOf (k.group x) x l
    let k1 := k.withGroup h.1 { k.group h.1 with homes := (k.group h.1).homes &&& ~~~(1#64 <<< h.2) }
    k1.withGroup x { k1.group x with home := merase (k1.group x).home l }) k

/-- All the handler's threads have ended without ERET (R288). -/
def handlerEnded (k : Core) : Core :=
  if (k.group handlerCtx).frontier.isEmpty then handlerFault k else k

/-- EXIT (R139): executing threads end; the others go on. -/
def exitMember (f : Fields) (pc : Dword) (s : State) (m : Member) : State :=
  let c := s.cur.1
  updCore s c (fun k =>
    let k1 := endHomes k m.slot (lanesOf m.exec)
    let g := k1.group m.slot
    let g1 :=
      if m.idle = 0 then choose (dropIssuing g false pc)
      else advance { g with frontier := updFirst (isIssuing false pc) (fun e => { e with mask := m.idle }) g.frontier }
        false pc (nextPc pc f) (nextCycle s c m.slot f)
    let k2 := k1.withGroup m.slot g1
    if m.slot = handlerCtx then handlerEnded k2 else k2)

def performExit (f : Fields) (pc : Dword) (ms : Members) (s : State) : Res :=
  if ms.all (fun m => m.exec == 0) then .ok s
  else .moved (ms.foldl (exitMember f pc) s)
def execExit (f : Fields) (s : State) : Host.Outcome State Fault Refusal := issue 0x186 f (performExit f) s

/-- YIELD (R140, R221): the entry goes on, and is left out of the choice if another entry is ready. Where the predicate fails
in every lane the manual does not say whether YIELD is a choice point: the model makes it none, and its slot offers its next
cycle to no other group (log 81, DESIGN CHOICE). -/
def performYield (f : Fields) (pc : Dword) (ms : Members) (s : State) : Res :=
  let c := s.cur.1
  if ms.all (fun m => m.exec == 0) then .ok s
  else .moved (ms.foldl (fun s m => updGroup s c m.slot (fun g =>
    choose { advance g (f.scope != .lane) pc (nextPc pc f) (nextCycle s c m.slot f) with
      yielded := some (nextPc pc f) })) s)
def execYield (f : Fields) (s : State) : Host.Outcome State Fault Refusal := issue 0x187 f (performYield f) s

/-- BKPT (R141): BK with the code and, for the frame, the lanes that execute; nothing where no lane does. -/
def performBkpt (f : Fields) (pc : Dword) (ms : Members) (s : State) : Res :=
  if ms.all (fun m => m.exec == 0) then .ok s
  else .trap true { cls := clsBK, info := f.a.setWidth 32, pc := pc, slots := ms.map (·.slot),
                    origin := (ms.head?.map (·.slot)).getD 0, masks := ms.map (fun m => (m.slot, m.exec)) } s
def execBkpt (f : Fields) (s : State) : Host.Outcome State Fault Refusal := issue 0x188 f (performBkpt f) s

end Sys2Proof.Machine
end

