-- ==== Sys2Proof/Machine/MatrixNum.lean ====
section
/-! DEFINITION. The arithmetic of the matrix engine: inner accumulators and the pairwise tree (R50 to R53), the element
loop (R178), and the epilogue of bias, activation and requantisation (R49, R179, R180). -/

namespace Sys2Proof.Machine
open Sys2Proof

/-- The matrix sticky flags (R190): TCODE, NV, OVF. -/
abbrev MxFlags := BitVec 3
def mxOVF : MxFlags := 1
def mxNV : MxFlags := 2
def mxTCODE : MxFlags := 4

/-- Neighbours added; a last odd one stays (R52). -/
def pairUp {α : Type} (add : α → α → α) : List α → List α
  | a :: b :: t => add a b :: pairUp add t
  | l => l

/-- The tree of R52; `n` bounds the levels. -/
def treeSum {α : Type} (add : α → α → α) (zero : α) : Nat → List α → α
  | _, [] => zero
  | _, [a] => a
  | 0, a :: _ => a
  | n + 1, l => treeSum add zero n (pairUp add l)

/-! ### Floating-point products -/

/-- A value with the flags raised on the way to it. -/
abbrev FAcc := FVal × MxFlags

/-- A NaN formed from operands that are not NaN (R52). -/
def formedNan (a b r : FVal) : MxFlags := if isNan r && !isNan a && !isNan b then mxNV else 0

/-- A product, exact (R50). -/
def mxMul (a b : FVal) : FAcc := let r := (mulVal a b).1; (r, formedNan a b r)

/-- An exact sum rounded to a format in a mode, and its flags: overflow of finite operands, a NaN formed. -/
def mxSum (f : Fmt) (md : RMode) (a b : FVal) : Nat × MxFlags :=
  let r := (addVal md a b).1
  let p := packVal f md r
  (p.1, formedNan a b r ||| (if p.2 &&& excOF != 0 then mxOVF else 0))

/-- The inner addition (R50): exact, then toward zero to E8M15. -/
def innerAdd (x y : FAcc) : FAcc :=
  let r := mxSum fE8M15 .rz x.1 y.1
  (fdecode fE8M15 r.1, x.2 ||| y.2 ||| r.2)

/-- The promotion (R50) of an F32 outer value. -/
def promoteF (outer : Nat) (x : FVal) : Nat × MxFlags := mxSum fF32 .rne (fdecode fF32 outer) x

/-- The state of the element loop: outer and inner value, product count, flags. -/
structure MxLoop (α : Type) where
  outer : Nat
  inner : α
  count : Nat
  flags : MxFlags

/-- A promotion if the count has reached `p` (R52, R178). -/
def promoteAt {α : Type} (prom : Nat → α → Nat × MxFlags) (zero : α) (p : Nat) (x : MxLoop α) : MxLoop α :=
  if p ≤ x.count then
    let r := prom x.outer x.inner
    { outer := r.1, inner := zero, count := 0, flags := x.flags ||| r.2 }
  else x

/-- The K-steps of R52: `steps` are the lists of L products. -/
def kSteps {α : Type} (add : α × MxFlags → α × MxFlags → α × MxFlags) (prom : Nat → α → Nat × MxFlags) (zero : α)
    (l p : Nat) (steps : List (List (α × MxFlags))) (x : MxLoop α) : MxLoop α :=
  steps.foldl (fun x prods =>
    let t := treeSum add (zero, 0) 9 prods
    let i := add (x.inner, 0) t
    promoteAt prom zero p { x with inner := i.1, count := x.count + l, flags := x.flags ||| i.2 }) x

/-- The whole element: hold in, the loop, and the last promotion unless held (R52, R178). -/
def mxElement {α : Type} (add : α × MxFlags → α × MxFlags → α × MxFlags) (prom : Nat → α → Nat × MxFlags) (zero : α)
    (l p : Nat) (hold : Bool) (steps : List (List (α × MxFlags))) (outer : Nat) (inner : α) (count : Nat) : MxLoop α :=
  let x := kSteps add prom zero l p steps (promoteAt prom zero p ⟨outer, inner, count, 0⟩)
  if hold || x.count = 0 then x else promoteAt prom zero 1 x

/-! ### Integer products -/

/-- The inner addition of the 18-bit accumulator (R50). -/
def innerAddInt (x y : Int × MxFlags) : Int × MxFlags :=
  let s := x.1 + y.1
  let r := satInt s (-131072) 131071
  (r, x.2 ||| y.2 ||| (if r = s then 0 else mxOVF))

/-- The promotion (R50) of an S32 outer value. -/
def promoteInt (outer : Nat) (x : Int) : Nat × MxFlags :=
  let s := (BitVec.ofNat 32 outer).toInt + x
  let r := satInt s minS32 maxS32
  ((BitVec.ofInt 32 r).toNat, if r = s then 0 else mxOVF)

/-! ### The epilogue -/

/-- The accumulator type at a point of the epilogue: an F32 or an S32 value. -/
structure MxVal where
  isFloat : Bool
  bits    : Nat
  flags   : MxFlags

/-- Bias (R179). -/
def biasStage (bias : Word) (x : MxVal) : MxVal :=
  if x.isFloat then
    let r := mxSum fF32 .rne (fdecode fF32 x.bits) (fdecode fF32 bias.toNat)
    { x with bits := r.1, flags := x.flags ||| r.2 }
  else
    let r := promoteInt x.bits bias.toInt
    { x with bits := r.1, flags := x.flags ||| r.2 }

/-- A value rounded to F32 (RNE). -/
def toF32 (v : FVal) : FVal := fdecode fF32 (packVal fF32 .rne v).1

/-- An all-zero table (R188); words 2 and 3 are ignored (R180). -/
def zeroTable (tbl : List Word) : Bool := tbl.zipIdx.all (fun q => q.1 == 0 || q.2 == 2 || q.2 == 3)

/-- The lookup of R180 in a table of 261 words: the result's code and its flags (log 28, DEDUCED). -/
def actLookup (tbl : List Word) (x : FVal) : Nat × MxFlags :=
  let w := fun i => fdecode fF32 (tbl.getD i 0).toNat
  if isNan x then (nanCode fF32, 0)
  else if zeroTable tbl then (0, 0)
  else
    let u := toF32 (mulVal (toF32 (addVal .rne x (fneg (w 0))).1) (w 1)).1
    match u with
    | .nan _ => (nanCode fF32, mxNV)
    | .inf n => ((packVal fF32 .rne (w (if n then 4 else 260))).1, 0)
    | .num n m e =>
      if n || m = 0 then ((packVal fF32 .rne (w 4)).1, 0)
      else
        let i := (roundInt .rz false m e).1.toNat
        if 256 ≤ i then ((packVal fF32 .rne (w 260)).1, 0)
        else
          let f := (addVal .rne u (.num (decide (0 < i)) i 0)).1
          let d := (addVal .rne (w (5 + i)) (fneg (w (4 + i)))).1
          ((packVal fF32 .rne (addVal .rne (w (4 + i)) (mulVal f d).1).1).1, 0)

/-- Activation (R179): an S32 value becomes F32 first. -/
def actStage (tbl : List Word) (x : MxVal) : MxVal :=
  let v := if x.isFloat then fdecode fF32 x.bits else toF32 (intVal (BitVec.ofNat 32 x.bits).toInt)
  let r := actLookup tbl v
  { isFloat := true, bits := r.1, flags := x.flags ||| r.2 }

/-- Width of a requantisation target (R177, R179). -/
def qtWidth (qt : Nat) : Nat := if qt = 2 then 4 else if qt = 4 then 16 else 8

/-- Format code (R124) of an integer target. -/
def qtCode (qt : Nat) : Nat := if qt = 0 then 10 else if qt = 1 then 11 else 12

/-- An integer clamped to an integer target. -/
def qtClamp (qt : Nat) (k : Int) : Nat × MxFlags :=
  let c := qtCode qt
  let r := satInt k (intLo c) (intHi c)
  (intCode (fmtWidth c) r, if r = k then 0 else mxOVF)

/-- A scaled value into a floating-point target with S = 1 (R47, R49). -/
def qtFloat (qt : Nat) (v : FVal) : Nat × MxFlags :=
  let r := toNarrow (if qt = 3 then fF8N else fF16) .rne true v
  (r.1, if r.2 &&& excOF != 0 || (qt == 3 && isInf v) then mxOVF else 0)

/-- Requantisation (R49): shift `s`, target `qt`. -/
def requant (s qt : Nat) (x : MxVal) : Nat × MxFlags :=
  let v : FVal :=
    if x.isFloat then
      match fdecode fF32 x.bits with
      | .num n m e => .num n m (e - s)
      | v => v
    else
      let k := (BitVec.ofNat 32 x.bits).toInt
      intVal (roundInt .rne (decide (k < 0)) k.natAbs (-(s : Int))).1
  let r : Nat × MxFlags :=
    if 3 ≤ qt then qtFloat qt v
    else match v with
      | .nan _ => (0, 0)
      | .inf n => (intCode (fmtWidth (qtCode qt)) (if n then intLo (qtCode qt) else intHi (qtCode qt)), mxOVF)
      | .num n m e => qtClamp qt (roundInt .rne n m e).1
  (r.1, x.flags ||| r.2)

/-! ### Elements of the operands (R172, R174) -/

/-- Formats of A and B of MMA and MMAS by SUB, as format codes of R124. -/
def mxFmtA (sub : Nat) : Nat :=
  if sub = 0 then 1 else if sub = 1 then 2 else if sub ≤ 3 then 3 else if sub ≤ 5 then 4 else if sub = 6 then 5
  else if sub ≤ 8 then 10 else 11
def mxFmtB (sub : Nat) : Nat :=
  if sub = 0 then 1 else if sub = 1 then 2 else if sub = 2 ∨ sub = 4 then 3 else if sub = 3 ∨ sub = 5 then 4
  else if sub = 6 then 5 else if sub = 7 ∨ sub = 9 then 10 else 11
def mxIsInt (op sub : Nat) : Bool := op == 0x2C2 || decide (7 ≤ sub)
/-- Depth K and K-step length L (R172). -/
def mxDepth (op sub : Nat) : Nat := if op = 0x2C2 then 160 else if sub ≤ 1 then 16 else if sub = 6 then 64 else 32
def mxStep (op sub : Nat) : Nat := if op = 0x2C2 then 160 else if sub ≤ 1 then 16 else 32
/-- The promotion interval P (R177). -/
def mxInterval (op : Nat) (cmd : BitVec 32) : Nat := (if op = 0x2C2 then 160 else 32) * 2 ^ (cmd.extractLsb' 0 2).toNat

/-- A floating-point element; F4's code 0b1000 takes the extra value (R41). -/
def mxFElem (code : Nat) (xv : Half) (x : Nat) : FVal :=
  if code = 5 ∧ x = 8 then fdecode fF16 xv.toNat else fdecode (fmtOf code) x

/-- Lists cut into pieces of `l`. -/
def chunkList {α : Type} (l : Nat) : Nat → List α → List (List α)
  | 0, _ => []
  | n + 1, xs => if xs.isEmpty then [] else xs.take l :: chunkList l n (xs.drop l)

/-- The hold word (R178): count / L and the inner state. -/
def holdF (count l : Nat) (x : FVal) : Word := BitVec.ofNat 32 (count / l * 2 ^ 24 + (packVal fE8M15 .rz x).1)
def holdInt (count l : Nat) (x : Int) : Word := BitVec.ofNat 32 (count / l * 2 ^ 24 + intCode 24 x)
def unholdF (h : Word) : FVal := fdecode fE8M15 (h.toNat % 2 ^ 24)
def unholdInt (h : Word) : Int := (h.extractLsb' 0 18).toInt

/-- One element before the epilogue: outer value, hold word, flags. -/
structure MxOut where
  outer : Nat
  hold  : Word
  flags : MxFlags

/-- An element of floating-point products: rows a and b of K elements. -/
def elemF (l p : Nat) (hi ho : Bool) (a b : List FVal) (outer : Nat) (h : Word) : MxOut :=
  let prods := (a.zip b).map (fun q => mxMul q.1 q.2)
  let r := mxElement innerAdd promoteF (.num false 0 0) l p ho (chunkList l prods.length prods) outer
    (if hi then unholdF h else .num false 0 0) (if hi then h.toNat / 2 ^ 24 * l else 0)
  ⟨r.outer, holdF r.count l r.inner, r.flags⟩

/-- An element of integer products. -/
def elemInt (l p : Nat) (hi ho : Bool) (a b : List Int) (outer : Nat) (h : Word) : MxOut :=
  let prods := (a.zip b).map (fun q => (q.1 * q.2, (0 : MxFlags)))
  let r := mxElement innerAddInt promoteInt 0 l p ho (chunkList l prods.length prods) outer
    (if hi then unholdInt h else 0) (if hi then h.toNat / 2 ^ 24 * l else 0)
  ⟨r.outer, holdInt r.count l r.inner, r.flags⟩

end Sys2Proof.Machine
end

