-- ==== Sys2Proof/Machine/MemInstr.lean ====
section
/-! DEFINITION. Memory instructions, opcodes 0x200 to 0x209 (R154 to R170), as they issue, and stores leaving their queue. -/

namespace Sys2Proof.Machine
open Sys2Proof

/-- The access of one executing lane with its captured operands: address, store data or operand b, value c of a
compare-and-swap. -/
structure MElem where
  slot : Nat
  lane : Nat
  va   : Dword
  b    : Nat := 0
  c    : Nat := 0
deriving DecidableEq, Repr

/-- The executing elements in the order of R104. -/
def execElems (ms : Members) : List (Nat × Nat) := ms.flatMap (fun m => (lanesOf m.exec).map (fun l => (m.slot, l)))

/-- Effective addresses (R158, R159). -/
def globalEa (s : State) (c : Nat) (f : Fields) (x l : Nat) : Dword := pairA s c x f l + f.imm.signExtend 64
def spmEa (s : State) (c : Nat) (f : Fields) (x l : Nat) : Dword := (opA s c x f l + f.imm).setWidth 64

/-- The access size of LD, ST, LDS and STS (R155). -/
def sizeOf155 (sub : Nat) : Nat := if sub ≤ 1 then 1 else if sub ≤ 3 then 2 else if sub = 4 then 4 else if sub = 5 then 8 else 16

/-- Registers of a size. -/
def regsOfSize (n : Nat) : Nat := if n ≤ 4 then 1 else n / 4

/-- Store data of a lane: one register, a pair or a run of four from B (R155). -/
def storeData (s : State) (c : Nat) (f : Fields) (n x l : Nat) : Nat :=
  ((List.range (regsOfSize n)).map (fun k => (readRun s c x fldB f.b k l).toNat * 2 ^ (32 * k))).foldl (· + ·) 0

/-- The width of an atomic: MOD[0] (R154). -/
def atomSize (f : Fields) : Nat := if f.mod.getLsbD 0 then 8 else 4

/-- Captured operands of an atomic: b, and c where the operation is `.cas` (R164). -/
def atomB (s : State) (c : Nat) (f : Fields) (x l : Nat) : Nat :=
  if f.mod.getLsbD 0 then (pairB s c x f l).toNat else (opB s c x f l).toNat
def atomC (s : State) (c : Nat) (f : Fields) (x l : Nat) : Nat :=
  if f.sub ≠ 9 then 0 else if f.mod.getLsbD 0 then (pairC s c x f l).toNat else (opC s c x f l).toNat

/-- The ordering of ATOM and RED (R154, R167): acquire and release scope codes. -/
def atomAcq (f : Fields) : Nat := if f.mod.getLsbD 1 then 4 else 0
def atomRel (f : Fields) : Nat := if f.mod.getLsbD 2 then 4 else 0

/-! ### Traps of an access -/

/-- Groups of an issue: those with an entry at the instruction. -/
def issueSlots (ms : Members) : List Nat := (ms.filter (fun m => m.active != 0)).map (·.slot)

/-- The groups that a trap of an issue suspends: every member, a vacant slot among them (R237, R139). -/
def suspends (ms : Members) : List Nat := ms.map (·.slot)

/-- The same of an instruction that traps while it executes: the members that issued it, and the vacant slots of its scope. -/
def withVacant (k : Core) (x : Nat) (sc : Scope) (xs : List Nat) : List Nat :=
  (slotsOf k ++ xs.filter (fun y => !(slotsOf k).contains y)).filter (fun y => xs.contains y ||
    ((membersAt k x sc false).contains y && (k.group y).frontier.isEmpty))

/-- Words 6 to 13 of a member's replay entry (R286). -/
def elemWords (es : List MElem) : SMap Word :=
  es.foldl (fun w e =>
    putWord64 (putWord64 (putWord64 (putWord64 w e.lane 6 e.va) e.lane 8 (BitVec.ofNat 64 e.b))
      e.lane 10 (BitVec.ofNat 64 (e.b / 2 ^ 64))) e.lane 12 (BitVec.ofNat 64 e.c)) []

/-- A load that issues again from a replay queue (R287): its number for all members, and each member's own, by slot. -/
structure Again where
  share : Nat
  ids   : List (Nat × Nat)
deriving DecidableEq, Repr

/-- A member's number of a load that issues again. -/
def Again.idOf (a : Option Again) (x : Nat) : Option Nat :=
  a.bind (fun a => (a.ids.find? (fun q => q.1 == x)).map (·.2))

/-- The KIND 000 entries of a trapping access, one for each member (R285, R286). -/
def elemReplays (i : Instr) (f : Fields) (pc : Dword) (xs : List Nat) (es : List MElem) (rep : Option (Nat × Nat))
    (share : Nat) (again : Option Again) : List (Nat × Replay) :=
  xs.map (fun x =>
    let mine := es.filter (fun e => e.slot == x)
    (x, { replayOf 0 i f pc (maskOf (mine.map (·.lane))) (elemWords mine) share xs with
          id := (Again.idOf again x).getD 0
          fl := match rep with
            | some (y, l) => if y = x then 1#64 <<< l else 0
            | none => 0 }))

/-- The trap of a failed check (R157, R280): nothing performed, the lanes go on at the next instruction. -/
def accessTrap (i : Instr) (f : Fields) (pc : Dword) (kind : Nat) (again : Option Again) (ms : Members) (es : List MElem)
    (x l cls : Nat) (addr : Dword) (s : State) : Res :=
  .trap true { cls := cls, info := BitVec.ofNat 32 (l * 16 + kind), addr := addr, pc := pc, slots := suspends ms,
               origin := x, replay := elemReplays i f pc (issueSlots ms) es (some (x, l)) s.serial again }
    { s with serial := s.serial + 1 }

/-! ### Before an access performs -/

/-- An acquire of some member is in progress: its loads and atomics wait (R163). -/
def acqOpen (k : Core) (xs : List Nat) : Bool := xs.any (fun x => !(k.group x).acqs.isEmpty)

/-- Acquires that are over end, before a load or an atomic issues. -/
def settled (s : State) (c : Nat) (xs : List Nat) : State :=
  if acqOpen (getCore s c) xs then updCore s c (fun k => settleAcqs k c) else s

/-- The requests of an issue fit (R157, R228): one for each sector that its executing lanes name (log 85, DEDUCED). -/
def roomFor (k : Core) (n : Nat) (xs : List Nat) (es : List MElem) : Bool :=
  requestsFit k (laneSectors n (es.map (·.va.toNat))).length
    (xs.map (fun x => (x, (laneSectors n ((es.filter (fun e => e.slot == x)).map (·.va.toNat))).length)))

/-- Checks of all elements: R158 for global accesses, R159 for scratchpad ones. -/
def checkElems (s : State) (c : Nat) (spm : Bool) (size need : Nat) (es : List MElem) : State × Chk :=
  if spm then (s, checkSpms s c size (es.map (fun e => (e.slot, e.lane, e.va.setWidth 32))))
  else checkGlobals s c size need (es.map (fun e => (e.slot, e.lane, e.va)))

/-- Results of walks used up by an access that has been decided. -/
def usedWalks (s : State) (c : Nat) (es : List MElem) : State :=
  (dedup (es.map (·.slot))).foldl (fun s x =>
    useWalks s c x 1 ((es.filter (fun e => e.slot == x)).map (fun e => pageOf e.va))) s

/-- Room for the requests comes first, then the checks (R157); `go` has the accesses. -/
def withChecks (i : Instr) (f : Fields) (pc : Dword) (kind : Nat) (again : Option Again) (spm : Bool) (size need : Nat)
    (ms : Members) (es : List MElem) (s : State) (go : List Acc → State → Res) : Res :=
  let c := s.cur.1
  if !roomFor (getCore s c) size (issueSlots ms) es then .wait s
  else match checkElems s c spm size need es with
    | (s1, .wait) => .stay s1
    | (s1, .full) => .wait s1
    | (s1, .fail x l cls addr) => accessTrap i f pc kind again ms es x l cls addr (usedWalks s1 c es)
    | (s1, .ok as) => go as (usedWalks s1 c es)

/-! ### Loads -/

def overlaps (a n b m : Nat) : Bool := runsMeet a n b m

/-- The bytes `n` from `a` as a number, out of `m` bytes from `b` that hold the value `v`. -/
def cutBytes (v b a n : Nat) : Nat := v / 256 ^ (a - b) % 256 ^ n

/-- What the store queue holds of an access (R161): nothing, a value that covers it with the store and the lane that it comes
from, or a reason to wait. -/
inductive Fwd where
  | none | value (v inst lane : Nat) | wait
deriving DecidableEq, Repr

/-- One queued item, seen before those younger than it. -/
def fwdItem (spm : Bool) (a n : Nat) (old : Fwd) (q : QItem) : Fwd :=
  if q.kind = .fence || q.spm != spm then old
  else
    let hits := q.lanes.filter (fun l => overlaps l.addr q.size a n)
    match hits.getLast? with
    | none =>
      if q.kind ≠ .st ∧ !spm ∧ q.lanes.any (fun l => l.addr / 64 == a / 64) then .wait else old
    | some l =>
      if q.kind = .st ∧ l.addr ≤ a ∧ a + n ≤ l.addr + q.size then .value (cutBytes l.b l.addr a n) q.inst l.lane else .wait

def fwdPart (g : Group) (spm : Bool) (a n : Nat) : Fwd := g.storeq.foldl (fwdItem spm a n) .none

/-- Forwarding for a whole access; one of 16 bytes takes its two halves from one store or waits (R161, R162) (log 20,
DEDUCED). -/
def forward (g : Group) (spm : Bool) (a n : Nat) : Fwd :=
  if n ≤ 8 then fwdPart g spm a n
  else match fwdPart g spm a 8, fwdPart g spm (a + 8) 8 with
    | .none, .none => .none
    | .value u i l, .value v j m => if i = j ∧ l = m then .value (u + v * 2 ^ 64) i l else .wait
    | _, _ => .wait

/-- An ATOM or ATOMS of the group outstanding to the sector (R161). -/
def atomOutstanding (g : Group) (spm : Bool) (a n : Nat) : Bool :=
  g.loads.any (fun r => decide (r.kind = if spm then .atoms else .atom) &&
    r.lanes.any (fun l => if spm then overlaps l.addr r.size a n else l.addr / 64 == a / 64))

def mustWait (g : Group) (spm : Bool) (n : Nat) (as : List Acc) : Bool :=
  as.any (fun a => forward g spm a.addr n == .wait || atomOutstanding g spm a.addr n)

/-- The result of a load or atomic: a register write whose value is not known yet. -/
def pendFor (id : Nat) (d : BitVec 10) (n : Nat) (m : Mask) : List Pend :=
  if d.toNat = vnull then [] else [{ id := id, lanes := m, regs := destRegs d n, ready := false }]

/-- The accesses of a lane: one, or two of 8 bytes (R162), with what the store queue gives (`fwd`). -/
def pieces (size : Nat) (a : Acc) (b c : Nat) (fwd : Option Nat) : List LdLane :=
  let low : LdLane := { lane := a.lane, va := a.va, addr := a.addr, b := b, c := c, val := fwd }
  if size ≤ 8 then [low]
  else [{ low with val := fwd.map (· % 2 ^ 64) },
        { low with half := true, va := a.va + 8, addr := a.addr + 8, val := fwd.map (· / 2 ^ 64) }]

/-- The lanes of a member's load as they issue. -/
def loadLanes (g : Group) (kind : LKind) (size : Nat) (x : Nat) (as : List Acc) (es : List MElem) : List LdLane :=
  as.flatMap (fun a =>
    let e := (es.find? (fun e => e.slot == x && e.lane == a.lane)).getD ⟨x, a.lane, a.va, 0, 0⟩
    pieces size a e.b e.c (if kind = .atom ∨ kind = .atoms then none else
      match forward g (scratch kind) a.addr size with
      | .value v _ _ => some v
      | _ => none))

/-- Sign or zero extension of the value read, by registers (R155, R160). -/
def loadWords (kind : LKind) (f : Fields) (size v : Nat) : List Word :=
  if kind = .ld ∨ kind = .lds then
    if f.sub = 1 then [(BitVec.ofNat 8 v).signExtend 32]
    else if f.sub = 3 then [(BitVec.ofNat 16 v).signExtend 32]
    else (List.range (regsOfSize size)).map (fun k => BitVec.ofNat 32 (v / 2 ^ (32 * k)))
  else (List.range (regsOfSize size)).map (fun k => BitVec.ofNat 32 (v / 2 ^ (32 * k)))

/-- The value of a lane of a load, of both halves where it has two, and whether an error has struck it. -/
def laneTotal (r : LoadRec) (lane : Nat) : Nat :=
  ((r.lanes.filter (fun l => l.lane == lane)).map (fun l => l.val.getD 0 * (if l.half then 2 ^ 64 else 1))).foldl (· + ·) 0
def laneStruck (r : LoadRec) (lane : Nat) : Bool := r.lanes.any (fun l => l.lane == lane && l.bad)

/-- The cells of a load that have their values so far: of a lane that the whole access has, or of the half that it has, until the
load is over (R69, R162). -/
def knownCells (r : LoadRec) : List (Nat × Word) :=
  if r.f.d.toNat = vnull then []
  else (r.lanes.filter (fun l => l.val.isSome && !laneStruck r l.lane)).flatMap (fun l =>
    (loadWords r.kind r.f r.piece (l.val.getD 0)).zipIdx.map (fun q =>
      (cellKey (r.f.d.toNat + q.2 + (if l.half then 2 else 0)) l.lane, q.1)))

/-- A load whose value some lanes have: readers may see it there (R69). -/
def showKnown (g : Group) (id : Nat) : Group :=
  match g.loads.find? (fun r => r.id == id) with
  | none => g
  | some r => { g with pend := g.pend.map (fun p => if p.id = id then { p with cells := knownCells r } else p) }

/-- One member's outstanding load. -/
def addLoad (c : Nat) (kind : LKind) (f : Fields) (pc : Dword) (size share : Nat) (again : Option Again) (xs : List Nat)
    (as : List Acc) (es : List MElem) (s : State) (x : Nat) : State :=
  let mine := as.filter (fun a => a.slot == x)
  if mine.isEmpty then s
  else
    let id := (Again.idOf again x).getD s.serial
    let g := getGroup s c x
    let rec' : LoadRec :=
      { id := id, share := share, kind := kind, f := f, pc := pc, size := size, member := xs,
        lanes := loadLanes g kind size x mine es,
        install := if kind = .ld then laneSectors size (mine.map (·.addr)) else [] }
    let s1 := { s with serial := s.serial + 1 }
    let s2 := match pendFor id f.d (regsOfSize size) (maskOf (mine.map (·.lane))) with
      | [] => s1
      | p :: _ => postPend s1 c x p
    updGroup s2 c x (fun g => showKnown { g with loads := g.loads ++ [rec'], replays := g.replays.filter (fun i => i != id) } id)

/-- Numbers of the loads of an issue, whichever member they are of. -/
def issueIds (k : Core) (share : Nat) : List Nat :=
  k.groups.flatMap (fun g => (g.2.loads.filter (fun r => r.share == share)).map (·.id))

/-- The acquire of a load or an atomic acts on every member of its issue (R163), once where the load issues again. -/
def addAcq (c acq share : Nat) (s : State) (x : Nat) : State :=
  let ids := issueIds (getCore s c) share
  updGroup s c x (fun g =>
    if acq = 0 || g.acqs.any (fun a => a.first.any (fun i => ids.contains i)) then g
    else { g with acqs := g.acqs ++ [{ first := ids, loads := g.loads.map (·.id) ++ ids, items := [], wide := decide (2 ≤ acq) }] })

/-- LD and LDS with captured addresses (R157, R160, R161, R163, R285). One that issues again had issued before every acquire in
progress, its own apart, and waits for none (R287). -/
def loadElems (i : Instr) (spm : Bool) (f : Fields) (pc : Dword) (again : Option Again) (ms : Members) (es : List MElem)
    (s0 : State) : Res :=
  let c := s0.cur.1
  let xs := issueSlots ms
  let size := sizeOf155 f.sub.toNat
  if es.isEmpty then .ok s0
  else
    let s := settled s0 c xs
    if (again.isNone && acqOpen (getCore s c) xs) || (!spm && !xs.all (inFlight31 s c)) then .wait s
    else withChecks i f pc 1 again spm size 1 ms es s (fun as s1 =>
      if xs.any (fun x => mustWait (getGroup s1 c x) spm size (as.filter (fun a => a.slot == x))) then .wait s1
      else
        let share := (again.map (·.share)).getD s1.serial
        let s2 := xs.foldl (addLoad c (if spm then .lds else .ld) f pc size share again xs as es) s1
        .ok (xs.foldl (addAcq c f.mod.toNat share) s2))

def addrElems (ea : Nat → Nat → Dword) (ms : Members) : List MElem :=
  (execElems ms).map (fun q => ⟨q.1, q.2, ea q.1 q.2, 0, 0⟩)

/-- LD (R160). -/
def performLd (f : Fields) (pc : Dword) (ms : Members) (s : State) : Res :=
  loadElems (.ld f) false f pc none ms (addrElems (globalEa s s.cur.1 f) ms) s
def execLd (f : Fields) (s : State) : Host.Outcome State Fault Refusal := issue 0x200 f (performLd f) s

/-- LDS (R160). -/
def performLds (f : Fields) (pc : Dword) (ms : Members) (s : State) : Res :=
  loadElems (.lds f) true f pc none ms (addrElems (spmEa s s.cur.1 f) ms) s
def execLds (f : Fields) (s : State) : Host.Outcome State Fault Refusal := issue 0x202 f (performLds f) s

/-! ### Stores, atomics and reductions -/

/-- What a write waits for in the queue (R163, R272): the loads of acquires in progress, and for a release every earlier load
of every member of its issue. -/
def queueWaits (k : Core) (xs : List Nat) (x rel : Nat) : List Nat :=
  (if rel = 0 then [] else loadsOf k xs) ++ (k.group x).acqs.flatMap (·.first)

/-- Writes of the other members that a release waits for (R163): to have performed at core scope, or to be acknowledged. -/
def queueAfter (k : Core) (xs : List Nat) (x rel : Nat) : List Nat :=
  if rel = 0 then [] else (xs.filter (fun y => y != x)).flatMap (writeIds k)

/-- Lanes of one instruction perform in an order that the module does not fix (R165) (log 78, DESIGN CHOICE). -/
def laneOrder (s : State) (x : Nat) (ls : List QLane) : List QLane := sortNat (fun l => freeNatAt s 10 x 0 l.lane) ls

/-- Queue items of a store: one of 16 bytes is two of 8, the lower half first (R162). -/
def storeItems (q : QItem) (size : Nat) : List QItem :=
  if size ≤ 8 then [{ q with size := size }]
  else [{ q with size := 8, lanes := q.lanes.map (fun l => { l with b := l.b % 2 ^ 64 }) },
        { q with id := q.id + 1, size := 8, rel := 0, waits := [], after := [],
                 lanes := q.lanes.map (fun l => { l with addr := l.addr + 8, va := l.va + 8, b := l.b / 2 ^ 64 % 2 ^ 64 }) }]

def queueLanes (as : List Acc) (es : List MElem) (x : Nat) : List QLane :=
  (as.filter (fun a => a.slot == x)).map (fun a =>
    let e := (es.find? (fun e => e.slot == x && e.lane == a.lane)).getD ⟨x, a.lane, a.va, 0, 0⟩
    { lane := a.lane, va := a.va, addr := a.addr, b := e.b, c := e.c })

/-- Sectors whose 64 bytes the accesses of an issue cover (R260). -/
def coveredBy (size : Nat) (as : List Acc) : List Nat :=
  (laneSectors size (as.map (·.addr))).filter (fun q =>
    decide (64 ≤ (dedup ((as.filter (fun a => a.addr / 64 == q)).map (·.addr))).length * size))

/-- One member's store enters its queue. A release acts on a member with no executing lane too: a store that writes nothing
(R163). -/
def addStore (c size rel : Nat) (spm : Bool) (xs : List Nat) (inst : Nat) (as : List Acc) (es : List MElem) (k0 : Core)
    (s : State) (x : Nat) : State :=
  let ls := laneOrder s x (queueLanes as es x)
  let q : QItem :=
    { id := s.serial, kind := if ls.isEmpty then .fence else .st, spm := spm && !ls.isEmpty, size := 1, lanes := ls, rel := rel,
      waits := queueWaits k0 xs x rel, after := queueAfter k0 xs x rel, inst := inst,
      writer := groupWriter c x (k0.group x).born, edges := edgesAt k0 c x rel inst xs,
      covers := if spm then [] else coveredBy size as }
  if ls.isEmpty && rel == 0 then s
  else updGroup { s with serial := s.serial + 2 } c x (fun g => { g with
    storeq := g.storeq ++ (if ls.isEmpty then [q] else storeItems q size) })

/-- ST and STS with captured operands (R157, R161). -/
def storeElems (i : Instr) (spm : Bool) (f : Fields) (pc : Dword) (ms : Members) (es : List MElem) (s : State) : Res :=
  let c := s.cur.1
  let xs := issueSlots ms
  let size := sizeOf155 f.sub.toNat
  if es.isEmpty then .ok s
  else withChecks i f pc 2 none spm size 2 ms es s (fun as s1 =>
    .ok (xs.foldl (addStore c size f.mod.toNat spm xs s1.serial as es (getCore s1 c)) s1))

def dataElems (s : State) (f : Fields) (ea : Nat → Nat → Dword) (ms : Members) : List MElem :=
  (execElems ms).map (fun q =>
    ⟨q.1, q.2, ea q.1 q.2, storeData s s.cur.1 f (sizeOf155 f.sub.toNat) q.1 q.2, 0⟩)

/-- ST (R161). -/
def performSt (f : Fields) (pc : Dword) (ms : Members) (s : State) : Res :=
  storeElems (.st f) false f pc ms (dataElems s f (globalEa s s.cur.1 f) ms) s
def execSt (f : Fields) (s : State) : Host.Outcome State Fault Refusal := issue 0x201 f (performSt f) s

/-- STS (R161). -/
def performSts (f : Fields) (pc : Dword) (ms : Members) (s : State) : Res :=
  storeElems (.sts f) true f pc ms (dataElems s f (spmEa s s.cur.1 f) ms) s
def execSts (f : Fields) (s : State) : Host.Outcome State Fault Refusal := issue 0x203 f (performSts f) s

/-- The sectors of global atomics are dropped from L1 at issue (R166). -/
def dropSectors (s : State) (c : Nat) (as : List Acc) : State :=
  updCore s c (fun k => (dedup (as.map (fun a => a.addr / 64))).foldl l1DropSector k)

/-- One member's atomic or reduction enters its queue, or where no lane of it executes the release that acts on it. -/
def addAtomic (c : Nat) (kind : QKind) (spm : Bool) (f : Fields) (rel : Nat) (src : Option (Fields × Dword × List Nat))
    (xs : List Nat) (inst : Nat) (as : List Acc) (es : List MElem) (k0 : Core) (id : Nat) (s : State) (x : Nat) : State :=
  let ls := laneOrder s x (queueLanes as es x)
  if ls.isEmpty && rel == 0 then s
  else updGroup s c x (fun g => { g with
    storeq := g.storeq ++ [{ id := id, kind := if ls.isEmpty then .fence else kind, spm := spm && !ls.isEmpty, size := atomSize f,
                             aop := f.sub.toNat, lanes := ls, rel := rel, waits := queueWaits k0 xs x rel,
                             after := queueAfter k0 xs x rel, inst := inst, src := src,
                             writer := groupWriter c x g.born, edges := edgesAt k0 c x rel inst xs }] })

/-- ATOM and ATOMS: a load record and a queue item with one number. -/
def addAtom (c : Nat) (spm : Bool) (f : Fields) (pc : Dword) (share : Nat) (xs : List Nat) (as : List Acc)
    (es : List MElem) (k0 : Core) (s : State) (x : Nat) : State :=
  let s1 := addAtomic c .atom spm f (if spm then 0 else atomRel f) none xs share as es k0 s.serial s x
  addLoad c (if spm then .atoms else .atom) f pc (atomSize f) share none xs as es
    (if as.any (fun a => a.slot == x) then s1 else { s1 with serial := s1.serial + 1 }) x

/-- ATOM and ATOMS with captured operands (R165 to R167). -/
def atomElems (i : Instr) (spm : Bool) (f : Fields) (pc : Dword) (ms : Members) (es : List MElem) (s0 : State) : Res :=
  let c := s0.cur.1
  let xs := issueSlots ms
  if es.isEmpty then .ok s0
  else
    let s := settled s0 c xs
    if acqOpen (getCore s c) xs then .wait s
    else withChecks i f pc 3 none spm (atomSize f) 3 ms es s (fun as s1 =>
      let s2 := if spm then s1 else dropSectors s1 c as
      let s3 := xs.foldl (addAtom c spm f pc s2.serial xs as es (getCore s2 c)) s2
      .ok (xs.foldl (addAcq c (if spm then 0 else atomAcq f) s2.serial) s3))

def atomOperands (s : State) (f : Fields) (ea : Nat → Nat → Dword) (ms : Members) : List MElem :=
  (execElems ms).map (fun q => ⟨q.1, q.2, ea q.1 q.2, atomB s s.cur.1 f q.1 q.2, atomC s s.cur.1 f q.1 q.2⟩)

/-- ATOM (R165). -/
def performAtom (f : Fields) (pc : Dword) (ms : Members) (s : State) : Res :=
  atomElems (.atom f) false f pc ms (atomOperands s f (globalEa s s.cur.1 f) ms) s
def execAtom (f : Fields) (s : State) : Host.Outcome State Fault Refusal := issue 0x204 f (performAtom f) s

/-- ATOMS (R165). -/
def performAtoms (f : Fields) (pc : Dword) (ms : Members) (s : State) : Res :=
  atomElems (.atoms f) true f pc ms (atomOperands s f (spmEa s s.cur.1 f) ms) s
def execAtoms (f : Fields) (s : State) : Host.Outcome State Fault Refusal := issue 0x205 f (performAtoms f) s

/-- One member's reduction. -/
def addRed (c : Nat) (f : Fields) (pc : Dword) (xs : List Nat) (inst : Nat) (as : List Acc) (es : List MElem) (k0 : Core)
    (s : State) (x : Nat) : State :=
  addAtomic c .red false f (atomRel f) (some (f, pc, xs)) xs inst as es k0 s.serial { s with serial := s.serial + 1 } x

/-- Numbers of the queue items of an issue. -/
def issueItems (k : Core) (inst : Nat) : List Nat :=
  k.groups.flatMap (fun g => (g.2.storeq.filter (fun q => q.inst == inst)).map (·.id))

/-- An acquiring reduction lets later loads of every member issue once it has performed (R163, R167). -/
def addRedAcq (c : Nat) (f : Fields) (inst : Nat) (s : State) (x : Nat) : State :=
  let items := issueItems (getCore s c) inst
  if atomAcq f = 0 then s
  else updGroup s c x (fun g => { g with
    acqs := g.acqs ++ [{ first := g.loads.map (·.id), loads := g.loads.map (·.id), items := items, wide := true, acked := true }] })

/-- RED with captured operands (R165 to R167). -/
def redElems (i : Instr) (f : Fields) (pc : Dword) (ms : Members) (es : List MElem) (s : State) : Res :=
  let c := s.cur.1
  let xs := issueSlots ms
  if es.isEmpty then .ok s
  else withChecks i f pc 4 none false (atomSize f) 2 ms es s (fun as s1 =>
    let s2 := dropSectors s1 c as
    let s3 := xs.foldl (addRed c f pc xs s2.serial as es (getCore s2 c)) s2
    .ok (xs.foldl (addRedAcq c f s2.serial) s3))

/-- RED (R165). -/
def performRed (f : Fields) (pc : Dword) (ms : Members) (s : State) : Res :=
  redElems (.red f) f pc ms (atomOperands s f (globalEa s s.cur.1 f) ms) s
def execRed (f : Fields) (s : State) : Host.Outcome State Fault Refusal := issue 0x206 f (performRed f) s

/-! ### FENCE, CCTL, PREF -/

/-- What an acquire fence of some groups at a place tells one of them (R270): the edges of what their loads have returned, now, and
of those still outstanding once they return. -/
def fenceLearns (k0 : Core) (c scope id : Nat) (xs : List Nat) (g : Group) : Group :=
  let open' := fun (a : Fenced) => g.loads.any (fun r => decide (r.id < a.at'))
  learn (toldBy (xs.flatMap (fun x => (k0.group x).loose)) c scope) id
    { g with acquires := (g.acquires ++ [({ at' := id, scope := scope, slots := xs } : Fenced)]).filter open' }

/-- One member's fence (R168): a queue item for its release, an acquire for its acquire part, which for `.ar` also waits
for the item (R271). It orders the accesses of every member. -/
def fenceMember (c : Nat) (f : Fields) (xs : List Nat) (k0 : Core) (s : State) (x : Nat) : State :=
  let scope := f.sub.toNat
  let wide := decide (2 ≤ scope)
  let id := s.serial
  let acq := f.mod.getLsbD 0
  let rel := f.mod.getLsbD 1
  let es := (edgesAt k0 c x scope id xs).take 1
  updGroup { s with serial := id + 1 } c x (fun g0 =>
    let g := if acq then fenceLearns k0 c scope id xs g0 else g0
    { g with
    releases := if rel then joinEdges g.releases es else g.releases
    storeq := if rel then g.storeq ++ [{ id := id, kind := .fence, spm := false, size := 1, lanes := [], rel := scope,
                                         waits := queueWaits k0 xs x scope, after := queueAfter k0 xs x scope,
                                         writer := groupWriter c x g.born, edges := es }] else g.storeq
    acqs := if acq then g.acqs ++ [{ first := loadsOf k0 xs, loads := loadsOf k0 xs,
                                     items := if rel then [id] else [], wide := wide, acked := wide }] else g.acqs })

/-- FENCE (R168). One whose predicate fails in every lane of every member orders nothing (log 82, DESIGN CHOICE). -/
def performFence (f : Fields) (_pc : Dword) (ms : Members) (s : State) : Res :=
  let c := s.cur.1
  let xs := issueSlots ms
  if ms.all (fun m => m.exec == 0) then .ok s
  else .ok (updCore (xs.foldl (fenceMember c f xs (getCore s c)) s) c (fun k => settleAcqs k c))
def execFence (f : Fields) (s : State) : Host.Outcome State Fault Refusal := issue 0x207 f (performFence f) s

/-- A line's cache control (R169). -/
def cctlLine (s : State) (c sub pa : Nat) : State :=
  let line := pa / 256
  if sub = 0 then updCore s c (fun k => (List.range 4).foldl (fun k i => l1DropSector k (line * 4 + i)) k)
  else match l2Find s line with
    | none => s
    | some q =>
      if sub = 2 then l2Clean s q
      else if sub = 3 then l2Evict s q
      else l2Upd s line (fun q => { q with rrpv := 3 })

/-- Addresses of CCTL that pass R158: those that fail make it do nothing for the lane; a walk may be awaited. The manual names
no permission for CCTL and PREF: they ask for read, of one byte (log 86, DESIGN CHOICE). -/
def quietAccs (s : State) (c : Nat) : List (Nat × Nat × Dword) → State × Chk
  | [] => (s, .ok [])
  | (x, l, ea) :: rest =>
    match checkGlobal s c x 1 1 ea with
    | (s1, .fault _) => quietAccs s1 c rest
    | (s1, .pa a) => let r := quietAccs s1 c rest; (r.1, r.2.push ⟨x, l, ea, a⟩)
    | (s1, .wait) => let r := quietAccs s1 c rest; (r.1, if r.2 = .full then .full else .wait)
    | (s1, .full) => ((quietAccs s1 c rest).1, .full)

def lineElems (s : State) (f : Fields) (ms : Members) : List (Nat × Nat × Dword) :=
  (execElems ms).map (fun q => (q.1, q.2, globalEa s s.cur.1 f q.1 q.2))

def usedQuiet (s : State) (c : Nat) (es : List (Nat × Nat × Dword)) : State :=
  es.foldl (fun s e => useWalks s c e.1 1 [pageOf e.2.2]) s

/-- CCTL (R169). -/
def performCctl (f : Fields) (_pc : Dword) (ms : Members) (s : State) : Res :=
  let c := s.cur.1
  let sub := f.sub.toNat
  if ms.all (fun m => m.exec == 0) then .ok s
  else if sub = 1 then .ok (updCore s c l1DropAll)
  else
    let es := lineElems s f ms
    match quietAccs s c es with
    | (s1, .ok as) => .ok (as.foldl (fun s a => cctlLine s c sub a.addr) (usedQuiet s1 c es))
    | (s1, .full) => .wait s1
    | (s1, _) => .stay s1
def execCctl (f : Fields) (s : State) : Host.Outcome State Fault Refusal := issue 0x208 f (performCctl f) s

/-- The sectors a PREF asks for, by address (R170). -/
def prefSectors (f : Fields) (ea : Dword) : List Dword :=
  if f.mod.getLsbD 0 then (List.range 4).map (fun i => (ea &&& ~~~(0xFF : Dword)) + BitVec.ofNat 64 (64 * i))
  else [ea &&& ~~~(0x3F : Dword)]

/-- The number of a context as a prefetch of it waits for a walk: its group waits for none (R170). -/
def prefCtx (x : Nat) : Nat := x + 64

/-- A prefetched sector of a member is asked for: not where its address fails a check; untranslated where a walk is to be
awaited. -/
def addPref (c share : Nat) (f : Fields) (s : State) (w : Nat × Dword) : State :=
  let add := fun (s : State) (sec : Option Nat) =>
    updCore { s with serial := s.serial + 1 } c (fun k => { k with
      prefs := k.prefs ++ [{ id := s.serial, ctx := w.1, share := share, va := w.2, sector := sec, hint := f.hint.toNat,
                             install := !f.mod.getLsbD 1 }] })
  match checkGlobal s c (prefCtx w.1) 1 1 w.2 with
  | (s1, .fault _) => useWalks s1 c (prefCtx w.1) 1 [pageOf w.2]
  | (s1, .pa a) => add (useWalks s1 c (prefCtx w.1) 1 [pageOf w.2]) (some (a / 64))
  | (s1, _) => add s1 none

/-- PREF (R170): requests that count until served. -/
def performPref (f : Fields) (_pc : Dword) (ms : Members) (s : State) : Res :=
  let c := s.cur.1
  if ms.all (fun m => m.exec == 0) then .ok s
  else
    let es := lineElems s f ms
    let xs := issueSlots ms
    let per := xs.map (fun x => (x, dedup ((es.filter (fun e => e.1 == x)).flatMap (fun e => (prefSectors f e.2.2).map (·.toNat)))))
    let all := dedup (per.flatMap (·.2))
    if requestsFit (getCore s c) all.length (per.map (fun q => (q.1, q.2.length))) then
      .ok ((per.flatMap (fun q => q.2.map (fun a => (q.1, BitVec.ofNat 64 a)))).foldl (addPref c s.serial f)
        { s with serial := s.serial + 1 })
    else .wait s
def execPref (f : Fields) (s : State) : Host.Outcome State Fault Refusal := issue 0x209 f (performPref f) s

/-! ### Stores leave the queue -/

/-- A write under way has not performed at core scope (R267): an atomic, a reduction, or a store to a mate's bank. -/
def unperformed (w : Flight) : Bool := w.item.kind != .st || w.item.spm

/-- Whether the oldest item of a queue may leave (R161, R163, R265, R267, R272): the loads and the writes of other members that it
waits for are over, every earlier write of its group has performed at core scope, and at a wide release every write that happens
before it, of whichever group, is acknowledged; earlier loads of its bytes have their values. -/
def mayLeave (k : Core) (c x : Nat) (q : QItem) : Bool :=
  let g := k.group x
  q.waits.all (loadReturned k) &&
  q.after.all (fun i => if 2 ≤ q.rel then acknowledged k i else performedCore k c i) &&
  k.flight.all (fun w => w.ctx != x || (decide (q.rel ≤ 1) && !unperformed w)) && coveredDone k q.edges &&
  g.loads.all (fun r => decide (q.id ≤ r.id) || (decide (r.kind = .atom) || decide (r.kind = .atoms)) ||
    r.lanes.all (fun l => l.val.isSome || (decide (r.kind = .lds) != q.spm) ||
      q.lanes.all (fun m => !overlaps m.addr q.size l.addr r.piece)))

def laneBytes (q : QItem) (l : QLane) : List Byte := natToBytes q.size l.b

/-- Whether the target of a scratchpad lane is the issuing core's own. -/
def ownBank (c : Nat) (l : QLane) : Bool := l.addr / 327680 == c

/-- Earlier writes of the core under way to a lane's bytes keep their order before it. -/
def flightClear (k : Core) (id : Nat) (spm : Bool) (l : QLane) (n : Nat) : Bool :=
  (k.flight.takeWhile (fun w => w.id != id)).all (fun w => w.item.spm != spm ||
    w.item.lanes.all (fun m => !overlaps m.addr w.item.size l.addr n))

/-- The bytes of a group's write carry its edges where they are written, among them that of the core store order (R267, R270). -/
def markTrail (s : State) (c : Nat) (q : QItem) (l : QLane) : State :=
  { s with trails := trailWrite s.trails q.spm l.addr q.size (orderEdge (getCore s c) c :: q.edges) (q.kind != .st) }

/-- A scratchpad lane of a group's write is written in its bank (R161, R253). -/
def bankWrite (s : State) (c : Nat) (q : QItem) (l : QLane) : State :=
  markTrail (spoilTiles (spmWrite s q.writer q.id l.addr (laneBytes q l)) l.addr q.size) c q l

/-- A store reaches L1 (R257), and its edges with it. -/
def l1Take (c : Nat) (q : QItem) (k : Core) (l : QLane) : Core :=
  let k1 := l1Store k l.addr (laneBytes q l) (fun _ => false)
  if (l1Sector k (l.addr / 64)).isNone then k1
  else { k1 with trails := trailWrite k1.trails false l.addr q.size (orderEdge k c :: q.edges) false }

/-- What leaving does: L1 updated (R257), own banks written (R267), the rest under way to its home or bank. A store to memory or to
the core's own bank performs at core scope. -/
def leaveQueue (s : State) (c x : Nat) (q : QItem) : State :=
  let fly := fun (ls : List QLane) (s : State) =>
    if ls.isEmpty then s else updCore s c (fun k => { k with flight := k.flight ++ [⟨q.id, x, { q with lanes := ls }⟩] })
  match q.kind with
  | .fence => s
  | .st =>
    if q.spm then
      let mates := q.lanes.filter (fun l => !ownBank c l)
      let s1 := (q.lanes.filter (ownBank c)).foldl (fun s l => bankWrite s c q l) s
      fly mates (if mates.isEmpty then updCore s1 c (notePerformed q) else s1)
    else fly q.lanes (updCore s c (fun k => notePerformed q (q.lanes.foldl (l1Take c q) k)))
  | _ => fly q.lanes s

/-- STORE_LEAVE_QUEUE (R161, R163). -/
def execStoreLeaveQueue (core ctx : Nat) (s : State) : Host.Outcome State Fault Refusal :=
  let k := getCore s core
  match (k.group ctx).storeq with
  | [] => .next s
  | q :: rest =>
    if mayLeave k core ctx q &&
        (!q.spm || q.kind != .st || q.lanes.all (fun l => !ownBank core l || flightClear k q.id true l q.size)) then
      let s1 := leaveQueue (updGroup s core ctx (fun g => { g with storeq := rest })) core ctx q
      .next (updCore s1 core (fun k => settleAcqs k core))
    else .next s

end Sys2Proof.Machine
end

