-- ==== Sys2Proof/Machine/Matrix.lean ====
section
/-! DEFINITION. Matrix instructions, opcodes 0x2C0 to 0x2C6 (R171 to R190), and the matrix engine's own steps: granting
passes (R186) and completing (R178, R182). -/

namespace Sys2Proof.Machine
open Sys2Proof

/-! ### Handles (R182, R192, R193) -/

/-- A register of a group is a pending handle. -/
def isPending (g : Group) (r : Nat) : Bool := g.handles.any (fun h => h.reg == r)

/-- HX (R193): D is pending already in some member. -/
def hxTrap (f : Fields) (pc : Dword) (xs : List Nat) (y : Nat) (s : State) : Res :=
  .trap false { cls := clsHX, info := f.d.setWidth 32, pc := pc, slots := xs, origin := y } s

def pendingSlot (k : Core) (r : Nat) (xs : List Nat) : Option Nat := xs.find? (fun x => isPending (k.group x) r)

/-- D becomes pending for an operation. A copy or LPOST whose D is 1023 has no pending handle: it raises no HX, counts toward no
limit, and its completion word goes nowhere (R13) (log 25, DESIGN CHOICE). -/
def addHandle (s : State) (c x r op : Nat) : State :=
  if r = vnull then s
  else updGroup s c x (fun g => { g with handles := g.handles ++ [⟨r, op⟩] })

/-- A completion word reaches the handle register that an operation's pendency has moved to (R192, R194), in every lane;
the pendency ends. -/
def completeHandle (s : State) (c x op : Nat) (word : Word) : State :=
  match (getGroup s c x).handles.find? (fun h => h.op == op) with
  | none => s
  | some h => writeAllLanes (updGroup s c x (fun g => { g with handles := g.handles.filter (fun q => q.op != op) })) c x h.reg word

/-- A copy's completion word: the group that reads it knows the copy's writes (R274). -/
def completeCopyHandle (s : State) (c x op : Nat) (word : Word) : State :=
  match (getGroup s c x).handles.find? (fun h => h.op == op) with
  | none => s
  | some h => updGroup (completeHandle s c x op word) c x (fun g => { g with dones := mset 0 g.dones h.reg op })

/-- The completion word of R182 and R192. -/
def completionWord (error cancelled : Bool) (kind cause count : Nat) : Word :=
  BitVec.ofNat 32 (2 ^ 31 + (if error then 2 ^ 30 else 0) + (if cancelled then 2 ^ 29 else 0) + kind * 2 ^ 24 +
    (if error then cause * 2 ^ 20 + count % 2 ^ 20 else count % 2 ^ 24))

/-! ### Checks (R176, R188) -/

/-- A span of a scratchpad: R159 with an alignment and a length, every bank checked. -/
def checkSpan (s : State) (c tenant align len : Nat) (sa : Word) : Except Nat Nat :=
  match checkSpm s c tenant align sa with
  | .error cls =>
    if cls = clsOV ∧ 8192 * (getCore s (if sa.getLsbD 23 then c / 4 * 4 + (sa.extractLsb' 21 2).toNat else c)).nspm <
        (sa.extractLsb' 0 19).toNat + len then .error clsTP else .error cls
  | .ok key =>
    let core := key / 327680
    let off := key % 327680
    if 8192 * (getCore s core).nspm < off + len then .error clsTP
    else if ((List.range ((off + len - 1) / 8192 + 1 - off / 8192)).map (off / 8192 + ·)).all
        (fun b => bankTagOf s core b == tenant) then .ok key
    else .error clsOV

/-- Tag of table k and bias vector k of a cluster: that of its core (R188). -/
def tableTag (s : State) (cl k : Nat) : Nat := (getCore s (cl * 4 + k)).tid

/-- Fields of the command word (R177). -/
def cmdField (cmd : BitVec 32) (lo n : Nat) : Nat := (cmd.extractLsb' lo n).toNat
def cmdBit (cmd : BitVec 32) (i : Nat) : Bool := cmd.getLsbD i

/-- The tables and vectors that enabled stages name carry the tenant's tag (R176). -/
def stagesOk (s : State) (cl tenant : Nat) (cmd : BitVec 32) : Bool :=
  (!cmdBit cmd 17 || tableTag s cl (cmdField cmd 18 2) == tenant) &&
  (!cmdBit cmd 11 || tableTag s cl (cmdField cmd 12 2) == tenant)

/-- Octets of a member that take part (R175). -/
def octetsOf (g : Group) (m : Mask) : List Nat :=
  (List.range (g.width / 8)).filter (fun q => m.extractLsb' (8 * q) 8 != 0)

/-- The tile address of an octet: register B of its first lane (R176). -/
structure TileRef where
  slot  : Nat
  octet : Nat
  sa    : Word
deriving DecidableEq, Repr

/-- The tile checks in member order, then octet order: keys, or the first failure. -/
def checkTiles (s : State) (c : Nat) : List TileRef → Except (TileRef × Nat) (List (TileRef × Nat))
  | [] => .ok []
  | t :: ts =>
    match checkSpan s c (tenantOf s c t.slot) 256 2048 t.sa with
    | .error cls => .error (t, cls)
    | .ok key => match checkTiles s c ts with
      | .error e => .error e
      | .ok r => .ok ((t, key) :: r)

/-! ### Results -/

/-- A register of a lane as the engine reads it: results that are due are in it. -/
def landedCell (g : Group) (t r l : Nat) : Word :=
  (g.pend.filter (fun p => p.touches r l && !p.inFlight t && !p.skip.contains (cellKey r l))).foldl
    (fun v p => mget v p.cells (cellKey r l)) (regAt g r l)

/-- A run of registers of a lane as one little-endian number. -/
def runNum (g : Group) (t base n l : Nat) : Nat :=
  ((List.range n).map (fun k => (landedCell g t (base + k) l).toNat * 2 ^ (32 * k))).foldl (· + ·) 0

/-- Elements 0 to K - 1 of width `w` packed in a number (R35, R174). -/
def elemsOfNum (w k x : Nat) : List Nat := (List.range k).map (fun i => x / 2 ^ (w * i) % 2 ^ w)

/-- Column n of the B operand as a number: an MMA fragment, or 32 bytes of a tile (R174). -/
def columnNum (s : State) (g : Group) (t : Nat) (o : MxOp) (octet tile n : Nat) : Nat :=
  if o.op = 0x2C0 then runNum g t o.f.b.toNat 8 (8 * octet + n) else readLE s.spm (tile + 32 * n) 32

/-- The value of an element of an integer format. -/
def intElems (code k x : Nat) : List Int := (elemsOfNum 8 k x).map (intDecode code)

/-- One element (j, n) before the epilogue (R178), for row and column numbers. -/
def mxElem (o : MxOp) (xv : List Half) (row col outer : Nat) (h : Word) : MxOut :=
  let sub := o.f.sub.toNat
  let k := mxDepth o.op sub
  let l := mxStep o.op sub
  let p := mxInterval o.op o.f.imm
  let hi := cmdBit o.f.imm 2
  let ho := cmdBit o.f.imm 3
  if o.op = 0x2C2 then
    elemInt l p hi ho (intElems 10 k row)
      ((List.range k).map (fun i => terVal (terDigit (col / 256 ^ (i / 5) % 256) (i % 5)))) outer h
  else if mxIsInt o.op sub then elemInt l p hi ho (intElems (mxFmtA sub) k row) (intElems (mxFmtB sub) k col) outer h
  else
    let fa := mxFmtA sub
    let fb := mxFmtB sub
    elemF l p hi ho ((elemsOfNum (fmtWidth fa) k row).map (mxFElem fa (xv.getD (cmdField o.f.imm 5 3) 0)))
      ((elemsOfNum (fmtWidth fb) k col).map (mxFElem fb (xv.getD (cmdField o.f.imm 8 3) 0))) outer h

/-- An F32 code whose NaN is the canonical one: NaN operands give a canonical NaN in D (R45, R52) (log 29, DEDUCED). -/
def canonNan32 (x : Nat) : Nat := match fdecode fF32 x with
  | .nan _ => nanCode fF32
  | _ => x

/-- The epilogue of element n (R179): its code and flags. -/
def mxEpilogue (s : State) (o : MxOp) (n : Nat) (x : MxOut) : Nat × MxFlags :=
  let cmd := o.f.imm
  let v0 : MxVal := ⟨!mxIsInt o.op o.f.sub.toNat, x.outer, x.flags⟩
  let m := n + 8 * cmdField cmd 14 3
  let v1 := if cmdBit cmd 11 then
    biasStage ((mget [] s.biases (o.cluster * 4 + cmdField cmd 12 2)).getD m 0) v0 else v0
  let v2 := if cmdBit cmd 17 then actStage (mget [] s.tables (o.cluster * 4 + cmdField cmd 18 2)) v1 else v1
  if cmdBit cmd 20 then requant (cmdField cmd 21 5) (cmdField cmd 26 3) v2
  else (if v2.isFloat then canonNan32 v2.bits else v2.bits, v2.flags)

/-- The words of a row's accumulator run (R179): one value a register, or packed values and zeros. -/
def packRow (o : MxOp) (codes : List Nat) : List Word :=
  if cmdBit o.f.imm 20 then
    let w := qtWidth (cmdField o.f.imm 26 3)
    let per := 32 / w
    (List.range codes.length).map (fun i =>
      BitVec.ofNat 32 (((List.range per).map (fun t => codes.getD (per * i + t) 0 * 2 ^ (w * t))).foldl (· + ·) 0))
  else codes.map (BitVec.ofNat 32)

/-- One row: words of the accumulator run, hold words, flags. -/
def mxRow (s : State) (g : Group) (t : Nat) (o : MxOp) (xv : List Half) (cols : List Nat) (l : Nat) :
    List Word × List Word × MxFlags :=
  let n := mxCols o.op
  let row := runNum g t o.f.a.toNat (mxARun o.op) l
  let outs := cols.zipIdx.map (fun q =>
    let outer := if cmdBit o.f.imm 4 then 0 else (landedCell g t (o.f.c.toNat + q.2) l).toNat
    mxElem o xv row q.1 outer (landedCell g t (o.f.c.toNat + n + q.2) l))
  let es := outs.zipIdx.map (fun q => mxEpilogue s o q.2 q.1)
  (packRow o (es.map (·.1)), outs.map (·.hold), (es.map (·.2)).foldl (· ||| ·) 0)

/-- A ternary byte above 242 in a tile (R42). -/
def badTile (s : State) (tile : Nat) : Bool := (readBytes s.spm tile 2048).any (fun b => decide (243 ≤ b.toNat))

/-- The cells that an octet's rows write, and the flags that all its rows raise. -/
def mxOctet (s : State) (t : Nat) (o : MxOp) (m : MxMember) (g : Group) (octet tile : Nat) :
    List (Nat × Nat × Word) × MxFlags :=
  let n := mxCols o.op
  let cols := (List.range n).map (columnNum s g t o octet tile)
  let rows := (List.range 8).map (fun j => (8 * octet + j, mxRow s g t o m.xv cols (8 * octet + j)))
  let base := o.f.c.toNat
  (((rows.filter (fun r => m.exec.getLsbD r.1)).flatMap (fun r =>
      r.2.1.zipIdx.map (fun q => (base + q.2, r.1, q.1)) ++
      (if cmdBit o.f.imm 3 then r.2.2.1.zipIdx.map (fun q => (base + n + q.2, r.1, q.1)) else []))),
   (rows.map (fun r => r.2.2.2)).foldl (· ||| ·) 0 ||| (if o.op = 0x2C2 && badTile s tile then mxTCODE else 0))

/-- What a member's octets give: cells and flags. -/
def mxRows (s : State) (o : MxOp) (m : MxMember) : List (Nat × Nat × Word) × MxFlags :=
  let g := getGroup s m.core m.ctx
  (m.octets.zipIdx).foldl (fun acc q =>
    let r := mxOctet s (now s m.core) o m g q.1 (m.tiles.getD q.2 0)
    (acc.1 ++ r.1, acc.2 ||| r.2)) ([], 0)

/-! ### Issue -/

/-- Runs of a matrix instruction (R173): A, B of MMA, and the accumulator run with its hold half. -/
def mxRuns (op : Nat) (f : Fields) : List (Nat × Nat) :=
  [(f.a.toNat, mxARun op), (f.c.toNat, mxAccLen op f.imm)] ++ (if op = 0x2C0 then [(f.b.toNat, 8)] else [])

/-- Register runs that the engine reads: C only where the outer accumulator does not start at zero, the hold half only with HI
(R177, R178). -/
def mxReads (op : Nat) (f : Fields) : List (Nat × Nat) :=
  [(f.a.toNat, mxARun op)] ++ (if op = 0x2C0 then [(f.b.toNat, 8)] else []) ++ accReads op f

def inRuns (rs : List (Nat × Nat)) (r : Nat) : Bool := rs.any (fun b => decide (b.1 ≤ r) && decide (r < b.1 + b.2))

/-- An octet's request joins one that shares its tile and settings, or is a new one (R186). -/
def addRequest (reqs : List MxReq) (cl : Nat) (key : List Nat) (part : MxPart) : List MxReq :=
  let fits := fun (q : MxReq) => !key.isEmpty && q.cluster == cl && q.key == key && decide (q.parts.length < 8)
  if reqs.any fits then updFirst fits (fun q => { q with parts := q.parts ++ [part] }) reqs
  else reqs ++ [{ id := part.op, cluster := cl, parts := [part], key := key }]

/-- The key under which octets are fused (R186); MMA octets are not. The extra value for B counts also where B reads none (log 94,
DESIGN CHOICE). -/
def fuseKey (o : MxOp) (m : MxMember) (tile : Nat) : List Nat :=
  if o.op = 0x2C0 then []
  else [o.op, tile, o.f.sub.toNat, cmdField o.f.imm 8 3, cmdField o.f.imm 0 2, cmdField o.f.imm 2 2,
        (m.xv.getD (cmdField o.f.imm 8 3) 0).toNat]

/-- The requests of an operation in the reservation table. -/
def enterRequests (s : State) (o : MxOp) (reqs : List MxReq) : List MxReq :=
  o.members.foldl (fun reqs m =>
    (m.octets.zipIdx).foldl (fun reqs q =>
      addRequest reqs o.cluster (fuseKey o m (m.tiles.getD q.2 0))
        ⟨o.id, m.core, m.ctx, q.1, (getGroup s m.core m.ctx).prio, now s m.core⟩) reqs) reqs

def tableRoom (reqs : List MxReq) (cl : Nat) : Bool := decide ((reqs.filter (fun q => q.cluster == cl)).length ≤ 64)

/-- The last write of every byte of a tile is one that the group has handed over: an earlier write is no value that the engine may
read (R181, R272, R275). -/
def tileHanded (s : State) (g : Group) (t : Nat) : Bool :=
  s.stamps.all (fun w => !runsMeet w.key w.len t 2048 || decide (w.id ≤ mget 0 g.handed w.writer))

/-- Whether OPRDY has handed over what the engine reads (R181, R275): no register of a run written since, none with a result
in flight, no write to the tile but those that happened before the member's last OPRDY, none of the member's stores to it
issued since. -/
def handedOver (s : State) (c : Nat) (op : Nat) (f : Fields) (m : MxMember) : Bool :=
  let g := getGroup s c m.ctx
  let k := getCore s c
  let rs := mxRuns op f
  g.dirty.all (fun r => !inRuns rs r) &&
  g.pend.all (fun p => !p.inFlight (now s c) || p.regs.all (fun r => !inRuns rs r)) &&
  m.tiles.all (fun t =>
    tileHanded s g t &&
    (g.storeq ++ (k.flight.filter (fun w => w.ctx == m.ctx)).map (·.item)).all (fun q => !q.spm ||
      q.lanes.all (fun l => !runsMeet l.addr q.size t 2048)))

/-- Registers of a second matrix instruction's runs that a pending one uses. -/
def sharedRegs (s : State) (c x op : Nat) (f : Fields) : List Nat :=
  (mxRuns op f).flatMap (fun b => ((List.range b.2).map (b.1 + ·)).filter (fun r => (mxRunsOf s c x).any (inRun r)))

/-- A second matrix instruction whose runs meet those of a pending one counts as a write to the registers that they share:
they are undefined from now on, and so are the pending one's results (R183). -/
def spoilMeeting (s : State) (c : Nat) (xs : List Nat) (op : Nat) (f : Fields) : State :=
  xs.foldl (fun s x =>
    let rs := sharedRegs s c x op f
    updGroup (spoilRuns s c x rs) c x (fun g =>
      rs.foldl (fun g r => (List.range g.width).foldl (fun g l => setReg g r l (undefWord s c 14 x r l)) g) g)) s

/-- Whether a second matrix instruction reads a register that a pending one uses, which is undefined (R183). -/
def readsPending (s : State) (c : Nat) (xs : List Nat) (op : Nat) (f : Fields) : Bool :=
  xs.any (fun x => (mxRunsOf s c x).any (fun q => (mxReads op f).any (fun b => runsMeet b.1 b.2 q.2.1 q.2.2.1)))

/-- Results in flight to registers of the runs of an instruction that issues leave them undefined when they land (R183) (log 7,
DEDUCED). -/
def marInFlight (s : State) (c op : Nat) (f : Fields) (x : Nat) : State :=
  updGroup s c x (fun g =>
    let g1 := landDue (now s c) g
    { g1 with pend := g1.pend.map (fun p => { p with cells := p.cells.map (fun q =>
        (q.1, if inRuns (mxRuns op f) (q.1 / 64) then undefWord s c 15 x (q.1 / 64) (q.1 % 64) else q.2)) }) })

/-- The operation as it issues, with the flags that its rows raise: no later hazard changes those (R183). -/
def mxOpOf (s : State) (c op : Nat) (f : Fields) (pc : Dword) (xv : Nat → List Half) (ms : Members)
    (tiles : List (TileRef × Nat)) : MxOp :=
  let o : MxOp :=
    { id := s.serial, cluster := clusterOf c, op := op, f := f, pc := pc, issued := now s c,
      members := (ms.filter (fun m => m.active != 0)).map (fun m =>
        { core := c, ctx := m.slot, exec := m.exec, octets := octetsOf (getGroup s c m.slot) m.exec,
          tiles := (tiles.filter (fun t => t.1.slot == m.slot)).map (·.2),
          sas := (tiles.filter (fun t => t.1.slot == m.slot)).map (·.1.sa), xv := xv m.slot
          handed := (getGroup s c m.slot).handed }) }
  { o with members := o.members.map (fun m => { m with flags := (mxRows s o m).2 }) }

/-- The trap of a failed tile check (R176, R280): KIND 5, the tile address in lane 8q. -/
def tileTrap (i : Instr) (f : Fields) (pc : Dword) (xv : Nat → List Half) (ms : Members) (ts : List TileRef) (x lane cls : Nat)
    (addr : Dword) (s : State) : Res :=
  let xs := issueSlots ms
  .trap true
    { cls := cls, info := BitVec.ofNat 32 (lane * 16 + 5), addr := addr, pc := pc, slots := suspends ms, origin := x,
      replay := (ms.filter (fun m => m.active != 0)).map (fun m => (m.slot,
        { replayOf 0 i f pc m.exec ((ts.filter (fun t => t.slot == m.slot)).foldl (fun w t =>
            putWord64 w (8 * t.octet) 6 (t.sa.setWidth 64)) []) s.serial xs with
          xv := xv m.slot
          fl := if m.slot = x then 1#64 <<< lane else 0 })) }
    { s with serial := s.serial + 1 }

/-- MMA, MMAS and MMAT (R175, R176, R182, R185, R186, R193): the checks, the requests, and the pending handles. The tile checks
come before those of the tables and vectors, and a failure of the latter is reported for lane 0 of the first member, at an
address that is open: the manual fixes none of these (log 78, DESIGN CHOICE). -/
def mxIssue (i : Instr) (op : Nat) (f : Fields) (pc : Dword) (xv : Nat → List Half) (ms : Members) (ts : List TileRef)
    (s : State) : Res :=
  let c := s.cur.1
  let cl := clusterOf c
  let xs := issueSlots ms
  let x0 := xs.headD 0
  let k := getCore s c
  let none' := ms.all (fun m => (octetsOf (k.group m.slot) m.exec).isEmpty)
  let freeAddr := freeWordAt s 12 x0 1 0 ++ freeWordAt s 12 x0 0 0
  let stages := stagesOk s cl (tenantOf s c x0) f.imm
  match pendingSlot k f.d.toNat xs with
  | some y => hxTrap f pc (suspends ms) y s
  | none =>
    if none' then
      (if stages then .ok (xs.foldl (fun s x => writeAllLanes s c x f.d.toNat (completionWord false false 3 0 0)) s)
       else tileTrap i f pc xv ms ts x0 0 clsOV freeAddr s)
    else if xs.any (fun x => decide (16 ≤ (k.group x).handles.length) || !inFlight31 s c x) then .wait s
    else match checkTiles s c ts with
      | .error (t, cls) => tileTrap i f pc xv ms ts t.slot (8 * t.octet) cls (t.sa.setWidth 64) s
      | .ok tiles =>
        if !stages then tileTrap i f pc xv ms ts x0 0 clsOV freeAddr s
        else
          let o := mxOpOf s c op f pc xv ms tiles
          let reqs := enterRequests s o s.mxReqs
          if !tableRoom reqs cl then .wait s
          else
            let stale := readsPending s c xs op f || o.members.any (fun m => !handedOver s c op f m)
            let s1 := xs.foldl (fun s x => marInFlight s c op f x) (spoilMeeting s c xs op f)
            let s2 := { s1 with serial := s1.serial + 1, mxReqs := reqs, mxOps := s1.mxOps ++ [{ o with stale := stale }] }
            .ok (xs.foldl (fun s x => addHandle s c x f.d.toNat o.id) s2)

/-- The tile references of MMAS and MMAT. -/
def tileRefs (s : State) (f : Fields) (ms : Members) : List TileRef :=
  ms.flatMap (fun m => (octetsOf (getGroup s s.cur.1 m.slot) m.exec).map (fun q =>
    ⟨m.slot, q, opB s s.cur.1 m.slot f (8 * q)⟩))

/-- The extra values of the issuing core's groups (R189). -/
def xvOf (s : State) (x : Nat) : List Half := (getGroup s s.cur.1 x).xv

/-- MMA (R178). -/
def performMma (f : Fields) (pc : Dword) (ms : Members) (s : State) : Res :=
  mxIssue (.mma f) 0x2C0 f pc (xvOf s) ms [] s
def execMma (f : Fields) (s : State) : Host.Outcome State Fault Refusal := issue 0x2C0 f (performMma f) s

/-- MMAS (R178). -/
def performMmas (f : Fields) (pc : Dword) (ms : Members) (s : State) : Res :=
  mxIssue (.mmas f) 0x2C1 f pc (xvOf s) ms (tileRefs s f ms) s
def execMmas (f : Fields) (s : State) : Host.Outcome State Fault Refusal := issue 0x2C1 f (performMmas f) s

/-- MMAT (R178). -/
def performMmat (f : Fields) (pc : Dword) (ms : Members) (s : State) : Res :=
  mxIssue (.mmat f) 0x2C2 f pc (xvOf s) ms (tileRefs s f ms) s
def execMmat (f : Fields) (s : State) : Host.Outcome State Fault Refusal := issue 0x2C2 f (performMmat f) s

/-! ### Granting passes -/

/-- A request's priority, its oldest octet, and the cycle in which that entered: those of the octets it carries (R186). -/
def MxReq.prio (q : MxReq) : Nat := q.parts.foldl (fun m p => max m p.prio) 0
def MxReq.oldest (q : MxReq) : MxPart := q.parts.headD ⟨0, 0, 0, 0, 0, 0⟩
def MxReq.entered (q : MxReq) : Nat := q.parts.foldl (fun m p => min m p.entered) q.oldest.entered

/-- The order of R186: requests older than 1,024 cycles first, oldest first; then by priority, then age; then by the
core and the slot of their oldest octet. -/
def grantBefore (t : Nat) (a b : MxReq) : Bool :=
  let oldA := decide (a.entered + 1024 < t)
  let oldB := decide (b.entered + 1024 < t)
  if oldA ≠ oldB then oldA
  else if !oldA && a.prio != b.prio then decide (b.prio < a.prio)
  else if a.entered ≠ b.entered then decide (a.entered < b.entered)
  else if a.oldest.core ≠ b.oldest.core then decide (a.oldest.core < b.oldest.core)
  else decide (a.oldest.ctx < b.oldest.ctx)

def bestRequest (t : Nat) : List MxReq → Option MxReq
  | [] => none
  | q :: qs => match bestRequest t qs with
    | none => some q
    | some b => if grantBefore t b q then some b else some q

/-- A withdrawn instruction whose members have all resumed enters the table again where there is room (R185). -/
def reenter (s : State) (cl : Nat) : State :=
  (s.mxOps.filter (fun o => o.cluster == cl && o.withdrawn &&
      o.members.all (fun m => decide ((getGroup s m.core m.ctx).stop = .run)))).foldl
    (fun s o =>
      let reqs := enterRequests s o s.mxReqs
      if tableRoom reqs cl then
        { s with mxReqs := reqs, mxOps := s.mxOps.map (fun p => if p.id = o.id then { p with withdrawn := false } else p) }
      else s) s

/-- MATRIX_GRANT (R185, R186): the arbiter grants one pass; its instructions have started. -/
def execMatrixGrant (cluster : Nat) (s : State) : Host.Outcome State Fault Refusal :=
  let s1 := reenter s cluster
  match bestRequest (now s (cluster * 4)) (s1.mxReqs.filter (fun q => q.cluster == cluster)) with
  | none => .next s1
  | some q => .next { s1 with
      mxReqs := s1.mxReqs.erase q
      mxOps := s1.mxOps.map (fun o => if q.parts.any (fun p => p.op == o.id) then { o with started := true } else o) }

/-! ### Completion -/

/-- Undefined results (R181, R183, R184): every element of the accumulator run and hold half, bounded by R21 (log 7, DEDUCED). -/
def mxSpoiled (s : State) (o : MxOp) (m : MxMember) : List (Nat × Nat × Word) :=
  m.octets.flatMap (fun q => (List.range 8).flatMap (fun j =>
    (List.range (mxAccLen o.op o.f.imm)).map (fun r =>
      (o.f.c.toNat + r, 8 * q + j, undefWord s m.core 11 m.ctx (o.f.c.toNat + r) (8 * q + j)))))

/-- An error has struck a byte of a B tile, or an A, B or accumulator register, that the engine reads for a member (R184). -/
def mxStruck (s : State) (o : MxOp) (m : MxMember) : Bool :=
  let g := getGroup s m.core m.ctx
  m.tiles.any (fun t => struckSpm s t (tileBytes o)) ||
    m.octets.any (fun q => (List.range 8).any (fun j => struckAt g (mxReads o.op o.f) (8 * q + j)))

/-- What a member's octets give: results left undefined by a hazard keep the flags that the instruction raises (R183); those of
operands not handed over are flags of what the engine read, which is open (R181). -/
def mxMemberOut (s : State) (o : MxOp) (m : MxMember) : List (Nat × Nat × Word) × MxFlags :=
  if o.stale || o.members.any (mxStruck s o) then (mxSpoiled s o m, BitVec.ofNat 3 (freeNatAt s 13 m.ctx 0 0))
  else if o.spoil then (mxSpoiled s o m, m.flags)
  else mxRows s o m

/-- The engine writes a member's runs, flags and handle; `bad` when an error has struck what it read (R182, R184). Where another
instruction is pending whose runs it writes, that is such a write (R183). -/
def mxWrite (out : MxMember → List (Nat × Nat × Word) × MxFlags) (bad : Bool) (o : MxOp) (s : State) (m : MxMember) : State :=
  let r := out m
  let s1 := updGroup (putCells s m.core m.ctx r.1) m.core m.ctx (fun g =>
    { g with mx := g.mx ||| r.2, rewait := g.rewait.filter (· != o.id) })
  completeHandle s1 m.core m.ctx o.id (completionWord bad false 3 0 (if bad then 0 else m.octets.length))

/-- XM at every member (R184), with the entry of an access that traps (R279): the manual gives neither the lane nor the address,
which are open (log 23, DESIGN CHOICE). -/
def mxErrorReq (s : State) (o : MxOp) (m0 : MxMember) : TrapReq :=
  { cls := clsXM, info := BitVec.ofNat 32 (freeNatAt s 12 m0.ctx 3 0 % 64 * 16 + 5),
    addr := freeWordAt s 12 m0.ctx 5 0 ++ freeWordAt s 12 m0.ctx 4 0, pc := o.pc,
    slots := withVacant (getCore s m0.core) m0.ctx o.f.scope (o.members.map (·.ctx)), origin := m0.ctx,
    replay := o.members.map (fun m => (m.ctx, { mxReplay o m with kind := 0 })) }

/-- A store to a member's tile that its OPRDY has handed over has not yet reached the bank (R181): the engine reads no value
older than it (R272) (log 88, DEDUCED). -/
def tilesDue (s : State) (o : MxOp) (m : MxMember) : Bool :=
  let due := fun (q : QItem) => q.spm && decide (q.id ≤ mget 0 m.handed q.writer) &&
    m.tiles.any (fun t => q.lanes.any (fun l => runsMeet l.addr q.size t (tileBytes o)))
  (List.range 4).any (fun i =>
    let k := getCore s (m.core / 4 * 4 + i)
    k.groups.any (fun g => g.2.storeq.any due) || k.flight.any (fun w => due w.item))

/-- MATRIX_COMPLETE (R174, R178, R182 to R184): all passes granted, the engine writes every member's results, flags and
handle in one cycle; XM is raised where an error has struck what it read. -/
def execMatrixComplete (id : Nat) (s : State) : Host.Outcome State Fault Refusal :=
  match s.mxOps.find? (fun o => o.id == id) with
  | none => .next s
  | some o =>
    if !o.started || o.withdrawn || s.mxReqs.any (fun q => q.parts.any (fun p => p.op == id)) || o.members.any (tilesDue s o)
    then .next s
    else
      let bad := o.members.any (mxStruck s o)
      let s1 := { s with mxOps := s.mxOps.filter (fun p => p.id != id) }
      let s2 := o.members.foldl (mxWrite (mxMemberOut s o) bad o) s1
      .next (stepFree (match o.members with
        | [] => s2
        | m0 :: _ => if bad then raiseTrap s2 m0.core (mxErrorReq s o m0) else s2))

/-! ### OPRDY, ACTLD, XVSET, MXSTAT -/

/-- OPRDY's wait is over for a member (R181). -/
def oprdyReady (s : State) (c x : Nat) : Bool :=
  let k := getCore s c
  let g := k.group x
  g.pend.all (fun p => !p.inFlight (now s c)) && g.storeq.all (fun q => !q.spm) &&
  k.flight.all (fun w => w.ctx != x || !w.item.spm)

/-- OPRDY of a member: the writes that have become visible to it, its own among them, are handed over (log 88, DEDUCED). -/
def handOver (c : Nat) (s : State) (x : Nat) : State :=
  updGroup { s with serial := s.serial + 1 } c x (fun g => { g with dirty := [], handed := ownSeen c x s.serial g })

/-- OPRDY (R181), whichever lanes execute. -/
def performOprdy (_f : Fields) (_pc : Dword) (ms : Members) (s : State) : Res :=
  let c := s.cur.1
  let xs := issueSlots ms
  if !xs.all (oprdyReady s c) then .wait s else .ok (xs.foldl (handOver c) s)
def execOprdy (f : Fields) (s : State) : Host.Outcome State Fault Refusal := issue 0x2C3 f (performOprdy f) s

/-- Bytes of a table image and of a bias image (R180). -/
def imageLen (sub : Nat) : Nat := if sub < 4 then 1044 else 256

/-- An earlier matrix instruction of the cluster names the table or vector (R188). -/
def namedByPending (s : State) (cl sub : Nat) : Bool :=
  s.mxOps.any (fun o => o.cluster == cl &&
    (if sub < 4 then cmdBit o.f.imm 17 && cmdField o.f.imm 18 2 == sub
     else cmdBit o.f.imm 11 && cmdField o.f.imm 12 2 == sub - 4))

/-- The trap of a scalar operand's check (R280): lane 0, the address in every lane's words (R286). -/
def scalarTrap (i : Instr) (f : Fields) (pc : Dword) (kind cls : Nat) (addr : Dword) (ms : Members)
    (words : Nat → SMap Word → SMap Word) (s : State) : Res :=
  let xs := issueSlots ms
  .trap true
    { cls := cls, info := BitVec.ofNat 32 kind, addr := addr, pc := pc, slots := suspends ms, origin := xs.headD 0,
      replay := (ms.filter (fun m => m.active != 0)).map (fun m => (m.slot,
        { replayOf 0 i f pc m.exec ((List.range 64).foldl (fun w l => words l w) []) s.serial xs with fl := 1 })) }
    { s with serial := s.serial + 1 }

/-- ACTLD with its address (R188). -/
def actldAt (f : Fields) (pc : Dword) (ms : Members) (x : Nat) (sa : Word) (s : State) : Res :=
  let c := s.cur.1
  let cl := clusterOf c
  let sub := f.sub.toNat
  let k := getCore s c
  let t := tenantOf s c x
  let fail := fun cls => scalarTrap (.actld f) f pc 5 cls (sa.setWidth 64) ms (fun l w => putWord64 w l 6 (sa.setWidth 64)) s
  if (k.group x).storeq.any (·.spm) || k.flight.any (fun w => w.ctx == x && w.item.spm) || namedByPending s cl sub then .wait s
  else match checkSpan s c t 16 (imageLen sub) sa with
    | .error cls => fail cls
    | .ok key =>
      if tableTag s cl (sub % 4) ≠ t then fail clsOV
      else if struckSpm s key (imageLen sub) then fail clsXM
      else
        let ws := bytesToWords (readBytes s.spm key (imageLen sub))
        if sub < 4 then .ok { s with tables := mset [] s.tables (cl * 4 + sub) ws }
        else .ok { s with biases := mset [] s.biases (cl * 4 + (sub - 4)) ws }

/-- ACTLD (R188). -/
def performActld (f : Fields) (pc : Dword) (ms : Members) (s : State) : Res :=
  match scalarLane ms with
  | none => .ok s
  | some (x, l) => actldAt f pc ms x (opA s s.cur.1 x f l + f.imm) s
def execActld (f : Fields) (s : State) : Host.Outcome State Fault Refusal := issue 0x2C4 f (performActld f) s

/-- XVSET (R189). -/
def performXvset (f : Fields) (_pc : Dword) (ms : Members) (s : State) : Res :=
  match scalarLane ms with
  | none => .ok s
  | some (x, l) => .ok (updGroup s s.cur.1 x (fun g =>
      { g with xv := g.xv.set f.sub.toNat ((opA s s.cur.1 x f l).setWidth 16) }))
def execXvset (f : Fields) (s : State) : Host.Outcome State Fault Refusal := issue 0x2C5 f (performXvset f) s

/-- XVSET.rd (R189). -/
def performXvsetRd (f : Fields) (_pc : Dword) (ms : Members) (s : State) : Res :=
  .ok (postResults s s.cur.1 f ms none 1 (fun t x _ => [((getGroup t s.cur.1 x).xv.getD f.sub.toNat 0).setWidth 32]))
def execXvsetRd (f : Fields) (s : State) : Host.Outcome State Fault Refusal := issue 0x2C5 f (performXvsetRd f) s

/-- MXSTAT (R190): waits for the group's matrix handles, reads the flags, and with `.clr` clears them. -/
def performMxstat (f : Fields) (_pc : Dword) (ms : Members) (s : State) : Res :=
  let c := s.cur.1
  let xs := issueSlots ms
  if ms.all (fun m => m.exec == 0) then .ok s
  else if xs.any (fun x => (getGroup s c x).handles.any (fun h => s.mxOps.any (fun o => o.id == h.op))) then .wait s
  else
    let s1 := postResults s c f ms none 1 (fun t x _ => [(getGroup t c x).mx.setWidth 32])
    .ok (if f.mod = 1 then xs.foldl (fun s x => updGroup s c x (fun g => { g with mx := 0 })) s1 else s1)
def execMxstat (f : Fields) (s : State) : Host.Outcome State Fault Refusal := issue 0x2C6 f (performMxstat f) s

end Sys2Proof.Machine
end

