-- ==== Sys2Proof/Machine/RegFile.lean ====
section
/-! DEFINITION. Register-file units, the buddy allocator and compaction (R17, R241 to R245, R151 to R153). -/

namespace Sys2Proof.Machine
open Sys2Proof

/-- Units of a core's register file (R241). -/
def unitCount : Nat := 16384

/-- Units of a block of `s` registers in a group of width `w` (R241). -/
def unitsOf (s w : Nat) : Nat := s * w / 8

def runLen (rs : List (Nat × Nat)) : Nat := (rs.map (·.2)).foldl (· + ·) 0

def usedUnits (k : Core) : Nat := (k.alloc.map (fun a => runLen a.runs)).foldl (· + ·) 0
def freeUnits (k : Core) : Nat := unitCount - usedUnits k

/-- Whether the units from `u` to `u + n - 1` are free. -/
def unitsFreeAt (k : Core) (u n : Nat) : Bool :=
  k.alloc.all (fun a => a.runs.all (fun r => !runsMeet r.1 r.2 u n))

/-- The buddy allocator's place for `n` units (R242): the lowest start that is a multiple of `n`. -/
def findPlace (k : Core) (n : Nat) : Option Nat :=
  if n = 0 then some 0
  else ((List.range (unitCount / n)).map (· * n)).find? (fun u => unitsFreeAt k u n)

/-- The order of a compaction (R243): by size, largest first, then by group slot and list position, the request `r` last
among its size. -/
def compactKey (r a : Alloc) : Nat :=
  (unitCount - runLen a.runs) * 1000000 + (if a = r then 999999 else a.ctx * 1000 + a.pos)

/-- Compaction (R243): every live allocation, and the request being served with them, laid out again from unit 0, so that
each start is a multiple of its size. No register changes its value or name. -/
def layOut (k : Core) (r : Alloc) : List Alloc :=
  ((sortNat (compactKey r) (k.alloc ++ [r])).foldl (fun (acc : List Alloc × Nat) a =>
    (acc.1 ++ [{ a with runs := [(acc.2, runLen a.runs)] }], acc.2 + runLen a.runs)) ([], 0)).1

/-- The groups whose units a new layout moves: each is held until its own results have landed and its units have moved
(R244). -/
def movedBy (old new : List Alloc) : List Nat := (old.filter (fun a => !new.contains a)).map (·.ctx)

/-- The file compacted for a request. -/
def compact (k : Core) (r : Alloc) : Core :=
  let new := layOut k r
  { k with alloc := new, moving := k.moving ++ (movedBy k.alloc new).filter (fun x => !k.moving.contains x) }

/-- An allotment block of `n` units for position `pos` of a group's list, after compaction where there is no place
without (R153); none where the free units do not suffice. -/
def allocBlock (k : Core) (x pos n : Nat) : Option Core :=
  if freeUnits k < n then none
  else match findPlace k n with
    | some u => some { k with alloc := k.alloc ++ [{ ctx := x, pos := pos, runs := [(u, n)] }] }
    | none => some (compact k { ctx := x, pos := pos, runs := [(0, n)] })

/-- Blocks of a group's list from position `pos` on are freed. -/
def freeFrom (k : Core) (x pos : Nat) : Core :=
  { k with alloc := k.alloc.filter (fun a => !(a.ctx == x && decide (pos ≤ a.pos))) }

/-- All blocks of a list, in order. -/
def allocList (k : Core) (x w pos : Nat) : List Nat → Option Core
  | [] => some k
  | b :: bs => match allocBlock k x pos (unitsOf b w) with
    | none => none
    | some k1 => allocList k1 x w (pos + 1) bs

/-- Names at or above S read zero when they are granted again (R20, R151). -/
def zeroAbove (g : Group) : Group := { g with regs := g.regs.filter (fun q => decide (q.1 < g.allotment * 64)) }

/-- A GROW that fits: a block of `size` registers is appended, its names read zero (R151). -/
def growGroup (k : Core) (x size : Nat) : Option Core :=
  let g := k.group x
  match allocBlock k x g.allot.length (unitsOf size g.width) with
  | none => none
  | some k1 => some (k1.withGroup x { zeroAbove g with allot := g.allot ++ [size] })

/-- A GROW that no room can satisfy: four blocks already, or more than 640 registers (R151). -/
def growRefused (g : Group) (size : Nat) : Bool := decide (4 ≤ g.allot.length) || decide (640 < g.allotment + size)

/-- Units of runs, one by one, and the runs without the first `n` units. -/
def dropUnits : Nat → List (Nat × Nat) → List (Nat × Nat)
  | _, [] => []
  | n, r :: rs => if r.2 ≤ n then dropUnits (n - r.2) rs else (r.1 + n, r.2 - n) :: rs

/-- The lowest `n` free units as runs of one (R242: shadow rows are taken unit by unit). -/
def shadowUnits (k : Core) (n : Nat) : List (Nat × Nat) :=
  (((List.range unitCount).filter (fun u => unitsFreeAt k u 1)).take n).map (fun u => (u, 1))

/-- A commit gives the names v0 to vn-1 of a group the shadow units; the former ones are free again (R145). -/
def swapShadow (k : Core) (x n w : Nat) : Core :=
  let sh := shadowUnits k (unitsOf n w)
  let blocks := sortNat (·.pos) (k.alloc.filter (fun a => a.ctx == x))
  let r := blocks.foldl (fun (acc : List Alloc × List (Nat × Nat)) a =>
    let len := runLen a.runs
    let take := acc.2.take len
    (acc.1 ++ [{ a with runs := take ++ dropUnits take.length a.runs }], acc.2.drop take.length)) ([], sh)
  { k with alloc := k.alloc.filter (fun a => a.ctx != x) ++ r.1 }

end Sys2Proof.Machine
end

