-- ==== Sys2Proof/Machine/Scopes.lean ====
section
/-! DEFINITION. SYNC, sets, REGROUP, RGHOME, GROW and SHRINK, opcodes 0x1C0 to 0x1C6 (R142 to R153, R424), and the
sort yard's and allocator's own steps (R145 to R148, R243, R245). -/

namespace Sys2Proof.Machine
open Sys2Proof

/-- No lane of any member executes. -/
def noExec (ms : Members) : Bool := ms.all (fun m => m.exec == 0)

/-- SYNC (R142): a release and then an acquire at core scope by every member. Later loads wait for every member's
earlier loads and writes; later stores wait in the queue for those (R272). -/
def syncMembers (s : State) (c : Nat) (xs : List Nat) : State :=
  let k := getCore s c
  let loads := loadsOf k xs
  let items := xs.flatMap (writeIds k)
  let id := s.serial
  let known := jointSeen k c (id - 1) xs
  updCore { s with serial := id + xs.length } c (fun k =>
    let k1 := xs.zipIdx.foldl (fun k q => k.withGroup q.1 { k.group q.1 with
        seen := known
        releases := joinEdges (k.group q.1).releases [{ scope := 1, core := c, at' := id + q.2, knows := known }]
        storeq := (k.group q.1).storeq ++
          [{ writer := groupWriter c q.1 (k.group q.1).born, id := id + q.2, kind := .fence, spm := false, size := 1, lanes := [], rel := 1, waits := loads,
             after := items.filter (fun i => !(writeIds k q.1).contains i) }]
        acqs := (k.group q.1).acqs ++ [{ first := loads, loads := loads, items := items, wide := false }] }) k
    settleAcqs k1 c)

/-- SYNC. Where no lane executes the manual does not say whether SYNC orders memory (R191 and R424 do not name it): the model
makes it order nothing then (log 82, DESIGN CHOICE). -/
def performSync (_f : Fields) (_pc : Dword) (ms : Members) (s : State) : Res :=
  if noExec ms then .ok s else .ok (syncMembers s s.cur.1 (ms.map (·.slot)))
def execSync (f : Fields) (s : State) : Host.Outcome State Fault Refusal := issue 0x1C0 f (performSync f) s

/-! ### Sets -/

/-- The groups of a block that stand in SETJOIN with an id, and their counts (R143). -/
def joiners (k : Core) (b id : Nat) : List (Nat × Nat) :=
  (slotsOf k).filterMap (fun y =>
    if (k.group y).block = b then
      (k.group y).frontier.findSome? (fun e => match e.park with
        | .join i n => if i = id then some (y, n) else none
        | _ => none)
    else none)

/-- A waiting joiner becomes a member and goes on, no earlier than its STALL count lets it (R67, R143); SETJOIN is 16 bytes
long at least and at most. -/
def enrol (s : State) (c : Nat) (id : Nat) (k : Core) (y : Nat) : Core :=
  let g := k.group y
  match g.frontier.find? (fun e => match e.park with | .join _ _ => true | _ => false) with
  | none => k
  | some e => k.withGroup y (choose (advance { g with setId := some id } true e.pc (e.pc + 16) (max e.notBefore (now s c + 1))))

def setjoinId (f : Fields) : Nat := (f.imm.extractLsb' 0 4).toNat
def setjoinCount (f : Fields) : Nat := (f.imm.extractLsb' 4 5).toNat

/-- SETJOIN (R143). -/
def performSetjoin (f : Fields) (pc : Dword) (ms : Members) (s : State) : Res :=
  let c := s.cur.1
  let k := getCore s c
  let x := (ms.head?.map (·.slot)).getD 0
  let g := k.group x
  let id := setjoinId f
  let n := setjoinCount f
  let sm := fun code => Res.trap false
    { cls := clsSM, info := smInfo code id f.scope 0 0, pc := pc, slots := [x], origin := x } s
  let js := joiners k g.block id
  if noExec ms then .ok s
  else if g.setId.isSome then sm 2
  else if (slotsOf k).any (fun y => (k.group y).block == g.block && (k.group y).setId == some id) then sm 3
  else if js.any (fun q => q.2 != n) then sm 4
  else if js.length + 1 = n then
    .ok (updCore s c (fun k =>
      let k1 := (js.map (·.1)).foldl (enrol s c id) k
      k1.withGroup x { k1.group x with setId := some id }))
  else .park false (.join id n) s
def execSetjoin (f : Fields) (s : State) : Host.Outcome State Fault Refusal := issue 0x1C1 f (performSetjoin f) s

/-- SETLEAVE (R144). -/
def performSetleave (_f : Fields) (_pc : Dword) (ms : Members) (s : State) : Res :=
  if noExec ms then .ok s
  else .ok (ms.foldl (fun s m => updGroup s s.cur.1 m.slot (fun g => { g with setId := none })) s)
def execSetleave (f : Fields) (s : State) : Host.Outcome State Fault Refusal := issue 0x1C2 f (performSetleave f) s

/-! ### Room for waiting GROW requests -/

/-- A status in the executing lanes of D, written before the group's next instruction (R151). -/
def statusNow (s : State) (c x : Nat) (d : BitVec 10) (m : Mask) (v : Word) : State :=
  if d.toNat = vnull then s else writeCells s c x ((lanesOf m).map (fun l => (d.toNat, l, v)))

/-- An entry that an instruction holds, one at an address where that is given. -/
def heldAt (pc : Option Dword) (e : Entry) : Bool := e.park == .hold && (pc.isNone || pc == some e.pc)

/-- A parked instruction is released: its entry goes on at the next instruction (GROW and CSRWR are 16 bytes long). That is a
choice point only where it merges there (R221, R222). -/
def releaseHold (s : State) (c x : Nat) (pc : Option Dword) : State :=
  updGroup s c x (fun g =>
    match g.frontier.find? (heldAt pc) with
    | none => g
    | some e =>
      let g1 := { g with frontier := g.frontier.erase e }
      let g2 := enter g1 (e.pc + 16) e.mask e.prio e.notBefore
      if (freeEntryAt g1 (e.pc + 16)).isSome then choose g2 else g2)

/-- The oldest waiting GROW of the core is granted, where it fits (R245). -/
def grantGrow (s : State) (c : Nat) : Option State :=
  let k := getCore s c
  match k.growq with
  | [] => none
  | q :: rest => (growGroup k q.ctx q.size).map (fun k1 =>
      releaseHold (statusNow (setCore s c { k1 with growq := rest }) c q.ctx (BitVec.ofNat 10 q.d) q.mask 0) c q.ctx none)

/-- Units that have become free are offered to the waiting GROW requests in arrival order (R245). -/
def grantAll : Nat → State → Nat → State
  | 0, s, _ => s
  | n + 1, s, c => match grantGrow s c with
    | none => s
    | some t => grantAll n t c

def grantGrows (s : State) (c : Nat) : State := grantAll (getCore s c).growq.length s c

/-! ### REGROUP and RGHOME -/

/-- The role's groups whose allotment is below n (R145 step 2). -/
def regroupShort (k : Core) (n : Nat) (xs : List Nat) : Option Nat := xs.find? (fun x => (k.group x).allotment < n)

/-- Steps 1 and 2 of REGROUP and RGHOME (R145, R150): gathered, checked, and in progress from now on (R246). -/
def startRegroup (toHome : Bool) (n : Nat) (f : Fields) (pc : Dword) (ms : Members) (s : State) : Res :=
  let c := s.cur.1
  let k := getCore s c
  let x := (ms.head?.map (·.slot)).getD 0
  let g := k.group x
  let xs := ms.map (·.slot)
  match regroupShort k n xs with
  | some y => .trap false { cls := clsRB, info := BitVec.ofNat 32 (k.group y).allotment, pc := pc,
                            slots := xs, origin := y } s
  | none => .park false .hold (updCore s c (fun k => { k with
      regroups := k.regroups ++ [{ block := g.block, role := g.role, toHome := toHome, n := n, f := f,
                                   next := nextPc pc f, slots := xs, start := now s c }] }))

/-- REGROUP (R145). -/
def performRegroup (f : Fields) (pc : Dword) (ms : Members) (s : State) : Res :=
  startRegroup false f.imm.toNat f pc ms s
def execRegroup (f : Fields) (s : State) : Host.Outcome State Fault Refusal := issue 0x1C3 f (performRegroup f) s

/-- RGHOME (R150). -/
def performRghome (f : Fields) (pc : Dword) (ms : Members) (s : State) : Res :=
  startRegroup true f.a.toNat f pc ms s
def execRghome (f : Fields) (s : State) : Host.Outcome State Fault Refusal := issue 0x1C4 f (performRghome f) s

/-- A thread of the role: where it stands, and its key or home. -/
structure Thread where
  slot : Nat
  lane : Nat
  key  : Nat
  home : Nat × Nat
deriving DecidableEq, Repr

def threadsOf (k : Core) (o : RegroupOp) : List Thread :=
  o.slots.flatMap (fun x =>
    let g := k.group x
    (lanesOf g.liveMask).map (fun l =>
      ⟨x, l, if o.f.a.toNat = vnull then 0 else (regAt g o.f.a.toNat l).toNat % 65536, homeOf g x l⟩))

/-- Filling the target groups key by key (R145 step 4): `cur` is the group being filled, by index, and its next lane.
The answer places each thread at (index of a target group, lane). -/
def fillPlan (w : Nat) : List Thread → Option Nat → Nat → Nat → List (Thread × Nat × Nat)
  | [], _, _, _ => []
  | t :: ts, last, gi, l =>
    match last with
    | none => (t, gi, 0) :: fillPlan w ts (some t.key) gi 1
    | some key =>
      if t.key = key ∧ l < w then (t, gi, l) :: fillPlan w ts (some t.key) gi (l + 1)
      else (t, gi + 1, 0) :: fillPlan w ts (some t.key) (gi + 1) 1

/-- The plan (R145 step 4, R150): every thread with its new slot and lane; none where the role has too few groups. -/
def planOf (k : Core) (o : RegroupOp) : Option (List (Thread × Nat × Nat)) :=
  let ts := threadsOf k o
  if o.toHome then some (ts.map (fun t => (t, t.home.1, t.home.2)))
  else
    let w := (k.group (o.slots.headD 0)).width
    let plan := fillPlan w (sortNat (·.key) ts) none 0 0
    if plan.all (fun p => decide (p.2.1 < o.slots.length)) then
      some (plan.map (fun p => (p.1, o.slots.getD p.2.1 0, p.2.2)))
    else none

/-- The slots whose thread content changes. -/
def changedSlots (o : RegroupOp) (plan : List (Thread × Nat × Nat)) : List Nat :=
  o.slots.filter (fun x =>
    plan.any (fun p => (p.1.slot == x || p.2.1 == x) && !(p.1.slot == p.2.1 && p.1.lane == p.2.2)))

/-- Step 3 of R145 and R266 are over: results written, handles completed, queues performed at core scope, nothing
stopped. -/
def regroupDrained (s : State) (c : Nat) (o : RegroupOp) : Bool :=
  let k := getCore s c
  o.slots.all (fun x =>
    let g := k.group x
    g.pend.all (fun p => !p.inFlight (now s c)) && g.loads.isEmpty && g.handles.isEmpty && g.storeq.isEmpty &&
    (writeIds k x).all (performedCore k c) && decide (g.stop = .run))

/-- The status in vD of every live thread (R145, R146). -/
def writeStatus (s : State) (c : Nat) (o : RegroupOp) (v : Word) : State :=
  if o.f.d.toNat = vnull then s
  else o.slots.foldl (fun s x =>
    writeCells s c x ((lanesOf (getGroup s c x).liveMask).map (fun l => (o.f.d.toNat, l, v)))) s

def dropRegroup (k : Core) (o : RegroupOp) : Core := { k with regroups := k.regroups.filter (fun q => q != o) }

/-- The highest priority among the entries that arrived, and the earliest cycle of the next instruction that STALL gives them
(R67). -/
def arrivedPrio (k : Core) (o : RegroupOp) : Nat :=
  o.slots.foldl (fun m x => (k.group x).frontier.foldl (fun m e => max m e.prio) m) 0
def arrivedNext (k : Core) (o : RegroupOp) : Nat :=
  o.slots.foldl (fun m x => (k.group x).frontier.foldl (fun m e => max m e.notBefore) m) 0

/-- A pre-emption that a REGROUP has held goes on once the REGROUP is over: the groups stop (R148). -/
def afterHold (o : RegroupOp) (g : Group) : Group :=
  if o.hold.isSome && decide (g.stop = .run) then { g with stop := .held } else g

/-- Nothing moves (status 1, 2 or 3): every group goes on at the next instruction, with the highest priority among the
entries that arrived (R145). -/
def endUnmoved (s : State) (c : Nat) (o : RegroupOp) (status : Word) : State :=
  let s1 := writeStatus s c o status
  let prio := arrivedPrio (getCore s c) o
  updCore s1 c (fun k => o.slots.foldl (fun k x =>
    let g := k.group x
    k.withGroup x (afterHold o <| choose { g with
      latchA := none
      latchB := none
      frontier := g.frontier.map (fun e => if e.park = .hold then
        { e with pc := o.next, park := .none, prio := prio, settle := true } else e) })) (dropRegroup k o))

/-- What a register from vn upward holds at a moved thread's new place: undefined (R147), and, as the program of R296 shows
of a register that is zero in every thread, one of zero, what the thread held and what stood at the place (log 83,
DEDUCED). -/
def strayWord (s : State) (old : Core) (p : Thread × Nat × Nat) (r : Nat) : Word :=
  [0, regAt (old.group p.1.slot) r p.1.lane, regAt (old.group p.2.1) r p.2.2].getD (freeNatAt s 9 p.2.1 r p.2.2 % 3) 0

/-- The registers a thread takes to its new place, and those it leaves undefined there (R147). -/
def moveRegs (s : State) (old : Core) (n : Nat) (g : Group) (p : Thread × Nat × Nat) : Group :=
  if p.1.slot = p.2.1 ∧ p.1.lane = p.2.2 then g
  else (List.range g.allotment).foldl (fun g r =>
    setReg g r p.2.2 (if r < n then regAt (old.group p.1.slot) r p.1.lane else strayWord s old p r)) g

/-- One group of the role after the commit (R145 step 7, R147, R247). The drain has performed every write of the role (R266), so
the threads that have moved know them all. -/
def committed (s : State) (old : Core) (o : RegroupOp) (prio notBefore : Nat) (known : SMap Nat) (plan : List (Thread × Nat × Nat))
    (x : Nat) : Group :=
  let g := old.group x
  let mine := plan.filter (fun p => p.2.1 == x)
  let g1 := mine.foldl (moveRegs s old o.n) g
  let m := maskOf (mine.map (fun p => p.2.2))
  afterHold o { g1 with
    latchA := none
    latchB := none
    home := mine.foldl (fun h p =>
      mset 0 h p.2.2 (if p.1.home = (x, p.2.2) then 0 else p.1.home.1 * 64 + p.1.home.2 + 1)) []
    frontier := if m = 0 then [] else [{ pc := o.next, mask := m, prio := prio, notBefore := notBefore }]
    running := if m = 0 then none else some o.next
    seen := known
    dirty := (List.range g.allotment).foldl (fun d r => if d.contains r then d else d ++ [r]) g.dirty }

/-- A struck register of a live thread among those that a REGROUP stages from the groups `ch`, with its group and lane; a struck
shadow row is taken for one of the first of them (R148, R395) (log 23, DESIGN CHOICE). -/
def regroupStruck (k : Core) (o : RegroupOp) (ch : List Nat) : Option (Nat × Nat) :=
  match ch.findSome? (fun x => ((k.group x).bad.find? (fun q => decide (q / 64 < o.n) && (k.group x).liveMask.getLsbD (q % 64))).map
      (fun q => (x, q % 64))) with
  | some q => some q
  | none => if o.bad then ch.head?.map (fun x => (x, 0)) else none

/-- An uncorrectable error ends a REGROUP with status 2, then XM is raised at the group that owns the row (R148). -/
def regroupError (s : State) (c : Nat) (o : RegroupOp) (x l : Nat) : State :=
  raiseTrap (endUnmoved s c o 2) c (struckReq s x l (o.next - BitVec.ofNat 64 (lenBytes o.f.len)) [x])

/-- Steps 4 to 7 of R145; an error in what is staged ends them (R148). -/
def commitRegroup (s : State) (c : Nat) (o : RegroupOp) : State :=
  let k := getCore s c
  match planOf k o with
  | none => endUnmoved s c o 1
  | some plan =>
    let ch := changedSlots o plan
    let w := (k.group (o.slots.headD 0)).width
    if freeUnits k < ch.length * unitsOf o.n w then endUnmoved s c o 3
    else match regroupStruck k o ch with
    | some q => regroupError s c o q.1 q.2
    | none =>
      let prio := arrivedPrio k o
      let s1 := updCore s c (fun _ =>
        let k1 := ch.foldl (fun k x => swapShadow k x o.n w) (dropRegroup k o)
        o.slots.foldl (fun q x => q.withGroup x (committed s k o prio (arrivedNext k o) (jointSeen k c s.serial o.slots) plan x)) k1)
      grantGrows (writeStatus s1 c o 0) c

def findRegroup (k : Core) (b r : Nat) : Option RegroupOp :=
  k.regroups.find? (fun o => o.block == b && o.role == r)

/-- A pre-emption that REGROUP holds has waited for 4,096 cycles (R148). -/
def holdOver (s : State) (c : Nat) (o : RegroupOp) : Bool := (o.hold.map (fun t => decide (t + 4096 ≤ now s c))).getD false

/-- REGROUP_COMMIT (R145): once the drain is over, the role's threads are planned, staged and moved, or nothing moves. One
that has held a pre-emption for 4,096 cycles, or meets an uncorrectable error, commits no more (R148). -/
def execRegroupCommit (core block role : Nat) (s : State) : Host.Outcome State Fault Refusal :=
  match findRegroup (getCore s core) block role with
  | none => .next s
  | some o =>
    if holdOver s core o then .next (stepFree (endUnmoved s core o 2))
    else if regroupDrained s core o then
      .next (stepFree (commitRegroup (updCore s core (fun k => updSlots k o.slots (landDue (now s core)))) core o))
    else .next s

/-- REGROUP_PREEMPT_TIMEOUT (R148): a pre-emption held for 4,096 cycles abandons the REGROUP with status 2. -/
def execRegroupPreemptTimeout (core block role : Nat) (s : State) : Host.Outcome State Fault Refusal :=
  match findRegroup (getCore s core) block role with
  | none => .next s
  | some o => if holdOver s core o then .next (stepFree (endUnmoved s core o 2)) else .next s

/-- A trap of a group of the role abandons the REGROUP in progress first (R148). -/
def abortRegroups (s : State) (c : Nat) (xs : List Nat) : State :=
  ((getCore s c).regroups.filter (fun o => o.slots.any (fun x => xs.contains x))).foldl
    (fun s o => endUnmoved s c o 2) s

/-! ### GROW and SHRINK -/

/-- GROW (R151, R245, R424). -/
def performGrow (f : Fields) (_pc : Dword) (ms : Members) (s : State) : Res :=
  let c := s.cur.1
  let k := getCore s c
  match ms with
  | [] => .ok s
  | m :: _ =>
    let g := k.group m.slot
    let size := f.imm.toNat
    if m.exec = 0 then .ok s
    else if growRefused g size then .ok (statusNow s c m.slot f.d m.exec 2)
    else
      let lack : Res := if f.mod = 1 then .ok (statusNow s c m.slot f.d m.exec 1)
        else .park false .hold (updCore s c (fun k =>
          { k with growq := k.growq ++ [⟨m.slot, size, f.d.toNat, m.exec⟩] }))
      if f.mod = 0 ∧ !k.growq.isEmpty then lack
      else match growGroup k m.slot size with
        | none => lack
        | some k1 => .ok (statusNow (setCore s c k1) c m.slot f.d m.exec 0)
def execGrow (f : Fields) (s : State) : Host.Outcome State Fault Refusal := issue 0x1C5 f (performGrow f) s

/-- GROW_GRANT (R245): the oldest waiting GROW of the core is granted once it fits. -/
def execGrowGrant (core : Nat) (s : State) : Host.Outcome State Fault Refusal :=
  .next (stepFree ((grantGrow s core).getD s))

/-- SHRINK (R152). -/
def performShrink (f : Fields) (_pc : Dword) (ms : Members) (s : State) : Res :=
  let c := s.cur.1
  match ms with
  | [] => .ok s
  | m :: _ =>
    let g := getGroup s c m.slot
    if m.exec = 0 then .ok s
    else if !g.handles.isEmpty || g.pend.any (fun p => p.inFlight (now s c)) then .wait s
    else if g.allot.length ≤ 1 ∨ g.allot.getLast? ≠ some f.imm.toNat then .ok (statusNow s c m.slot f.d m.exec 2)
    else
      let s1 := statusNow (updGroup s c m.slot (landDue (now s c))) c m.slot f.d m.exec 0
      .ok (grantGrows (updCore s1 c (fun k =>
        let g := k.group m.slot
        freeFrom (k.withGroup m.slot { g with allot := g.allot.dropLast }) m.slot (g.allot.length - 1))) c)
def execShrink (f : Fields) (s : State) : Host.Outcome State Fault Refusal := issue 0x1C6 f (performShrink f) s

/-- COMPACTION (R243, R244): the units of a compaction have moved, and the groups that it holds go on. It ends once their own
results in flight have landed. -/
def execCompaction (core : Nat) (s : State) : Host.Outcome State Fault Refusal :=
  let k := getCore s core
  if k.moving.all (fun x => (k.group x).pend.all (fun p => !p.inFlight (now s core))) then
    .next (setCore s core { k with moving := [] })
  else .next s

end Sys2Proof.Machine
end

