-- ==== Sys2Proof/Machine/Hub.lean ====
section
/-! DEFINITION. Shared operations of the hub die: the command journal (R390, R391), message-signalled interrupts (R373),
the event log (R416), the loss vector (R341), and writes of hub agents to DRAM. -/

namespace Sys2Proof.Machine
open Sys2Proof

def setHub (s : State) (h : Hub → Hub) : State := { s with hub := h s.hub }
def setMgmt (s : State) (h : Mgmt → Mgmt) : State := { s with mgmt := h s.mgmt }

/-- A hub agent's write to DRAM (R259, R399): as the host complex, inserted at value 2 (R258). -/
def hubWrite (s : State) (a : Nat) (bs : List Byte) : State := homeWrite s a bs (some 2)
def hubWriteN (s : State) (a n v : Nat) : State := hubWrite s a (natToBytes n v)

/-- A frame number with tag 0 inside DRAM. -/
def systemBytes (s : State) (a n : Nat) : Bool :=
  ((List.range ((a + n - 1) / 65536 + 1 - a / 65536)).map (a / 65536 + ·)).all (fun f =>
    isDram (f * 65536) && frameTagOf s f == 0)

/-! ### The journal (R390 to R394) -/

/-- Bytes 0 to 27 of an entry (R391). -/
def journalBody (j : Word) (type qslot tenant : Nat) (pos : Word) (code hcyc : Nat) (detail : Word) : List Byte :=
  natToBytes 4 j.toNat ++ natToBytes 4 (type % 16 * 2 ^ 28 + qslot % 64 * 2 ^ 12 + tenant % 4096) ++
  natToBytes 4 pos.toNat ++ natToBytes 4 (code % 256) ++ natToBytes 8 hcyc ++ natToBytes 4 detail.toNat

def withCrc (bs : List Byte) : List Byte := bs ++ natToBytes 4 (crc32c bs).toNat

/-- JOURNAL_WRITE (R391): an entry at index JHEAD mod 65,536, then JHEAD advances. -/
def journalWrite (s : State) (type qslot tenant : Nat) (pos : Word) (code : Nat) (detail : Word) : State :=
  setHub s (fun h => { h with
    journal := mset [] h.journal (h.jhead.toNat % 65536)
      (withCrc (journalBody h.jhead type qslot tenant pos code (hubCount s 3) detail))
    jhead := h.jhead + 1 })

/-- What happens before the entry that the journal writes next (R277). -/
def tellJournal (s : State) (m : SMap Nat) : State :=
  setHub s (fun h => { h with told := mset [] h.told (h.jhead.toNat % 65536) m })

/-! ### Interrupts (R373) -/

/-- The interrupt file whose page begins at an address: nine for each hart, machine, supervisor and seven guests (R372). The manual
gives no address of theirs; these are the model's (log 103, DESIGN CHOICE). -/
def imsicFile (pa : Nat) : Option Nat :=
  if 0x8020000000 ≤ pa ∧ pa < 0x8020000000 + 144 * 4096 ∧ pa % 4096 = 0 then some ((pa - 0x8020000000) / 4096) else none

/-- An identity becomes pending in a file: 1 to 255 (R372). -/
def imsicSet (h : Hub) (file ident : Nat) : Hub :=
  if 1 ≤ ident ∧ ident ≤ 255 then { h with imsic := mset false h.imsic (file * 256 + ident) true } else h

/-- The message of an MSI entry is sent, to the IMSIC file that ADDR names. -/
def sendMsi (h : Hub) (m : Msi) : Hub :=
  let h1 := { h with msiSent := h.msiSent ++ [(m.addr, m.data)] }
  match imsicFile m.addr.toNat with
  | none => h1
  | some file => imsicSet h1 file m.data.toNat

/-- A hub event source raises its interrupt: held where masked or where ADDR names no IMSIC file. -/
def raiseMsi (s : State) (i : Nat) : State :=
  setHub s (fun h =>
    let m := mget {} h.msi i
    if m.mask || (imsicFile m.addr.toNat).isNone then { h with msi := mset {} h.msi i { m with pend := true } }
    else sendMsi h m)

/-! ### The event log (R416) -/

/-- Free kind-specific data of record n of the event log (log 55, DESIGN CHOICE). -/
def logData (s : State) (n : Nat) : List Byte :=
  (List.range 3).flatMap (fun i => natToBytes 4 (freeWordAt s 24 (n / 1024) n i).toNat)

/-- A record of the event log. The manual does not state the detail of most records, nor their data. -/
def logEvent (s : State) (kind : Nat) (detail : Option Nat) : State :=
  let n := s.mgmt.logHead
  let d := detail.getD (freeNatAt s 25 (n / 1024) n 0)
  let body := natToBytes 4 n ++ natToBytes 4 (kind % 256 * 2 ^ 24 + d % 2 ^ 24) ++ natToBytes 8 (hubCount s 8) ++ logData s n
  stepFree (setMgmt s (fun m => { m with log := mset [] m.log (n % 32768) (withCrc body), logHead := n + 1 }))

/-! ### The loss vector (R333, R341) -/

/-- LVEC is valid: 4 KiB aligned, in a DRAM frame of the tenant (R333). -/
def lvecValid (s : State) (t : Nat) : Bool :=
  let a := (getTenant s t).lvec
  decide (a % 4096 = 0) && isDram a && frameTagOf s (frameOf a) == t && t != 0

/-- A loss record (R341): written, its PEND bit set, OVF counted, SEQ published; nothing where LVEC is not valid (log 30, DESIGN CHOICE). -/
def lossRecord (s : State) (t kind : Nat) (lost : Bool) (ident nseq loff lsz : Nat) : State :=
  if !lvecValid s t then s
  else
    let x := getTenant s t
    let n := x.lossN + 1
    let i := x.lossN % 126
    let a := x.lvec
    let s1 := hubWrite (setTenant s t { x with lossN := n }) (a + 0x40 + 32 * i)
      (natToBytes 4 (kind % 16 * 2 ^ 28 + (if lost then 2 ^ 27 else 0)) ++ natToBytes 4 n ++ natToBytes 8 ident ++
       natToBytes 4 nseq ++ natToBytes 4 loff ++ natToBytes 8 lsz)
    let p := a + 0x10 + i / 8
    let old := (readByte s1.mem p).toNat
    let s2 := hubWriteN s1 p 1 (old ||| 2 ^ (i % 8))
    let s3 := if old.testBit (i % 8) then hubWriteN s2 (a + 0x20) 4 (readLE s2.mem (a + 0x20) 4 + 1) else s2
    hubWriteN s3 a 4 n

/-! ### Resources that were seized (R337) -/

/-- The resources of a kind seized for the tenant's most recent notice of that kind (R337). -/
def setSeized (s : State) (t kind : Nat) (rs : List Nat) : State :=
  let q := getTenant s t
  setTenant s t { q with seized := q.seized.filter (fun e => e.1 != kind) ++ (if rs.isEmpty then [] else [(kind, rs)]) }
def seizedOf (s : State) (t kind : Nat) : List Nat :=
  (((getTenant s t).seized.find? (fun e => e.1 == kind)).map (·.2)).getD []

/-- A resource bound to a tenant is none seized from it (R337) (log 64, DEDUCED). -/
def unseize (s : State) (t kind res : Nat) : State :=
  if (seizedOf s t kind).contains res then setSeized s t kind ((seizedOf s t kind).filter (· != res)) else s

/-! ### Reports to the firmware slot -/

/-- A start is asked for (R386, R388): one that runs stands; after three failed warm starts the next start is cold. -/
def requestStart (s : State) (cold : Bool) : State :=
  setHub s (fun h => { h with starting := some (h.starting.getD (cold || decide (3 ≤ h.failedWarm))) })

/-- Checkpoint operations of a tenant with some operation codes fail (R410). -/
def failCkops (s : State) (t : Nat) (ops : List Nat) (reason : Nat) : State :=
  setHub s (fun h => { h with ckops := h.ckops.map (fun o =>
    if o.tenant = t ∧ ops.contains o.op = true then { o with reason := some reason } else o) })

/-- An XM strikes a tenant, which the host has to answer (R397): a ROUND or FINAL of it in progress fails with reason 1 (R410). -/
def xmStrikes (s : State) (t cls : Nat) : State :=
  if cls = clsXM then
    setHub (failCkops s t [1, 2] 1) (fun h => { h with struck := if h.struck.contains t then h.struck else h.struck ++ [t] })
  else s

/-- An engine's OV or XM, reported without a frame (R198): a journal entry of type 6 and MSI entry 0. -/
def reportEngine (s : State) (tenant cls core ctx : Nat) : State :=
  xmStrikes (raiseMsi (journalWrite s 6 0 tenant 0 cls (BitVec.ofNat 32 (2 ^ 31 + core * 256 + ctx))) 0) tenant cls

/-- A poisoned sector lies in a region (R260). -/
def poisonedIn (s : State) (a n : Nat) : Bool := s.poison.any (fun q => decide (a / 64 ≤ q.1) && decide (q.1 * 64 < a + n))

/-- A unit of the hub has read a poisoned sector (R260, R396): it is logged where no tenant holds the frame, and else reported
for the tenant as an engine's XM is, with the core and slot that it worked for (log 101, DEDUCED). -/
def reportPoison (s : State) (a core ctx : Nat) : State :=
  let t := frameTagOf s (frameOf a)
  if t = 0 then logEvent s 4 none else reportEngine s t clsXM core ctx

/-! ### Launches and queues -/

def updLaunch (s : State) (id : Nat) (h : Launch → Launch) : State :=
  { s with launches := updFirst (fun l => l.id == id) h s.launches }
def findLaunch (s : State) (id : Nat) : Option Launch := s.launches.find? (fun l => l.id == id)

def blockOf (k : Core) (b : Nat) : Option Block := mget none k.blocks b

/-- The launch that a context's block belongs to; none for the handler and the firmware. -/
def launchOf (s : State) (c x : Nat) : Option Launch :=
  if handlerCtx ≤ x then none
  else match blockOf (getCore s c) (getGroup s c x).block with
    | none => none
    | some b => findLaunch s b.launch

def getQueue (s : State) (q : Nat) : QSlot := mget {} s.queues q
def setQueue (s : State) (q : Nat) (x : QSlot) : State := { s with queues := mset {} s.queues q x }
def updQueue (s : State) (q : Nat) (h : QSlot → QSlot) : State := setQueue s q (h (getQueue s q))

/-- Queue slots of a tenant. -/
def queuesOf (s : State) (t : Nat) : List Nat := (s.queues.filter (fun q => q.2.owner == t)).map (·.1)

/-- Cores bound to a tenant. -/
def coresOf (s : State) (t : Nat) : List Nat := (s.cores.filter (fun k => k.2.bound && k.2.tid == t)).map (·.1)

end Sys2Proof.Machine
end

