-- ==== Sys2Proof/Machine/Context.lean ====
section
/-! DEFINITION. What a trap frame and a saved context show as words and bytes: the frame registers (R283), the replay
entries (R286), the group record and the block context (R354, R355). -/

namespace Sys2Proof.Machine
open Sys2Proof

/-! ### Frames (R283) -/

def fclassWord (fr : Frame) : Word :=
  BitVec.ofNat 32 (fr.origin * 2 ^ 24 + fr.part * 2 ^ 22 + (fr.parts - 1) * 2 ^ 20 + (fr.members.length - 1) * 2 ^ 16 + fr.cls)

def fmemberWord (m : FMember) : Word := BitVec.ofNat 32 (m.slot * 256 + m.entries.length)

def rlaneWord (l : FLane) : Word := BitVec.ofNat 32 (l.state * 256 + l.prio % 256)

def lo (v : Dword) : Word := v.setWidth 32
def hi (v : Dword) : Word := (v >>> 32).setWidth 32

/-- A frame-wide register, by its index 0x10 to 0x15. -/
def frameWide (fr : Frame) (i : Nat) : Word :=
  if i = 0x10 then fclassWord fr
  else if i = 0x11 then fr.info
  else if i = 0x12 then lo fr.addr
  else if i = 0x13 then hi fr.addr
  else if i = 0x14 then lo fr.pc
  else hi fr.pc

/-- Word 0 of an entry (R286). -/
def entryHead (e : Replay) : Word :=
  BitVec.ofNat 32 (2 ^ 31 + e.kind % 8 * 2 ^ 28 + e.fate % 4 * 2 ^ 26 + scopeCode e.scope * 2 ^ 24)

/-- Word `w` of an entry for lane `l` (R286). -/
def entryWord (e : Replay) (w l : Nat) : Word :=
  if w = 0 then entryHead e
  else if w = 1 then lo e.word1
  else if w = 2 then hi e.word1
  else if w = 3 then e.word2
  else if w = 4 then e.imm
  else if w = 5 then BitVec.ofNat 32 ((if e.x.getLsbD l then 1 else 0) + (if e.fl.getLsbD l then 2 else 0))
  else if w ≤ 13 then mget 0 e.words (laneWord l w)
  else if w ≤ 17 then
    (if e.kind = 2 then BitVec.ofNat 32 ((e.xv.getD (2 * (w - 14)) 0).toNat + 65536 * (e.xv.getD (2 * (w - 14) + 1) 0).toNat)
     else 0)
  else 0

/-! ### Contexts (R354, R355) -/

def zeros (n : Nat) : List Byte := List.replicate n 0
def padTo (n : Nat) (bs : List Byte) : List Byte := bs ++ zeros (n - bs.length)

/-- Frames of a saved block. -/
def blockFrames (v : Saved) : List Frame := v.handler.toList ++ v.frames ++ v.framesF ++ v.parts ++ v.partsF

/-- The lanes of a group: those of its frame where one of some frames holds it, as the handler has left them (R283). -/
def lanesIn (frs : List Frame) (x : Nat) (g : Group) : List FLane :=
  match (frs.flatMap (·.members)).find? (fun m => m.slot == x) with
  | some m => m.lanes
  | none => (List.range g.width).map (frameLane g)

/-- Lane l of a group record, from the group's lanes. -/
def laneRecord (ls : List FLane) (g : Group) (x l : Nat) : List Byte :=
  let q := ls.getD l {}
  let h := homeOf g x l
  natToBytes 8 (if q.state = 0 then 0 else q.pc.toNat) ++
  natToBytes 4 (if q.state = 0 then 0 else h.2 * 2 ^ 16 + h.1 * 2 ^ 10 + q.state * 2 ^ 8 + q.prio % 256) ++ zeros 4

/-- The group record (R355). -/
def groupRecord (ls : List FLane) (g : Group) (x nent : Nat) : List Byte :=
  let set := match g.setId with
    | none => 0
    | some i => i % 16 * 2 ^ 11 + 2 ^ 10
  padTo 1024
    (natToBytes 4 (g.handles.length * 2 ^ 21 + nent * 2 ^ 15 + set + g.wd % 4 * 256 + g.role % 4 * 64 + x % 64) ++
     (List.range 4).flatMap (fun i => natToBytes 2 (g.allot.getD i 0)) ++
     natToBytes 4 g.fpflags.toNat ++ natToBytes 4 g.mx.toNat ++
     (List.range 8).flatMap (fun i => natToBytes 2 (g.xv.getD i 0).toNat) ++
     (List.range 16).flatMap (fun i => natToBytes 2 (((g.handles[i]?).map (·.reg)).getD 0xFFFF))) ++
  (List.range 64).flatMap (laneRecord ls g x)

/-- A replay entry of a context: words 0 to 17 of each lane, lane-major. -/
def entryBytes (e : Replay) : List Byte :=
  (List.range 64).flatMap (fun l => (List.range 18).flatMap (fun w => natToBytes 4 (entryWord e w l).toNat))

/-- Registers block by block of the allotment list: register by register, W lane words each. -/
def registerBytes (g : Group) : List Byte :=
  (List.range g.allotment).flatMap (fun r => (List.range g.width).flatMap (fun l => natToBytes 4 (regAt g r l).toNat))

def groupBytes (ls : List FLane) (x : Nat) (g : Group) (es : List Replay) : List Byte :=
  groupRecord ls g x es.length ++ es.flatMap entryBytes ++ registerBytes g

/-- Size of a group's part (R354). -/
def groupSize (g : Group) (nent : Nat) : Nat := 2048 + 4608 * nent + 4 * g.allotment * g.width

def entriesOf (v : Saved) (x : Nat) : List Replay := mget [] v.entries x

def groupsSize (v : Saved) : Nat := (v.groups.map (fun q => groupSize q.2 (entriesOf v q.1).length)).foldl (· + ·) 0

def hframeOf (v : Saved) : Nat := if v.handler.isNone then 0 else 256 + groupsSize v + 8192 * v.block.banks

/-- SIZE of a context: a multiple of 256 (R354). -/
def contextSize (v : Saved) : Nat :=
  (256 + groupsSize v + 8192 * v.block.banks + (if v.handler.isNone then 0 else 34816) + 255) / 256 * 256

def contextHeader (v : Saved) (qslot pos : Nat) : List Byte :=
  padTo 256
    (natToBytes 4 1 ++ natToBytes 4 (contextSize v) ++
     natToBytes 4 (v.core * 2 ^ 20 + v.index % 4 * 2 ^ 18 + qslot % 64 * 2 ^ 12 + v.tenant % 4096) ++ natToBytes 4 pos ++
     natToBytes 4 (v.groups.length % 64 * 2 ^ 18 + v.block.banks % 64 * 2 ^ 12 + v.block.bank0 % 64 * 64 + v.block.nspm % 64) ++
     natToBytes 4 (hframeOf v))

/-- The handler area (R354). -/
def handlerBytes (v : Saved) : List Byte :=
  match v.handler, v.hgroup with
  | some fr, some g =>
    padTo 1024 ((List.range 6).flatMap (fun i => natToBytes 4 (frameWide fr (0x10 + i)).toNat) ++ zeros 8) ++
    (List.range 64).flatMap (laneRecord (lanesIn [] handlerCtx g) g handlerCtx) ++
    (List.range 128).flatMap (fun r => (List.range 64).flatMap (fun l => natToBytes 4 (regAt g r l).toNat))
  | _, _ => []

/-- A whole context (R354). -/
def contextBytes (v : Saved) (qslot pos : Nat) : List Byte :=
  padTo (contextSize v)
    (contextHeader v qslot pos ++ v.groups.flatMap (fun q => groupBytes (lanesIn (blockFrames v) q.1 q.2) q.1 q.2 (entriesOf v q.1)) ++
     readBytes v.spm 0 (8192 * v.block.banks) ++ handlerBytes v)

/-- Where a saved group's part stands in its context, and where its registers stand. -/
def savedGroupOffset (v : Saved) (x : Nat) : Nat :=
  256 + ((v.groups.filter (fun q => decide (q.1 < x))).map (fun q => groupSize q.2 (entriesOf v q.1).length)).foldl (· + ·) 0
def savedRegOffset (v : Saved) (x r : Nat) : Nat :=
  if x = handlerCtx then hframeOf v + 2048 + 256 * r
  else savedGroupOffset v x + 2048 + 4608 * (entriesOf v x).length + 4 * (mget {} v.groups x).width * r

/-- A completion word that reaches a saved block goes into its register image (R351). -/
def completeSaved (s : State) (id x op : Nat) (word : Word) : State :=
  match s.saved.find? (fun v => v.id == id) with
  | none => s
  | some v =>
    let g := if x = handlerCtx then v.hgroup.getD {} else mget {} v.groups x
    match g.handles.find? (fun h => h.op == op && h.reg != vnull) with
    | none => s
    | some h =>
      let g1 := (List.range g.width).foldl (fun g l => setReg g h.reg l word)
        { g with handles := g.handles.filter (fun q => q.op != op) }
      let s1 := hubWrite s (v.addr + savedRegOffset v x h.reg) ((List.range g.width).flatMap (fun _ => natToBytes 4 word.toNat))
      { s1 with saved := updFirst (fun q => q.id == id) (fun q =>
          if x = handlerCtx then { q with hgroup := some g1 } else { q with groups := mset {} q.groups x g1 }) s1.saved }

/-! ### Reading a context (R356)

The crew restores what the bytes say. What fixes the layout (the groups and their allotments, the pending handles, the
instruction of an entry) is as saved (log 90, DESIGN CHOICE). -/

/-- A lane as its record gives it; one that is parked still stands where it was parked (R355). -/
def readLane (m : List Host.Cell) (a : Nat) (old : FLane) : FLane :=
  let w := readLE m (a + 8) 4
  let st := w / 256 % 4
  if st = 0 then {}
  else { state := st, prio := w % 256, pc := BitVec.ofNat 64 (readLE m a 8), park := if st = 2 then old.park else .none }

/-- The lanes of the group whose part stands at `a`. -/
def readLanes (m : List Host.Cell) (a : Nat) (old : List FLane) : List FLane :=
  old.zipIdx.map (fun q => readLane m (a + 1024 + 16 * q.2) q.1)

/-- Where a thread in lane l belongs, as its record gives it. -/
def readHome (m : List Host.Cell) (a x l : Nat) : Nat :=
  let w := readLE m (a + 1024 + 16 * l + 8) 4
  if w = 0 || (w / 2 ^ 10 % 64 == x && w / 2 ^ 16 % 64 == l) then 0 else w / 2 ^ 10 % 64 * 64 + w / 2 ^ 16 % 64 + 1

/-- Registers of `w` lanes from address `a` on. -/
def readRegs (m : List Host.Cell) (a n w : Nat) : SMap Word :=
  (List.range n).foldl (fun regs r => (List.range w).foldl (fun regs l =>
    mset 0 regs (cellKey r l) (BitVec.ofNat 32 (readLE m (a + 4 * (w * r + l)) 4))) regs) []

/-- A group from its part of a context. -/
def readGroup (m : List Host.Cell) (a nent x : Nat) (g : Group) : Group :=
  let head := readLE m a 4
  { g with
    setId := if head.testBit 10 then some (head / 2 ^ 11 % 16) else none
    fpflags := BitVec.ofNat 32 (readLE m (a + 12) 4)
    mx := BitVec.ofNat 3 (readLE m (a + 16) 4)
    xv := (List.range 8).map (fun i => BitVec.ofNat 16 (readLE m (a + 20 + 2 * i) 2))
    home := (List.range g.width).foldl (fun h l => mset 0 h l (readHome m a x l)) []
    frontier := lanesToFrontier (readLanes m a ((List.range g.width).map (frameLane g)))
    regs := readRegs m (a + 2048 + 4608 * nent) g.allotment g.width }

/-- An entry of a replay queue from its words: FATE, SCOPE and IMM are the instruction's; the lanes and the operands are read
(R286). -/
def readEntry (m : List Host.Cell) (a : Nat) (e : Replay) : Replay :=
  let word := fun (l w : Nat) => readLE m (a + 72 * l + 4 * w) 4
  { e with
    fate := word 0 0 / 2 ^ 26 % 4
    x := maskOf ((List.range 64).filter (fun l => (word l 5).testBit 0))
    fl := maskOf ((List.range 64).filter (fun l => (word l 5).testBit 1))
    words := (List.range 64).foldl (fun ws l => (List.range 8).foldl (fun ws w =>
      mset 0 ws (laneWord l (w + 6)) (BitVec.ofNat 32 (word l (w + 6)))) ws) []
    xv := if e.kind = 2 then (List.range 8).map (fun i => BitVec.ofNat 16 (word 0 (14 + i / 2) / 2 ^ (16 * (i % 2)))) else e.xv }

def readEntries (m : List Host.Cell) (a : Nat) (es : List Replay) : List Replay :=
  es.zipIdx.map (fun q => readEntry m (a + 2048 + 4608 * q.2) q.1)

/-- A frame whose members' lanes and entries are read. -/
def readFrame (m : List Host.Cell) (v : Saved) (fr : Frame) : Frame :=
  { fr with members := fr.members.map (fun q =>
      let a := v.addr + savedGroupOffset v q.slot
      { q with lanes := readLanes m a q.lanes, entries := readEntries m a q.entries }) }

/-- The handler's frame words and registers, from the handler area. -/
def readHandlerFrame (m : List Host.Cell) (a : Nat) (fr : Frame) : Frame :=
  { fr with info := BitVec.ofNat 32 (readLE m (a + 4) 4), addr := BitVec.ofNat 64 (readLE m (a + 8) 8),
            pc := BitVec.ofNat 64 (readLE m (a + 16) 8) }
def readHandler (m : List Host.Cell) (a : Nat) (g : Group) : Group :=
  { g with frontier := lanesToFrontier (readLanes m a ((List.range g.width).map (frameLane g))),
           regs := readRegs m (a + 2048) 128 64 }

/-- A saved block as its context in memory gives it. -/
def readContext (m : List Host.Cell) (v : Saved) : Saved :=
  let spmAt := v.addr + 256 + groupsSize v
  let ha := v.addr + hframeOf v
  { v with
    groups := v.groups.map (fun q => (q.1, readGroup m (v.addr + savedGroupOffset v q.1) (entriesOf v q.1).length q.1 q.2))
    entries := v.entries.map (fun q => (q.1, readEntries m (v.addr + savedGroupOffset v q.1) q.2))
    handler := v.handler.map (fun fr => readHandlerFrame m ha (readFrame m v fr))
    hgroup := v.hgroup.map (readHandler m ha)
    frames := v.frames.map (readFrame m v), framesF := v.framesF.map (readFrame m v)
    parts := v.parts.map (readFrame m v), partsF := v.partsF.map (readFrame m v)
    spm := (List.range (8192 * v.block.banks)).foldl (fun c i => writeByte c i (readByte m (spmAt + i))) [] }

end Sys2Proof.Machine
end

