-- ==== Sys2Proof/Machine/Engines.lean ====
section
/-! DEFINITION. Copies and handles, opcodes 0x280 to 0x286 (R191 to R200), the engines' steps (R198, R343), and the tile
dispenser, opcodes 0x300 and 0x301 (R201, R202, R308). -/

namespace Sys2Proof.Machine
open Sys2Proof

/-! ### Copies: operands and checks -/

/-- Scalar operands of a copy or fabric request (R191, R195, R203). -/
structure EngArgs where
  src : Dword
  dst : Dword
  d0  : Word
  d1  : Word
  d2  : Word
  d3  : Word
deriving DecidableEq, Repr

/-- The replay words of a copy or fabric request: every lane holds the scalar operands (R286). -/
def argWords (a : EngArgs) (l : Nat) (w : SMap Word) : SMap Word :=
  putWord (putWord (putWord (putWord (putWord64 (putWord64 w l 6 a.src) l 8 a.dst) l 10 a.d0) l 11 a.d1) l 12 a.d2) l 13 a.d3

/-- A failed check at issue (R196, R280): KIND 6, lane 0. -/
def engTrap (i : Instr) (f : Fields) (pc : Dword) (ms : Members) (a : EngArgs) (cls : Nat) (addr : Dword) (s : State) : Res :=
  scalarTrap i f pc 6 cls addr ms (argWords a) s

/-- Step 1 of R196: the descriptor, registers C to C+3 in turn (R195). -/
def checkDesc (a : EngArgs) : Option Nat :=
  let b := a.d0.toNat
  let r := a.d1.toNat
  if b % 4 ≠ 0 then some clsAL
  else if b < 4 ∨ 16777216 < b then some clsTP
  else if 65536 < r then some clsTP
  else if a.d2.toNat % 4 ≠ 0 then some clsAL
  else if a.d3.toNat % 4 ≠ 0 then some clsAL
  else if 1 < r ∧ a.d3.toNat < b then some clsTP
  else none

/-- Whether rows of `len` bytes at `off + i x pitch`, i < r, touch bank `bk`. -/
def rowsTouch (off pitch r len bk : Nat) : Bool :=
  let lo := bk * 8192
  let i := if lo < off + len then 0 else if pitch = 0 then r else (lo + 1 - off - len + pitch - 1) / pitch
  decide (i < r) && decide (off + i * pitch < lo + 8192)

/-- A scratchpad side in full (R159, R196): its range, then its banks' tags. A side of no row is checked at its base (log 96,
DESIGN CHOICE). -/
def checkRows (s : State) (c tenant : Nat) (sa : Word) (pitch r len : Nat) : Except Nat Nat :=
  let off := (sa.extractLsb' 0 19).toNat
  let core := if sa.getLsbD 23 then c / 4 * 4 + (sa.extractLsb' 21 2).toNat else c
  match checkSpm s c tenant 4 sa with
  | .error cls =>
    if cls ≠ clsOV then .error cls
    else if 0 < r ∧ 8192 * (getCore s core).nspm < off + (r - 1) * pitch + len then .error clsTP
    else .error clsOV
  | .ok key =>
    if 0 < r ∧ 8192 * (getCore s core).nspm < off + (r - 1) * pitch + len then .error clsTP
    else if (List.range 40).all (fun bk => !rowsTouch off pitch r len bk || bankTagOf s core bk == tenant) then .ok key
    else .error clsOV

/-- Kinds of copies: 0 CPY.g2s, 1 CPY.s2g, 2 CPYG, 3 CPYS. -/
def srcSpm (kind : Nat) : Bool := kind == 1 || kind == 3
def dstSpm (kind : Nat) : Bool := kind == 0 || kind == 3

/-- Options (R195): the insertion at L2, and zero fill. -/
def optIns (f : Fields) : Nat := (f.imm.extractLsb' 0 3).toNat
def optZf (f : Fields) : Bool := f.imm.getLsbD 3

/-- Steps 2 to 4 of R196: the failing class and address, which for a scratchpad side is its base (log 96, DESIGN CHOICE), or the
addresses the engine uses. -/
def checkSides (s : State) (c t kind : Nat) (zf : Bool) (a : EngArgs) : Except (Nat × Dword) (Dword × Dword) :=
  let r := a.d1.toNat
  let b := a.d0.toNat
  let src : Unit → Except (Nat × Dword) Dword := fun _ =>
    if zf then Except.ok a.src
    else if srcSpm kind then
      match checkRows s c t (a.src.setWidth 32) a.d2.toNat r b with
      | .ok key => .ok (BitVec.ofNat 64 key)
      | .error cls => .error (cls, a.src)
    else .ok a.src
  let dst : Unit → Except (Nat × Dword) Dword := fun _ =>
    if dstSpm kind then
      match checkRows s c t (a.dst.setWidth 32) a.d3.toNat r b with
      | .ok key => .ok (BitVec.ofNat 64 key)
      | .error cls => .error (cls, a.dst)
    else .ok a.dst
  if !zf && a.src.toNat % 4 ≠ 0 then .error (clsAL, a.src)
  else if a.dst.toNat % 4 ≠ 0 then .error (clsAL, a.dst)
  else match src (), dst () with
    | .error e, _ => .error e
    | .ok _, .error e => .error e
    | .ok x, .ok y =>
      if !zf && !srcSpm kind && !signExtended a.src then .error (clsTP, a.src)
      else if !dstSpm kind && !signExtended a.dst then .error (clsTP, a.dst)
      else .ok (x, y)

/-- Cause codes of a completion word (R192). -/
def causeOf (cls : Nat) : Nat := if cls = clsTM then 1 else if cls = clsTP then 2 else if cls = clsOV then 3 else 4

/-- The die of a CPYG and the cause that its choice has met, or that a walk is to be waited for: the first destination byte is
translated as an access of the issuing core, without a trap (R196, R261). -/
def copyDie (s : State) (c x kind sub : Nat) (dst : Dword) : State × Except Tr (Nat × Nat) :=
  if kind = 2 ∧ sub = 1 then
    match translate s c x dst 2 with
    | (s1, .pa pa) => (useWalks s1 c x 2 [pageOf dst], .ok (homeDie pa, 0))
    | (s1, .fault cls) => (useWalks s1 c x 2 [pageOf dst], .ok (dieOf c, causeOf cls))
    | (s1, w) => (s1, .error w)
  else (s, .ok (dieOf c, 0))

/-- Kind of engine in a completion word (R192). -/
def copyEngine (kind : Nat) : Nat := if kind = 2 then 2 else 1

/-- A group's writes that must be acknowledged before an engine reads for it (R197). -/
def groupWrites (k : Core) (x : Nat) : List Nat :=
  dedup ((k.group x).storeq.map (·.id) ++ (k.flight.filter (fun q => q.ctx == x)).map (·.id))

/-- CPY, CPYG and CPYS with their scalar operands (R192, R193, R195, R196, R198) (log 25, DESIGN CHOICE). -/
def startCopy (i : Instr) (kind : Nat) (f : Fields) (pc : Dword) (ms : Members) (x : Nat) (a : EngArgs) (s : State) : Res :=
  let c := s.cur.1
  let k := getCore s c
  let g := k.group x
  let t := tenantOf s c x
  if isPending g f.d.toNat then hxTrap f pc [x] x s
  else if 16 ≤ g.handles.length then .wait s
  else match checkDesc a with
    | some cls => engTrap i f pc ms a cls a.src s
    | none => match checkSides s c t kind (optZf f) a with
      | .error (cls, addr) => engTrap i f pc ms a cls addr s
      | .ok (src, dst) =>
        if a.d1 = 0 then .ok (writeAllLanes s c x f.d.toNat (completionWord false false (copyEngine kind) 0 0))
        else
          match copyDie s c x kind f.sub.toNat a.dst with
          | (s1, .error .full) => .wait s1
          | (s1, .error _) => .stay s1
          | (s1, .ok (die, cause)) =>
            let id := s1.serial
            let q : Copy :=
              { id := id, kind := kind, core := c, ctx := x, tenant := t, die := die, src := src, dst := dst,
                row := a.d0.toNat, rows := a.d1.toNat, sp := a.d2.toNat, dp := a.d3.toNat, ins := optIns f, zf := optZf f,
                waits := groupWrites k x, fail0 := cause }
            .ok (addHandle { s1 with serial := id + 1, copies := s1.copies ++ [q] } c x f.d.toNat id)

/-- Scalar operands from the lowest executing lane: addresses as single registers or pairs, and the run C to C+3. -/
def engArgs (s : State) (c x l : Nat) (f : Fields) (wideA wideB : Bool) : EngArgs :=
  { src := if wideA then pairA s c x f l else (opA s c x f l).setWidth 64
    dst := if wideB then pairB s c x f l else (opB s c x f l).setWidth 64
    d0 := runC s c x f 0 l, d1 := runC s c x f 1 l, d2 := runC s c x f 2 l, d3 := runC s c x f 3 l }

/-- CPY (R196). -/
def performCpy (f : Fields) (pc : Dword) (ms : Members) (s : State) : Res :=
  match scalarLane ms with
  | none => .ok s
  | some (x, l) =>
    startCopy (.cpy f) f.sub.toNat f pc ms x (engArgs s s.cur.1 x l f (f.sub == 0) (f.sub != 0)) s
def execCpy (f : Fields) (s : State) : Host.Outcome State Fault Refusal := issue 0x280 f (performCpy f) s

/-- CPYG (R196). -/
def performCpyg (f : Fields) (pc : Dword) (ms : Members) (s : State) : Res :=
  match scalarLane ms with
  | none => .ok s
  | some (x, l) => startCopy (.cpyg f) 2 f pc ms x (engArgs s s.cur.1 x l f true true) s
def execCpyg (f : Fields) (s : State) : Host.Outcome State Fault Refusal := issue 0x281 f (performCpyg f) s

/-- CPYS (R196). -/
def performCpys (f : Fields) (pc : Dword) (ms : Members) (s : State) : Res :=
  match scalarLane ms with
  | none => .ok s
  | some (x, l) => startCopy (.cpys f) 3 f pc ms x (engArgs s s.cur.1 x l f false false) s
def execCpys (f : Fields) (s : State) : Host.Outcome State Fault Refusal := issue 0x282 f (performCpys f) s

/-! ### The count (R199) -/

/-- Chunks of a row of `len` bytes whose destination starts at `a` (R198). -/
def rowChunks (a len : Nat) : Nat := (a % 4096 + len + 4095) / 4096

def totalChunks (dst dp rows len : Nat) : Nat :=
  ((List.range rows).map (fun i => rowChunks (dst + i * dp) len)).foldl (· + ·) 0

/-- ceil(T / 2^k). -/
def unitsUp (t k : Nat) : Nat := (t + 2 ^ k - 1) / 2 ^ k

/-- The smallest k with fewer than 2^20 units (R199). -/
def unitShift (t : Nat) : Nat := ((List.range 10).find? (fun k => decide (unitsUp t k < 2 ^ 20))).getD 10

def copyTotal (q : Copy) : Nat := totalChunks q.dst.toNat q.dp q.rows q.row

/-- The completion word of a copy: whole units on success, complete ones on a stop. -/
def copyWord (q : Copy) (error cancelled : Bool) (cause : Nat) : Word :=
  let t := copyTotal q
  let k := unitShift t
  completionWord error cancelled (copyEngine q.kind) cause (if error || cancelled then q.chunks / 2 ^ k else unitsUp t k)

/-! ### An engine's accesses (R196 to R198) -/

/-- Bytes from `va` on, cut at pages. -/
def pagePieces (va : Dword) (n : Nat) : List (Dword × Nat) :=
  let n1 := min n (65536 - va.toNat % 65536)
  if n1 = n then [(va, n)] else [(va, n1), (va + BitVec.ofNat 64 n1, n - n1)]

/-- Sectors of global bytes are read at their homes in one access, inserted in L2 as it says (log 84, DEDUCED). -/
def bringSectors (s : State) (b : Brought) (secs : List Nat) (ins : Option Nat) : State × Brought :=
  secs.foldl (fun r q => bringL2 r.1 r.2 q ins false) (s, b)

/-- An engine's read of global bytes at their homes, with their translations, as one access; poison is XM. -/
def engineReadFrom (s : State) (b : Brought) (die t ins : Nat) : List (Dword × Nat) → State × Except Nat (List Byte)
  | [] => (s, .ok [])
  | (va, n) :: rest =>
    match engineTranslate s die t va 1 with
    | (s1, .error cls) => (s1, .error cls)
    | (s1, .ok pa) =>
      if poisoned s1 pa n then (s1, .error clsXM)
      else
        let r := bringSectors s1 b (sectorsOf pa n) (if ins = 4 then none else some ins)
        match engineReadFrom r.1 r.2 die t ins rest with
        | (s3, .error cls) => (s3, .error cls)
        | (s3, .ok bs) => (s3, .ok (readBytes s1.mem pa n ++ bs))

def engineRead (s : State) (die t ins : Nat) (ps : List (Dword × Nat)) : State × Except Nat (List Byte) :=
  engineReadFrom s {} die t ins ps

/-- An engine's write of global bytes: their home, and the issuing core's L1, which keeps bytes of a store of the core still under
way (R267), and from which a system engine drops the sectors (R197, R257). -/
def engineWrite (s : State) (core pa : Nat) (bs : List Byte) (ins : Option Nat) (drop : Bool) : State :=
  let s1 := homeWrite s pa bs ins
  updCore s1 core (fun k =>
    let k1 := l1Store k pa bs (storeInFlight k)
    if drop then (sectorsOf pa bs.length).foldl l1DropSector k1 else k1)

/-- Undefined bytes (R21). -/
def freeBytes (s : State) (n : Nat) : List Byte := (List.range n).map (fun i => (freeWordAt s 14 0 (i / 64) (i % 64)).setWidth 8)

/-! ### COPY_CHUNK, COPY_COMPLETE, BUDGET_REFILL -/

/-- The current chunk: offset of its source and destination from their bases, and its length. -/
def chunkLen (q : Copy) : Nat :=
  let a := q.dst.toNat + q.ri * q.dp + q.off
  min (4096 - a % 4096) (q.row - q.off)

/-- Whether destination byte `v` is also a source byte (R195). -/
def inSource (q : Copy) (v : Nat) : Bool :=
  let src := q.src.toNat
  if q.zf || srcSpm q.kind != dstSpm q.kind || v < src then false
  else
    let i := if q.sp = 0 then 0 else min (q.rows - 1) ((v - src) / q.sp)
    decide (v - (src + i * q.sp) < q.row)

/-- The bytes a chunk writes: zeros, or the source's; undefined where source and destination overlap (log 7, DEDUCED). -/
def blurOverlap (s : State) (q : Copy) (base : Nat) (bs : List Byte) : List Byte :=
  let fr := freeBytes s bs.length
  bs.zipIdx.map (fun b => if inSource q (base + b.2) then fr.getD b.2 0 else b.1)

def updCopy (s : State) (id : Nat) (h : Copy → Copy) : State :=
  { s with copies := updFirst (fun q => q.id == id) h s.copies }

/-- A copy stops on a failure; an engine's OV or XM is reported (R198). -/
def copyFail (s : State) (q : Copy) (cause : Nat) : State :=
  let s1 := updCopy s q.id (fun q => { q with done := some (copyWord q true false cause) })
  if cause = 3 then reportEngine s1 q.tenant clsOV q.core q.ctx
  else if cause = 4 then reportEngine s1 q.tenant clsXM q.core q.ctx
  else s1

/-- The source bytes of a chunk. -/
def chunkSource (s : State) (q : Copy) (n : Nat) : State × Except Nat (List Byte) :=
  let at' := q.ri * q.sp + q.off
  if q.zf then (s, .ok (List.replicate n 0))
  else if srcSpm q.kind then
    (s, if struckSpm s (q.src.toNat + at') n then .error clsXM else .ok (readBytes s.spm (q.src.toNat + at') n))
  else engineRead s q.die q.tenant q.ins (pagePieces (q.src + BitVec.ofNat 64 at') n)

/-- The destination of a chunk: a scratchpad key, or a physical address. -/
def chunkDest (s : State) (q : Copy) : State × Except Nat Nat :=
  let at' := q.ri * q.dp + q.off
  if dstSpm q.kind then (s, .ok (q.dst.toNat + at'))
  else engineTranslate s q.die q.tenant (q.dst + BitVec.ofNat 64 at') 2

def chunkWrite (s : State) (q : Copy) (a : Nat) (bs : List Byte) : State :=
  if dstSpm q.kind then spoilTiles (spmWrite s (copyWriter q.id) q.id a bs) a bs.length
  else engineWrite s q.core a bs (if q.ins = 4 then none else some q.ins) (decide (q.kind = 2))

/-- Progress after a chunk of `n` bytes. -/
def chunkStep (n : Nat) (q : Copy) : Copy :=
  let q1 := { q with chunks := q.chunks + 1 }
  let q2 := if q.off + n = q.row then { q1 with ri := q.ri + 1, off := 0 } else { q1 with off := q.off + n }
  if q2.ri = q.rows then { q2 with done := some (copyWord q2 false false 0) } else q2

def budgetOf (s : State) (die t : Nat) : Int := mget 0 s.budget (die * 4096 + t)

/-- A CPYG's chunk is charged the engine cycles it took (R343). -/
def chargeBudget (s : State) (q : Copy) : State :=
  if q.kind ≠ 2 then s
  else
    let cost : Int := (freeNatAt s 15 0 0 0 % 512 + 1 : Nat)
    { s with budget := mset 0 s.budget (q.die * 4096 + q.tenant) (budgetOf s q.die q.tenant - cost) }

/-- A CPYG whose tenant's counter is zero or less is suspended (R200, R343), but for a FINAL of the tenant, which waits for its
copies whatever the budgets (R402). -/
def suspended (s : State) (q : Copy) : Bool :=
  q.kind == 2 && decide (budgetOf s q.die q.tenant ≤ 0) && !s.hub.ckops.any (fun o => o.tenant == q.tenant && o.op == 2)

/-- One chunk moved, or the failure it meets (R198); where source and destination both fail, the source's cause is reported, an
order that the manual does not fix (log 26, DESIGN CHOICE). A chunk is charged whether it fails or not (R343). -/
def moveChunk (s : State) (q : Copy) : State :=
  let n := chunkLen q
  let base := q.dst.toNat + q.ri * q.dp + q.off
  match chunkSource (chargeBudget s q) q n with
  | (s1, r) => match chunkDest s1 q with
    | (s2, .error cls) => copyFail s2 q (causeOf (match r with
        | .error c0 => c0
        | .ok _ => cls))
    | (s2, .ok a) => match r with
      | .error cls => copyFail (chunkWrite s2 q a (freeBytes s n)) q (causeOf cls)
      | .ok bs => updCopy (chunkWrite s2 q a (blurOverlap s q base bs)) q.id (chunkStep n)

/-! ### The system copy engines of a die (R4, R344) -/

def getEngine (s : State) (e : Nat) : CopyEngine := mget {} s.engines e
def setEngine (s : State) (e : Nat) (x : CopyEngine) : State := { s with engines := mset {} s.engines e x }

/-- A copy that is not over: its engine reads once the group's earlier writes are acknowledged (R197). -/
def copyOpen (s : State) (q : Copy) : Bool := q.done.isNone && q.waits.all (acknowledged (getCore s q.core))

/-- The copy whose chunk an engine has under way. -/
def engineBusy (s : State) (e : Nat) : Option Nat :=
  (getEngine s e).busy.filter (fun id => s.copies.any (fun q => q.id == id && q.done.isNone))

/-- The engine, of the eight of its die, that has a copy's chunk under way. -/
def engineOf (s : State) (q : Copy) : Option Nat :=
  ((List.range 8).map (q.die * 8 + ·)).find? (fun e => engineBusy s e == some q.id)

/-- A copy whose next chunk an engine of a die may take (R200, R344). -/
def eligible (s : State) (die : Nat) (q : Copy) : Bool :=
  q.kind == 2 && q.die == die && copyOpen s q && (q.cancel || !suspended s q) && (engineOf s q).isNone

/-- How far a tenant comes after the one that an engine served last, in ascending order round the ids. -/
def turnOf (last t : Nat) : Nat := (t + 4096 - (last + 1) % 4096) % 4096

/-- The next chunk's copy (R344): the first tenant after the one served last, and of its copies the one issued first. -/
def pickCopy (last : Nat) (qs : List Copy) : Option Copy :=
  match qs.map (fun q => turnOf last q.tenant) with
  | [] => none
  | t :: ts => qs.find? (fun q => turnOf last q.tenant == ts.foldl min t)

/-- An idle engine takes a chunk. -/
def feedEngine (s : State) (e : Nat) : State :=
  if (engineBusy s e).isSome then s
  else match pickCopy (getEngine s e).last (s.copies.filter (eligible s (e / 8))) with
    | none => s
    | some q => setEngine s e { getEngine s e with busy := some q.id }

/-- Every idle engine of the module takes a chunk of an eligible copy, where there is one; of several idle ones the lowest first
(log 26, DESIGN CHOICE). -/
def feedEngines (s : State) : State :=
  if s.copies.all (fun q => q.kind != 2) then s else (List.range 32).foldl feedEngine s

/-- An engine has ended a chunk of a tenant. -/
def endChunk (s : State) (e : Option Nat) (t : Nat) : State :=
  match e with
  | none => s
  | some e => feedEngines (setEngine s e { busy := none, last := t })

/-- What an engine that has taken a copy does: it moves a chunk, or ends the copy where a cancel or a failure waits at the
boundary. -/
def runChunk (s : State) (q : Copy) : State :=
  if q.cancel then updCopy s q.id (fun q => { q with done := some (copyWord q false true 0) })
  else if q.fail0 ≠ 0 then copyFail s q q.fail0
  else stepFree (moveChunk s q)

/-- COPY_CHUNK (R197 to R200, R343, R344): an engine that has taken a copy's next chunk is done with it: a core's copy engine, or,
for a CPYG, the system copy engine that has it under way. -/
def execCopyChunk (id : Nat) (s0 : State) : Host.Outcome State Fault Refusal :=
  let s := feedEngines s0
  match s.copies.find? (fun q => q.id == id) with
  | none => .next s
  | some q =>
    if !copyOpen s q || (q.kind == 2 && (engineOf s q).isNone) then .next s
    else .next (endChunk (runChunk s q) (engineOf s q) q.tenant)

/-- A copy's completion word is written, and the copy is over. -/
def finishCopy (s : State) (q : Copy) (word : Word) : State :=
  let s1 := { s with copies := s.copies.filter (fun p => p.id != q.id) }
  match q.saved with
  | some v => completeSaved s1 v q.ctx q.id word
  | none => completeCopyHandle s1 q.core q.ctx q.id word

/-- COPY_COMPLETE (R192, R197): every byte written is acknowledged, and the completion word is written. -/
def execCopyComplete (id : Nat) (s : State) : Host.Outcome State Fault Refusal :=
  match s.copies.find? (fun q => q.id == id) with
  | none => .next s
  | some q => match q.done with
    | none => .next s
    | some w => .next (stepFree (finishCopy s q w))

/-- BUDGET_REFILL (R343): after every 65,536 cycles of a die each tenant's counter is raised by its budget, to the budget
at most. -/
def execBudgetRefill (die : Nat) (s : State) : Host.Outcome State Fault Refusal :=
  let d := getDie s die
  if d.cycle < (d.refills + 1) * 65536 then .next s
  else
    let tenants := dedup (s.tenants.map (·.1) ++ ((s.budget.filter (fun q => q.1 / 4096 == die)).map (fun q => q.1 % 4096)))
    .next (tenants.foldl (fun s t =>
      let b : Int := ((getTenant s t).bud.getD die 0 : Nat)
      { s with budget := mset 0 s.budget (die * 4096 + t) (min (budgetOf s die t + b) b) })
      (setDie s die { d with refills := d.refills + 1 }))

/-! ### Handle instructions (R194) -/

/-- HTEST: 0 for a pending handle, else the register's value, lane by lane (log 95, DESIGN CHOICE). -/
def performHtest (f : Fields) (_pc : Dword) (ms : Members) (s : State) : Res :=
  .ok (postResults s s.cur.1 f ms none 1 (fun t x l =>
    [if isPending (getGroup t t.cur.1 x) f.a.toNat then 0 else opA t t.cur.1 x f l]))
def execHtest (f : Fields) (s : State) : Host.Outcome State Fault Refusal := issue 0x283 f (performHtest f) s

/-- HMOV: the pendency or the value, lane by lane (log 95, DESIGN CHOICE), moves, and A reads zero in every lane. -/
def performHmov (f : Fields) (pc : Dword) (ms : Members) (s0 : State) : Res :=
  let c := s0.cur.1
  match scalarLane ms with
  | none => .ok s0
  | some (x, _) =>
    let g := getGroup s0 c x
    let s := updGroup s0 c x (learnDones [(f.a.toNat, 1)])
    if isPending g f.d.toNat then hxTrap f pc [x] x s0
    else if isPending g f.a.toNat then
      let moved := (g.handles.map (fun h => if h.reg = f.a.toNat then { h with reg := f.d.toNat } else h)).filter
        (fun h => h.reg != vnull)
      let s1 := updGroup s c x (fun g => { g with handles := moved })
      .ok (writeAllLanes s1 c x f.a.toNat 0)
    else if f.a = f.d then .ok (writeAllLanes s c x f.a.toNat 0)
    else .ok (writeAllLanes (postResults s c f ms none 1 (fun t x l => [opA t c x f l])) c x f.a.toNat 0)
def execHmov (f : Fields) (s : State) : Host.Outcome State Fault Refusal := issue 0x284 f (performHmov f) s

/-- A cancel asked of an operation (R194, R200, R366). -/
def cancelOp (s : State) (id : Nat) : State :=
  match s.copies.find? (fun q => q.id == id) with
  | some q =>
    if q.done.isNone && q.saved.isNone && suspended s q then finishCopy s q (copyWord q false true 0)
    else updCopy s id (fun q => { q with cancel := true })
  | none => match s.hub.links.find? (fun q => q.id == id) with
    | none => s
    | some q =>
      if q.sent then s
      else completeHandle { s with hub := { s.hub with links := s.hub.links.filter (fun p => p.id != id) } } q.core q.ctx id
        (completionWord false true 4 0 0)

/-- HCANCEL. -/
def performHcancel (f : Fields) (_pc : Dword) (ms : Members) (s : State) : Res :=
  let c := s.cur.1
  match scalarLane ms with
  | none => .ok s
  | some (x, _) => match (getGroup s c x).handles.find? (fun h => h.reg == f.a.toNat) with
    | none => .ok s
    | some h => .ok (cancelOp s h.op)
def execHcancel (f : Fields) (s : State) : Host.Outcome State Fault Refusal := issue 0x285 f (performHcancel f) s

/-- HWAIT: waits until A is not pending. -/
def performHwait (f : Fields) (_pc : Dword) (ms : Members) (s : State) : Res :=
  if ms.any (fun m => m.exec != 0 && isPending (getGroup s s.cur.1 m.slot) f.a.toNat) then .wait s else .ok s
def execHwait (f : Fields) (s : State) : Host.Outcome State Fault Refusal := issue 0x286 f (performHwait f) s

/-! ### The dispenser (R201, R202, R308) -/

/-- Cells of a square of side `2^k` at (x, y) inside the extents. -/
def clipCount (nx ny x y k : Nat) : Nat := (min nx (x + 2 ^ k) - x) * (min ny (y + 2 ^ k) - y)

/-- The j-th pair in Morton order inside the extents, in the square of side `2^k` at (x, y). -/
def mortonAt (nx ny : Nat) : Nat → Nat → Nat → Nat → Nat × Nat
  | 0, x, y, _ => (x, y)
  | k + 1, x, y, j =>
    let h := 2 ^ k
    let a := clipCount nx ny x y k
    let b := clipCount nx ny (x + h) y k
    let d := clipCount nx ny x (y + h) k
    if j < a then mortonAt nx ny k x y j
    else if j < a + b then mortonAt nx ny k (x + h) y (j - a)
    else if j < a + b + d then mortonAt nx ny k x (y + h) (j - a - b)
    else mortonAt nx ny k (x + h) (y + h) (j - a - b - d)

/-- Coordinates of tile i (R308). -/
def tileAt (l : Launch) (i : Nat) : Nat × Nat × Nat :=
  let z := i / (l.nx * l.ny)
  let j := i % (l.nx * l.ny)
  if l.order = 0 then (j % l.nx, j / l.nx, z)
  else if l.order = 1 then (j / l.ny, j % l.ny, z)
  else if l.order = 2 then let p := mortonAt l.nx l.ny 16 0 0 j; (p.1, p.2, z)
  else
    let g := 2 ^ l.glog2
    let b := j / (g * l.ny)
    let w := min g (l.nx - b * g)
    let k := j - b * g * l.ny
    (b * g + k % w, k / w, z)

def spaceSize (l : Launch) : Nat := l.nx * l.ny * l.nz

/-- Tiles that are left: returned ones and unissued ones. -/
def tilesLeft (l : Launch) : Nat := l.returned.length + (spaceSize l - l.nextTile)

/-- The next tile: returned ones first, in the order they were returned. -/
def takeTile (l : Launch) : Option ((Nat × Nat × Nat) × Launch) :=
  match l.returned with
  | t :: rest => some (t, { l with returned := rest })
  | [] => if l.nextTile < spaceSize l then some (tileAt l l.nextTile, { l with nextTile := l.nextTile + 1 }) else none

def tileWords (t : Nat × Nat × Nat) : List Word := [BitVec.ofNat 32 (t.2.1 * 65536 + t.1), BitVec.ofNat 32 t.2.2]
def noTile : List Word := [0xFFFFFFFF, 0xFFFFFFFF]

/-- A coordinate for each of some lanes, all outstanding to the block. -/
def takeTiles (l : Launch) (c b : Nat) : List Nat → List (Nat × List Word) × Launch
  | [] => ([], l)
  | x :: xs => match takeTile l with
    | none => let r := takeTiles l c b xs; ((x, noTile) :: r.1, r.2)
    | some (t, l1) =>
      let r := takeTiles { l1 with outst := l1.outst ++ [(t, c, b)] } c b xs
      ((x, tileWords t) :: r.1, r.2)

/-- The durations that a group's earlier tiles give the chute's mean (R348). -/
def sampleTiles (l : Launch) (c x t n : Nat) : Launch :=
  let old := (l.handout.filter (fun h => h.1 == c && h.2.1 == x)).flatMap (fun h => List.replicate h.2.2.2 (t - h.2.2.1))
  let all := l.samples ++ old
  { l with samples := all.drop (all.length - 64),
           handout := l.handout.filter (fun h => !(h.1 == c && h.2.1 == x)) ++ [(c, x, t, n)] }

/-- TFETCH (R201, R308, R350): one coordinate for the group, or one for each executing lane in ascending order. A
context without a launch has no index space, and what it reads is undefined. -/
def performTfetch (f : Fields) (_pc : Dword) (ms : Members) (s : State) : Res :=
  let c := s.cur.1
  match ms.head? with
  | none => .ok s
  | some m =>
    let x := m.slot
    let g := getGroup s c x
    let lanes := lanesOf m.exec
    let want := if f.scope = .lane then lanes else lanes.take 1
    if m.exec = 0 then .ok s
    else match launchOf s c x with
      | none => .ok (postResults s c f ms none 2 (fun t y l => [freeWordAt t 16 y 0 l, freeWordAt t 16 y 1 l]))
      | some la =>
        if g.drained then .ok (postResults (updLaunch s la.id (fun l => sampleTiles l c x (now s c) 0)) c f ms none 2 (fun _ _ _ => noTile))
        else if 65536 < la.outst.length + min want.length (tilesLeft la) then .wait s
        else
          let got := takeTiles (sampleTiles la c x (now s c) (min want.length (tilesLeft la))) c g.block want
          let s1 := updLaunch s la.id (fun _ => got.2)
          .ok (postResults s1 c f ms none 2 (fun _ _ l =>
            if f.scope = .lane then ((got.1.find? (fun q => q.1 == l)).map (·.2)).getD noTile
            else (got.1.head?.map (·.2)).getD noTile))
def execTfetch (f : Fields) (s : State) : Host.Outcome State Fault Refusal := issue 0x300 f (performTfetch f) s

/-- One lane's tile goes back if it is outstanding to the block (R202). -/
def returnTile (c b : Nat) (l : Launch) (t : Nat × Nat × Nat) : Launch :=
  if l.outst.contains (t, c, b) then { l with outst := l.outst.erase (t, c, b), returned := l.returned ++ [t] } else l

/-- TRET (R202). -/
def performTret (f : Fields) (_pc : Dword) (ms : Members) (s : State) : Res :=
  let c := s.cur.1
  .ok (ms.foldl (fun s m =>
    match launchOf s c m.slot with
    | none => s
    | some la =>
      let tiles := (lanesOf m.exec).map (fun l =>
        let v := pairA s c m.slot f l
        ((v.extractLsb' 0 16).toNat, (v.extractLsb' 16 16).toNat, (v.extractLsb' 32 32).toNat))
      updLaunch s la.id (fun l => tiles.foldl (returnTile c (getGroup s c m.slot).block) l)) s)
def execTret (f : Fields) (s : State) : Host.Outcome State Fault Refusal := issue 0x301 f (performTret f) s

end Sys2Proof.Machine
end

