-- ==== Sys2Proof/Machine/Links.lean ====
section
/-! DEFINITION. Fabric requests: LPOST, opcode 0x302 (R203, R204, R276), queue pairs and lanes (R361 to R365, R369), the
initiator's and the target's side of a request (R366 to R368, R370), and the remote ownership table (R331, R332). -/

namespace Sys2Proof.Machine
open Sys2Proof

/-! ### Queue pairs -/

def getQp (s : State) (q : Nat) : Qp := mget {} s.hub.qps q
def setQp (s : State) (q : Nat) (x : Qp) : State := setHub s (fun h => { h with qps := mset {} h.qps q x })

/-- Requests in a queue pair's send queue (R363). -/
def sendQueue (s : State) (q : Nat) : List LinkOp := s.hub.links.filter (fun l => l.qp == q)

/-- The lanes of a mask that are in service (R362). -/
def liveLanes (s : State) (lanes : BitVec 96) : List Nat :=
  (List.range 96).filter (fun l => lanes.getLsbD l && !s.hub.laneDown.contains l)

/-- Usable ports of a queue pair, for the lanes of its peer (R363). -/
def usablePorts (s : State) (mine peer : BitVec 96) : List Nat :=
  (List.range 24).filter (fun p => (liveLanes s mine).any (fun l => l / 4 == p) &&
    peer.extractLsb' (4 * p) 4 != 0)

/-- Destination chunks of a request (R198, R366): `.put` at the remote address, `.get` at the local one. -/
def linkChunks (q : LinkOp) : Nat :=
  if q.op = 0 then rowChunks q.rem.toNat q.len else if q.op = 1 then rowChunks q.loc.toNat q.len else 1

/-- A request leaves its send queue with its completion word (R192). -/
def finishLink (s : State) (q : LinkOp) (word : Word) : State :=
  completeHandle (setHub s (fun h => { h with links := h.links.filter (fun p => p.id != q.id) })) q.core q.ctx q.id word

def linkDone (q : LinkOp) : Word := completionWord false false 4 0 (linkChunks q)
def linkError (cause count : Nat) : Word := completionWord true false 4 cause count

/-- A request stops on a local failure; OV and XM are reported (R198, R204, R366). -/
def linkLocalFail (s : State) (q : LinkOp) (cls count : Nat) : State :=
  let s1 := finishLink s q (linkError (causeOf cls) count)
  if cls = clsOV ∨ cls = clsXM then reportEngine s1 q.tenant cls q.core q.ctx else s1

/-- Every request of a queue pair completes with cause 6 (R364): a `.put` that was transmitted with a count of chunks that the
initiator cannot tell (R369), any other with count 0, since none of its chunks is completed before its response comes (R199). -/
def failLinks (s : State) (qp : Nat) : State :=
  (sendQueue s qp).foldl (fun s q =>
    finishLink s q (linkError 6 (if q.sent && q.op == 0 then freeNatAt s 17 0 (q.id / 64) q.id % (linkChunks q + 1) else 0))) s

/-- A queue pair enters ERROR on its own (R364), which raises MSI entry 5 (R373). -/
def qpFail (s : State) (qp : Nat) : State :=
  raiseMsi (stepFree (failLinks (setQp s qp { getQp s qp with state := 2 }) qp)) 5

/-- A receiver of a torn-down queue pair discards its staging, and at the source so does the buddy of the tenant whose checkpoint the
pair carries (R403). -/
def dropStaging (h : Hub) (qp : Nat) : Hub :=
  let drop := fun (q : Nat × Receiver) => if q.2.en && q.2.qp == qp then (q.1, { q.2 with sused := 0, staged := [] }) else q
  let t := (mget {} h.qps qp).tenant
  { h with receivers := h.receivers.map drop,
           images := mmap {} (fun u (g : Image) => if u = t then { g with staged := [] } else g) h.images }

/-- A queue pair is torn down (R364). -/
def qpTear (s : State) (qp : Nat) : State :=
  stepFree (failLinks (setHub (setQp s qp { getQp s qp with state := 0 }) (fun h => dropStaging h qp)) qp)

/-- Every lane that a queue pair may use is bound to a tenant (R326, R364). -/
def lanesBound (s : State) (q : Qp) (t : Nat) : Bool :=
  ((List.range 96).filter (fun l => q.lanes.getLsbD l)).all (fun l => laneTagOf s l == t)

/-- QP_SET_READY (R364): the write of STATE = 1 is taken where its conditions hold; ERROR is left by STATE = 0 alone. -/
def execQpSetReady (qp : Nat) (peer : PeerView) (s : State) : Host.Outcome State Fault Refusal :=
  let q := getQp s qp
  if q.v && q.state != 2 && decide (1 ≤ q.tenant) && decide (q.tenant ≤ 4094) &&
      lanesBound s q q.tenant && peer.valid && peer.peerMod == s.mgmt.modid && peer.peerQp == qp && !(usablePorts s q.lanes peer.lanes).isEmpty
  then .next (setQp s qp { q with state := 1, peerLanes := peer.lanes })
  else .next s

/-- QP_TEARDOWN (R364): a write of STATE = 0. -/
def execQpTeardown (qp : Nat) (s : State) : Host.Outcome State Fault Refusal := .next (qpTear s qp)

/-- QP_ERROR (R364): no usable port is left, or the peer has torn down. -/
def execQpError (qp : Nat) (peerDown : Bool) (s : State) : Host.Outcome State Fault Refusal :=
  let q := getQp s qp
  if q.state = 1 ∧ (peerDown = true ∨ (usablePorts s q.lanes q.peerLanes).isEmpty) then .next (qpFail s qp) else .next s

/-- FLIT_TIMEOUT (R362): the flit is sent again; the management controller counts it. -/
def execFlitTimeout (lane : Nat) (s : State) : Host.Outcome State Fault Refusal :=
  .next (setHub s (fun h => { h with retries := mset 0 h.retries lane (mget 0 h.retries lane + 1) }))

/-- LANE_RETRAIN_FAIL (R362, R364, R416): the lane leaves service, which is counted and logged; queue pairs left without
a usable port enter ERROR. -/
def execLaneRetrainFail (lane : Nat) (s : State) : Host.Outcome State Fault Refusal :=
  if s.hub.laneDown.contains lane then .next s
  else
    let s1 := setHub s (fun h => { h with laneDown := h.laneDown ++ [lane], removed := h.removed + 1 })
    let s2 := logEvent s1 6 none
    .next ((s2.hub.qps.filter (fun q => q.2.state == 1 && (usablePorts s2 q.2.lanes q.2.peerLanes).isEmpty)).foldl
      (fun s q => qpFail s q.1) s2)

/-! ### LPOST (R203, R280, R365) -/

/-- The first failed check at issue: class and address (R203, R280, R326) (log 33, DEDUCED). -/
def lpostCheck (s : State) (t sub qp : Nat) (a : EngArgs) : Option (Nat × Dword) :=
  let len := a.d0.toNat
  let q := getQp s qp
  if sub < 2 ∧ (len < 1 ∨ 16777215 < len) then some (clsTP, a.src)
  else if 2 ≤ sub ∧ a.src.toNat % 8 ≠ 0 then some (clsAL, a.src)
  else if 2 ≤ sub ∧ a.dst.toNat % 8 ≠ 0 then some (clsAL, a.dst)
  else if !q.v || q.tenant != t || !lanesBound s q t then some (clsOV, 0)
  else none

/-- The request that LPOST posts. -/
def linkOpOf (s : State) (c x t sub qp : Nat) (a : EngArgs) : LinkOp :=
  { id := s.serial, qp := qp, core := c, ctx := x, tenant := t, op := sub, loc := a.src, rem := a.dst,
    len := if sub < 2 then a.d0.toNat else 8, opnd := a.d1 ++ a.d0, new := a.d3 ++ a.d2,
    waits := groupWrites (getCore s c) x }

/-- LPOST with its scalar operands. -/
def lpostArgs (f : Fields) (pc : Dword) (ms : Members) (x : Nat) (a : EngArgs) (s : State) : Res :=
  let c := s.cur.1
  let g := getGroup s c x
  let t := tenantOf s c x
  let qp := f.imm.toNat
  let sub := f.sub.toNat
  if isPending g f.d.toNat then hxTrap f pc [x] x s
  else match lpostCheck s t sub qp a with
    | some (cls, addr) => engTrap (.lpost f) f pc ms a cls addr s
    | none =>
      if 16 ≤ g.handles.length ∨ 256 ≤ (sendQueue s qp).length then .wait s
      else if (getQp s qp).state ≠ 1 then .ok (writeAllLanes s c x f.d.toNat (linkError 6 0))
      else
        let q := linkOpOf s c x t sub qp a
        .ok (addHandle (setHub { s with serial := s.serial + 1 } (fun h => { h with links := h.links ++ [q] })) c x f.d.toNat q.id)

/-- LPOST (R203, R204, R365, R366). -/
def performLpost (f : Fields) (pc : Dword) (ms : Members) (s : State) : Res :=
  match scalarLane ms with
  | none => .ok s
  | some (x, l) => lpostArgs f pc ms x (engArgs s s.cur.1 x l f true true) s
def execLpost (f : Fields) (s : State) : Host.Outcome State Fault Refusal := issue 0x302 f (performLpost f) s

/-! ### The initiator (R366) -/

/-- Pieces of `len` bytes cut at the 4 KiB boundaries of an address (R198): offsets and lengths. -/
def chunkCuts (a len : Nat) : List (Nat × Nat) :=
  (List.range (rowChunks a len)).map (fun i =>
    let off := i * 4096 - (if i = 0 then 0 else a % 4096)
    (off, min (4096 - (a + off) % 4096) (len - off)))

/-- Bytes of global memory in pieces, in order; the failure and the pieces read before it. -/
def linkRead (s : State) (die t : Nat) (va : Dword) : List (Nat × Nat) → Nat → State × Except (Nat × Nat) (List Byte)
  | [], _ => (s, .ok [])
  | (off, n) :: rest, k =>
    match engineRead s die t 2 (pagePieces (va + BitVec.ofNat 64 off) n) with
    | (s1, .error cls) => (s1, .error (cls, k))
    | (s1, .ok bs) => match linkRead s1 die t va rest (k + 1) with
      | (s2, .error e) => (s2, .error e)
      | (s2, .ok cs) => (s2, .ok (bs ++ cs))

/-- LINK_TRANSMIT (R204, R276, R366): the oldest request of its queue pair not yet sent leaves once the group's earlier
writes are acknowledged; a `.put` reads its source first. -/
def execLinkTransmit (id : Nat) (s : State) : Host.Outcome State Fault Refusal :=
  match s.hub.links.find? (fun q => q.id == id) with
  | none => .next s
  | some q =>
    let first := ((sendQueue s q.qp).find? (fun p => !p.sent)).map (·.id)
    if q.sent || first != some id || !q.waits.all (acknowledged (getCore s q.core)) then .next s
    else
      let send := fun (s : State) (bs : List Byte) => setHub s (fun h =>
        { h with links := updFirst (fun p => p.id == id) (fun p => { p with sent := true, data := bs }) h.links })
      if q.op ≠ 0 then .next (send s [])
      else match linkRead s (dieOf q.core) q.tenant q.loc (chunkCuts q.rem.toNat q.len) 0 with
        | (s1, .error (cls, k)) => .next (linkLocalFail s1 q cls k)
        | (s1, .ok bs) => .next (send s1 bs)

/-- What arrives is written at the local address chunk by chunk (R366): a translation failure and the chunks before it (log 34, DEDUCED). -/
def linkStore (s : State) (q : LinkOp) (data : List Byte) : List (Nat × Nat) → Nat → State × Option (Nat × Nat)
  | [], _ => (s, none)
  | (off, n) :: rest, k =>
    match engineTranslate s (dieOf q.core) q.tenant (q.loc + BitVec.ofNat 64 off) 2 with
    | (s1, .error cls) => (s1, some (cls, k))
    | (s1, .ok pa) =>
      let s2 := engineWrite s1 q.core pa ((data.drop off).take n) (some 2) true
      linkStore s2 q data rest (k + 1)

/-- The chunk at which a `.get` stopped is undefined (R198). -/
def spoilChunk (s : State) (q : LinkOp) : List (Nat × Nat) → State
  | [] => s
  | (off, n) :: _ => match engineTranslate s (dieOf q.core) q.tenant (q.loc + BitVec.ofNat 64 off) 2 with
    | (s1, .error _) => s1
    | (s1, .ok pa) => engineWrite s1 q.core pa (freeBytes s n) (some 2) true

/-- The local write of a response: chunks that came whole, and the one that did not. -/
def linkArrive (s : State) (q : LinkOp) (cause chunks : Nat) (data : List Byte) : State :=
  let cuts := if q.op = 1 then chunkCuts q.loc.toNat q.len else [(0, 8)]
  let whole := cuts.filter (fun p => decide (p.1 + p.2 ≤ data.length))
  if q.op = 0 then finishLink s q (if cause = 0 then linkDone q else linkError cause (min chunks (linkChunks q)))
  else match linkStore s q data whole 0 with
    | (s1, some (cls, k)) => linkLocalFail s1 q cls k
    | (s1, none) =>
      if cause = 0 then finishLink s1 q (linkDone q)
      else if q.op = 1 then finishLink (if cause = 5 then s1 else spoilChunk s1 q (cuts.drop whole.length)) q (linkError cause whole.length)
      else finishLink s1 q (linkError cause 0)

/-- LINK_RESPONSE (R204, R366, R367): the target's answer to a transmitted request. A success carries every byte that the
request reads (log 73, DESIGN CHOICE). -/
def execLinkResponse (id cause chunks : Nat) (data : List Byte) (s : State) : Host.Outcome State Fault Refusal :=
  match s.hub.links.find? (fun q => q.id == id) with
  | none => .next s
  | some q =>
    if !q.sent || (cause == 0 && q.op != 0 && data.length != q.len) then .next s
    else .next (stepFree (linkArrive s q cause chunks (if q.op = 1 || cause == 0 then data.take q.len else [])))

/-! ### The target (R331, R332, R367, R368, R370) -/

/-- PERM of an entry allows the operation. -/
def rotPerm (e : RotEntry) (op : Nat) : Bool :=
  if op = 0 then e.perm.getLsbD 1 else if op = 1 then e.perm.getLsbD 2 else e.perm.getLsbD 0

/-- The entry that admits a request. -/
def rotFind (s : State) (r : RemoteReq) (n : Nat) : Option RotEntry :=
  (s.hub.rot.find? (fun q =>
    let e := q.2
    e.v && (e.smod == 1023 || e.smod == r.smod) && e.st == r.stenant && rotPerm e r.op &&
    decide (e.base.toNat ≤ r.addr.toNat) && decide (r.addr.toNat + n ≤ e.base.toNat + 65536 * e.npg))).map (·.2)

/-- The die on which a target tenant's accesses are translated: that of its lowest core. -/
def tenantDie (s : State) (t : Nat) : Nat := dieOf ((coresOf s t).headD 0)

def respond (s : State) (r : RemoteReq) (cause chunks : Nat) (data : List Byte) : State :=
  setHub s (fun h => { h with resps := h.resps ++ [⟨r.smod, r.qp, cause, chunks, data⟩] })

/-- The chunk of a `.put` that failed is undefined where the target has bytes for it: a page that may not be written (R367). -/
def spoilRemote (s : State) (die t : Nat) (va : Dword) (n : Nat) : State :=
  match engineTranslate s die t va 1 with
  | (s1, .error _) => s1
  | (s1, .ok pa) => hubWrite s1 pa (freeBytes s n)

/-- A `.put` chunk by chunk: the state and, on a failure, the chunks before it. -/
def remotePut (s : State) (die t : Nat) (va : Dword) (data : List Byte) : List (Nat × Nat) → Nat → State × Option Nat
  | [], _ => (s, none)
  | (off, n) :: rest, k =>
    match engineTranslate s die t (va + BitVec.ofNat 64 off) 2 with
    | (s1, .error _) => (stepFree (spoilRemote s1 die t (va + BitVec.ofNat 64 off) n), some k)
    | (s1, .ok pa) => remotePut (hubWrite s1 pa ((data.drop off).take n)) die t va data rest (k + 1)

/-- A `.get` piece by piece: the bytes read, and the cause that stopped it. -/
def remoteGet (s : State) (die t : Nat) (va : Dword) : List (Nat × Nat) → State × List Byte × Nat
  | [] => (s, [], 0)
  | (off, n) :: rest =>
    match engineRead s die t 2 (pagePieces (va + BitVec.ofNat 64 off) n) with
    | (s1, .error cls) => (s1, [], if cls = clsXM then 4 else 7)
    | (s1, .ok bs) => let q := remoteGet s1 die t va rest; (q.1, bs ++ q.2.1, q.2.2)

/-- `.fadd` and `.cas` (R368): one indivisible 64-bit read-modify-write at the home slice; a `.cas` that finds another value
writes nothing (R325). -/
def remoteAtomic (s : State) (die t : Nat) (r : RemoteReq) : State :=
  match engineTranslate s die t r.addr 3 with
  | (s1, .error _) => respond s1 r 7 0 []
  | (s1, .ok pa) =>
    if poisoned s1 pa 8 then respond s1 r 4 0 []
    else
      let old := readLE s1.mem pa 8
      let new := if r.op = 2 then (old + r.opnd.toNat) % 2 ^ 64 else r.new.toNat
      let s2 := l2Read s1 (pa / 64) (some 2) false
      respond (if r.op = 2 ∨ old = r.opnd.toNat then hubWriteN s2 pa 8 new else s2) r 0 1 (natToBytes 8 old)

/-- A request that the table admits (R367). -/
def remotePerform (s : State) (tt : Nat) (r : RemoteReq) : State :=
  let die := tenantDie s tt
  let cuts := chunkCuts r.addr.toNat r.len
  if r.op = 0 then
    match remotePut s die tt r.addr r.data cuts 0 with
    | (s1, some k) => respond s1 r 7 k []
    | (s1, none) => respond s1 r 0 cuts.length []
  else if r.op = 1 then
    let q := remoteGet s die tt r.addr cuts
    respond q.1 r q.2.2 (cuts.filter (fun p => decide (p.1 + p.2 ≤ q.2.1.length))).length q.2.1
  else remoteAtomic s die tt r

/-- What is still performed of a request whose queue pair has left READY (R369): of a `.put` the chunks that still arrive, of an
atomic the whole or nothing. No response is sent. -/
def remoteCut (s : State) (tt : Nat) (r : RemoteReq) (ks : List Nat) : State :=
  let die := tenantDie s tt
  let cuts := (chunkCuts r.addr.toNat r.len).zipIdx.filter (fun q => ks.contains q.2)
  if r.op = 0 then (remotePut s die tt r.addr r.data (cuts.map (·.1)) 0).1
  else if r.op = 1 ∨ ks = [] then s
  else setHub (remoteAtomic s die tt r) (fun h => { h with resps := s.hub.resps })

/-- LINK_REQUEST_ARRIVE (R332, R367, R370): the table is searched once for each request that arrives; a violation writes its record
before the failure is sent. -/
def execLinkRequestArrive (r : RemoteReq) (s : State) : Host.Outcome State Fault Refusal :=
  let q := getQp s r.qp
  let n := if r.op < 2 then r.len else 8
  match rotFind s r n, r.cut with
  | some e, none => .next (remotePerform s e.tt r)
  | some e, some ks => .next (remoteCut s e.tt r ks)
  | none, none =>
    .next (respond (lossRecord s q.tenant 7 false r.addr.toNat (r.smod * 2 ^ 22 + r.stenant % 4096) r.op n) r 5 0 [])
  | none, some _ => .next s

end Sys2Proof.Machine
end

