-- ==== Sys2Proof/Machine/System.lean ====
section
/-! DEFINITION. Control registers (R24 to R32, R209, R210, R328, R335), IFENCE (R211), translation entries (R212 to R214),
CEDE, FWCALL, GSTOP and NWAIT (R215 to R218): opcodes 0x346 to 0x34F. -/

namespace Sys2Proof.Machine
open Sys2Proof

/-! ### CSRRD and CSRWR -/

/-- Results that readers see already are written in every member. -/
def landMembers (s : State) (c : Nat) (ms : Members) : State :=
  ms.foldl (fun s m => updGroup s c m.slot (landDue (now s c))) s

/-- An earlier floating-point instruction of a member has not completed (R27). -/
def fpOpen (s : State) (c : Nat) (ms : Members) : Bool :=
  ms.any (fun m => (getGroup s c m.slot).pend.any (fun p => p.fp))

/-- The value of a control register for a context (R209, R303). The handler's and the firmware's context are in no
launch: their k.kernarg is undefined. -/
def csrValue (s : State) (c x code : Nat) : Dword :=
  let k := getCore s c
  let g := k.group x
  if code = 0x1001 then g.fpflags.setWidth 64
  else if code = 0x1002 then (gstatOf g).setWidth 64
  else if code = 0x1003 then
    (match (if handlerCtx ≤ x then none else blockOf k g.block) with
     | some b => b.karg
     | none => freeWordAt s 18 x 1 0 ++ freeWordAt s 18 x 0 0)
  else if code = 0x2001 then k.tHandler
  else if code = 0x2002 then g.notice
  else if code = 0x2003 then (getTenant s (tenantOf s c x)).xlat
  else k.fTenant.setWidth 64

/-- CSRRD (R210). -/
def performCsrrd (f : Fields) (_pc : Dword) (ms : Members) (s : State) : Res :=
  let c := s.cur.1
  let code := f.imm.toNat
  let s1 := landMembers s c ms
  if noExec ms then .ok s
  else if code = 0x1001 ∧ fpOpen s1 c ms then .wait s
  else .ok (postResults s1 c f ms none (if csrWide code then 2 else 1) (fun t x _ => pairWords (csrValue t c x code)))
def execCsrrd (f : Fields) (s : State) : Host.Outcome State Fault Refusal := issue 0x346 f (performCsrrd f) s

/-- The group that t.notice names no longer receives notices (R31). -/
def dropNotice (s : State) (t c x : Nat) : State :=
  let q := getTenant s t
  if q.noticeGroup = some (c, x) then setTenant s t { q with noticeGroup := none } else s

/-- f.tenant takes a value (R32): a core that is bound to a new tenant has its t.handler cleared, and its activation table and bias
vector zeroed (R30, R188), and is none seized from that tenant (R337). -/
def writeTenant (s : State) (c : Nat) (v : Word) : State :=
  let w := v &&& 0x80000FFF
  let k := getCore s c
  if w.getLsbD 31 && (!k.bound || w.extractLsb' 0 12 != k.fTenant.extractLsb' 0 12) then
    let s1 := unseize s (w.extractLsb' 0 12).toNat 0 c
    { setCore s1 c { k with fTenant := w, tHandler := 0 } with tables := merase s.tables c, biases := merase s.biases c }
  else setCore s c { k with fTenant := w }

/-- A CSRWR whose unit answers later: the entry is held (R328, R335) (log 77, DEDUCED). -/
def holdCsr (s : State) (c x code : Nat) (v pc : Dword) (sc : Scope) : Res :=
  .park false .hold (updCore s c (fun k => { k with csrPend := k.csrPend ++ [⟨x, code, v, pc, sc⟩] }))

/-- CSRWR (R24, R210) with its value. -/
def csrWrite (f : Fields) (pc : Dword) (ms : Members) (x : Nat) (v : Dword) (s : State) : Res :=
  let c := s.cur.1
  let code := f.imm.toNat
  let s1 := landMembers s c ms
  if code = 0x1001 then
    (if fpOpen s1 c ms then .wait s
     else .ok (updGroup s1 c x (fun g => { g with fpflags := writeFpflags g.fpflags (v.setWidth 32) })))
  else if code = 0x2001 then .ok (updCore s c (fun k => { k with tHandler := v &&& ~~~(0x1E : Dword) }))
  else if code = 0x2002 then
    (let w := v &&& ~~~(0xFFE : Dword)
     if w.getLsbD 0 then holdCsr s c x code w pc f.scope
     else .ok (updGroup (dropNotice s (tenantOf s c x) c x) c x (fun g => { g with notice := w })))
  else if code = 0x2003 then holdCsr s c x code (v &&& 0x800000FFFFFFFFFF) pc f.scope
  else if v.extractLsb' 0 12 = 4095 then
    .trap false { cls := clsIE, info := BitVec.ofNat 32 (7 + 16 * 0x347), pc := pc, slots := suspends ms, origin := x } s
  else .ok (writeTenant s c (v.setWidth 32))

def performCsrwr (f : Fields) (pc : Dword) (ms : Members) (s : State) : Res :=
  match scalarLane ms with
  | none => .ok s
  | some (x, l) =>
    csrWrite f pc ms x (if csrWide f.imm.toNat then pairA s s.cur.1 x f l else (opA s s.cur.1 x f l).setWidth 64) s
def execCsrwr (f : Fields) (s : State) : Host.Outcome State Fault Refusal := issue 0x347 f (performCsrwr f) s

/-- A CSRWR that awaits its unit. -/
def findCsr (k : Core) (x code : Nat) : Option CsrPend := k.csrPend.find? (fun q => q.ctx == x && q.code == code)
def dropCsr (s : State) (c : Nat) (q : CsrPend) : State :=
  updCore s c (fun k => { k with csrPend := k.csrPend.erase q })

/-- The entry that a CSRWR held stands at it again: as an ordinary one, or, at group scope, parked at the rendezvous that had
completed (R237). -/
def unhold (q : CsrPend) (g : Group) : Group :=
  match g.frontier.find? (heldAt (some q.pc)) with
  | none => g
  | some e =>
    if q.scope = .lane then enter { g with frontier := g.frontier.erase e } e.pc e.mask e.prio e.notBefore
    else { g with frontier := updFirst (heldAt (some q.pc)) (fun e => { e with park := .trapped q.scope }) g.frontier }

/-- A group that loses EN of t.notice. -/
def clearEn (g : Group) : Group := { g with notice := g.notice &&& ~~~(1 : Dword) }

/-- Every group of a tenant loses EN, on its cores and in its saved blocks (R31). -/
def clearNotices (s : State) (t : Nat) : State :=
  { s with
    cores := mmap {} (fun _ k => if k.tid = t then { k with groups := mmap {} (fun _ g => clearEn g) k.groups } else k) s.cores
    saved := s.saved.map (fun v => if v.tenant = t then { v with groups := mmap {} (fun _ g => clearEn g) v.groups } else v) }

/-- t.notice is written with EN = 1 (R31, R335): the tenant's other group loses EN. -/
def takeNotice (s : State) (c x : Nat) (v : Dword) (pa : Nat) : State :=
  let t := tenantOf s c x
  let s1 := clearNotices s t
  let s2 := setTenant s1 t { getTenant s1 t with noticeGroup := some (c, x), noticePa := some (pa / 4096 * 4096) }
  updGroup s2 c x (fun g => { g with notice := v })

/-- T_NOTICE_WRITE (R335): PAGE is translated for write; a failure traps at the CSRWR with KIND 2. -/
def execTNoticeWrite (core ctx : Nat) (s : State) : Host.Outcome State Fault Refusal :=
  match findCsr (getCore s core) ctx 0x2002 with
  | none => .next s
  | some q =>
    let page := q.value &&& ~~~(0xFFF : Dword)
    match checkGlobal s core ctx 1 2 page with
    | (s1, .wait) => .next s1
    | (s1, .full) => .next s1
    | (s1, .fault cls) =>
      let s2 := updGroup (dropCsr (useWalks s1 core ctx 1 [pageOf page]) core q) core ctx (unhold q)
      .next (raiseTrap s2 core { cls := cls, info := 2, addr := page, pc := q.pc, slots := [ctx], origin := ctx })
    | (s1, .pa a) =>
      .next (releaseHold (takeNotice (dropCsr (useWalks s1 core ctx 1 [pageOf page]) core q) core ctx q.value a) core ctx
        (some q.pc))

/-! ### Translation entries -/

/-- Copies of a tenant's entries leave the L1 translation buffers of the cores of some dies: of one page, or all. -/
def tlbInval (s : State) (t : Nat) (page : Option Nat) (dies : List Nat) : State :=
  { s with cores := mmap {} (fun c k =>
      if dies.contains (c / 192) then
        { k with tlb := k.tlb.filter (fun e => !(e.tenant == t && (page.isNone || page == some e.page))) }
      else k) s.cores }

/-- The results of walks for a tenant on some dies that no access has used yet are given up: of one page, or all. -/
def dropWalks (s : State) (t : Nat) (page : Option Nat) (dies : List Nat) : State :=
  let keep := fun (w : Walk) => !(w.done.isSome && w.tenant == t && (page.isNone || page == some w.page))
  { s with walks := mmap [] (fun die ws => if dies.contains die then ws.filter keep else ws) s.walks }

/-- A tenant's entries on some dies lose V: of one page, or all; they keep the rest (R214). An access that is still to be looked up
uses none of them, nor a walk that has ended before (R213, R328). -/
def xlatInval (s : State) (t : Nat) (page : Option Nat) (dies : List Nat) : State :=
  let hit := fun (i : Nat) (e : XEntry) => dies.contains (i / 32768) && (page.isNone || page == some e.page) &&
    chunkTagOf s (i / 32768) (i % 32768 / 64) == t
  let less := mmap {} (fun i (e : XEntry) => if hit i e then { e with v := false } else e) s.xlat
  dropWalks (tlbInval { s with xlat := less } t page dies) t page dies

def allDies : List Nat := [0, 1, 2, 3]

/-- T_XLAT_WRITE (R328): every translation entry of the tenant is invalidated, then t.xlat has its value. -/
def execTXlatWrite (core ctx : Nat) (s : State) : Host.Outcome State Fault Refusal :=
  match findCsr (getCore s core) ctx 0x2003 with
  | none => .next s
  | some q =>
    let t := tenantOf s core ctx
    let s1 := xlatInval s t none allDies
    let s2 := setTenant s1 t { getTenant s1 t with xlat := q.value }
    .next (releaseHold (dropCsr s2 core q) core ctx (some q.pc))

/-- IFENCE (R211). -/
def performIfence (_f : Fields) (_pc : Dword) (ms : Members) (s : State) : Res :=
  let c := s.cur.1
  if noExec ms then .ok s
  else if ms.any (fun m => !(getGroup s c m.slot).loads.isEmpty) then .wait s
  else .ok (updCore s c (fun k => { k with ibuf := [], ibad := [] }))
def execIfence (f : Fields) (s : State) : Host.Outcome State Fault Refusal := issue 0x348 f (performIfence f) s

/-- A fault of a translation-buffer instruction (R280, KIND 8): it resumes at the instruction and has no replay entry. -/
def xbTrap (pc : Dword) (ms : Members) (x cls : Nat) (addr : Dword) (s : State) : Res :=
  .trap false { cls := cls, info := 8, addr := addr, pc := pc, slots := suspends ms, origin := x } s

/-- An entry word (R212) for a page, with its frame's tag (R250). -/
def entryOfWord (s : State) (page : Nat) (w : Dword) : XEntry :=
  { v := w.getLsbD 0, page := page, frame := (w.extractLsb' 16 36).toNat, x := w.getLsbD 3, w := w.getLsbD 2, r := w.getLsbD 1,
    tag := frameTagOf s (w.extractLsb' 16 36).toNat }

def wordOfEntry (e : XEntry) : Dword :=
  BitVec.ofNat 64 (e.frame * 65536 + (if e.x then 8 else 0) + (if e.w then 4 else 0) + (if e.r then 2 else 0) +
    (if e.v then 1 else 0))

/-- The virtual page address of an entry, sign-extended from bit 56. -/
def vaOfEntry (e : XEntry) : Dword := (BitVec.ofNat 57 (e.page * 65536)).signExtend 64

/-- An index in a chunk of the tenant's on a die. -/
def indexOwned (s : State) (t die idx : Nat) : Bool := decide (idx < 32768) && chunkTagOf s die (idx / 64) == t

/-- XBLD (R212). -/
def performXbld (f : Fields) (pc : Dword) (ms : Members) (s : State) : Res :=
  let c := s.cur.1
  match scalarLane ms with
  | none => .ok s
  | some (x, l) =>
    let t := tenantOf s c x
    let va := pairA s c x f l
    let e := entryOfWord s (pageOf va) (pairB s c x f l)
    let idx := opC s c x f l
    let die := if f.sub = 0 then dieOf c else f.sub.toNat - 1
    if !signExtended va then xbTrap pc ms x clsTP va s
    else if !indexOwned s t die idx.toNat then xbTrap pc ms x clsOV (idx.setWidth 64) s
    else if e.v && frameTagOf s e.frame != t then xbTrap pc ms x clsOV va s
    else
      let s1 := xlatInval s t (some e.page) [die]
      .ok { s1 with xlat := mset {} s1.xlat (die * 32768 + idx.toNat) e }
def execXbld (f : Fields) (s : State) : Host.Outcome State Fault Refusal := issue 0x349 f (performXbld f) s

/-- XBINV (R213). -/
def performXbinv (f : Fields) (_pc : Dword) (ms : Members) (s : State) : Res :=
  let c := s.cur.1
  match scalarLane ms with
  | none => .ok s
  | some (x, l) =>
    let page := if f.sub = 0 ∨ f.sub = 2 then some (pageOf (pairA s c x f l)) else none
    .ok (xlatInval s (tenantOf s c x) page (if f.sub.toNat < 2 then [dieOf c] else allDies))
def execXbinv (f : Fields) (s : State) : Host.Outcome State Fault Refusal := issue 0x34A f (performXbinv f) s

/-- XBRD (R214). -/
def performXbrd (f : Fields) (pc : Dword) (ms : Members) (s : State) : Res :=
  let c := s.cur.1
  let die := dieOf c
  match scalarLane ms with
  | none => .ok s
  | some (x, l) =>
    let t := tenantOf s c x
    if f.sub = 2 then
      let idx := match xlatFind s t die (pageOf (pairA s c x f l)) with
        | some q => BitVec.ofNat 32 (q.1 % 32768)
        | none => 0xFFFFFFFF
      .ok (postResults s c f ms none 1 (fun _ _ _ => [idx]))
    else
      let idx := opA s c x f l
      if !indexOwned s t die idx.toNat then xbTrap pc ms x clsOV (idx.setWidth 64) s
      else
        let e := mget {} s.xlat (die * 32768 + idx.toNat)
        .ok (postResults s c f ms none 2 (fun _ _ _ => pairWords (if f.sub = 0 then wordOfEntry e else vaOfEntry e)))
def execXbrd (f : Fields) (s : State) : Host.Outcome State Fault Refusal := issue 0x34B f (performXbrd f) s

/-! ### Revocation and runtime control -/

/-- CEDE (R215): the request goes to the revocation unit, and the status is a result in flight. -/
def performCede (f : Fields) (_pc : Dword) (ms : Members) (s : State) : Res :=
  let c := s.cur.1
  match scalarLane ms with
  | none => .ok s
  | some (x, l) =>
    let id := s.serial
    let m := (ms.find? (fun m => m.slot == x)).getD ⟨x, 0, 0⟩
    let op : CedeOp := { id := id, core := c, ctx := x, tenant := tenantOf s c x, kind := f.sub.toNat, res := (pairA s c x f l).toNat }
    let s1 := { s with serial := id + 1, cedes := s.cedes ++ [op] }
    .ok (match pendFor id f.d 1 m.exec with
      | [] => s1
      | p :: _ => postPend s1 c x p)
def execCede (f : Fields) (s : State) : Host.Outcome State Fault Refusal := issue 0x34C f (performCede f) s

/-- What a firmware service answers (R217, R411). A context without a launch has no index space and no packet: what the
services of a launch answer there is undefined (log 36, DESIGN CHOICE). -/
def fwcallWord (s : State) (c x svc : Nat) : Word :=
  if svc = 0 then (if s.mgmt.act then s.mgmt.fwB else s.mgmt.fwA)
  else match launchOf s c x with
    | none => freeWordAt s 19 x svc 0
    | some la => if svc = 1 then BitVec.ofNat 32 (tilesLeft la) else la.jseq

/-- The lanes of a result's group wait for it at an address. -/
def freesAt (next : Dword) (share : Nat) (g : Group) : Group :=
  { g with pend := g.pend.map (fun p => if p.share = share then { p with frees := some next } else p) }

/-- FWCALL (R217): the group waits for the result, the discarded one of D = 1023 apart. -/
def performFwcall (f : Fields) (pc : Dword) (ms : Members) (s : State) : Res :=
  let c := s.cur.1
  let s1 := postResults s c f ms none 1 (fun t x _ => [fwcallWord t t.cur.1 x f.imm.toNat])
  if noExec ms || f.d.toNat == vnull then .ok s1
  else .park true .hold (ms.foldl (fun t m => updGroup t c m.slot (freesAt (nextPc pc f) s.serial)) s1)
def execFwcall (f : Fields) (s : State) : Host.Outcome State Fault Refusal := issue 0x34D f (performFwcall f) s

/-- The instruction that a group would issue next. -/
def boundaryPc (g : Group) : Option Dword :=
  match g.running with
  | some pc => some pc
  | none => g.frontier.head?.map (·.pc)

/-- A group is stopped with BK (R218); one that is not live or already stopped is left as it is. -/
def stopTarget (s : State) (c y : Nat) (pc : Option Dword) : State :=
  let g := getGroup s c y
  if !g.live || g.stop != .run || decide (handlerCtx ≤ y) then s
  else match (match pc with
      | some p => some p
      | none => boundaryPc g) with
    | none => s
    | some p => raiseTrap s c { cls := clsBK, info := 0x80000000, pc := p, slots := [y], origin := y }

/-- GSTOP with its operand (R218). The KIND and the address of its OV are not stated: they are undefined (log 35, DESIGN CHOICE). -/
def gstopAt (f : Fields) (pc : Dword) (ms : Members) (x : Nat) (a : Word) (s : State) : Res :=
  let c := s.cur.1
  let tc := a.toNat / 256
  let y := a.toNat % 256
  if decide (768 ≤ tc) || !(getCore s tc).bound || (getCore s tc).tid != tenantOf s c x then
    scalarTrap (.gstop f) f pc (freeNatAt s 20 x 0 0 % 7) clsOV (freeWordAt s 21 x 1 0 ++ freeWordAt s 21 x 0 0) ms
      (fun l w => putWord64 w l 6 (a.setWidth 64)) s
  else .ok (stopTarget s tc y (if tc = c ∧ y = x then some (nextPc pc f) else none))

/-- GSTOP (R218). -/
def performGstop (f : Fields) (pc : Dword) (ms : Members) (s : State) : Res :=
  match scalarLane ms with
  | none => .ok s
  | some (x, l) => gstopAt f pc ms x (opA s s.cur.1 x f l) s
def execGstop (f : Fields) (s : State) : Host.Outcome State Fault Refusal := issue 0x34E f (performGstop f) s

/-- Sequence `n` is newer than `last` (R334): numbers run from 1 to 0xFFFF_FFFE and round; 0 is no notice (log 37, DEDUCED). -/
def newerSeq (n last : Nat) : Bool :=
  n != 0 && (last == 0 || (n != last && decide ((n + 0xFFFFFFFE - last) % 0xFFFFFFFE < 0x7FFFFFFF)))

/-- NSEQ of the notice page that t.notice names (R335). -/
def noticeSeq (s : State) (t : Nat) : Nat :=
  match (getTenant s t).noticePa with
  | none => 0
  | some pa => readLE s.mem pa 4

/-- The sequence that NWAIT returns to a group (R216): 0xFFFF_FFFF without EN; none while its page holds no newer notice. -/
def noticeFor (s : State) (c x : Nat) : Option Word :=
  let g := getGroup s c x
  let n := noticeSeq s (tenantOf s c x)
  if !g.notice.getLsbD 0 then some 0xFFFFFFFF
  else if newerSeq n g.lastNotice.toNat then some (BitVec.ofNat 32 n)
  else none

/-- The page that an NWAIT reads is poisoned, which raises XM for its group (R260). -/
def noticePoisoned (s : State) (c x : Nat) : Bool :=
  (getGroup s c x).notice.getLsbD 0 && ((getTenant s (tenantOf s c x)).noticePa.map (fun pa => poisoned s pa 4)).getD false

/-- NWAIT (R216). -/
def performNwait (f : Fields) (pc : Dword) (ms : Members) (s : State) : Res :=
  let c := s.cur.1
  match scalarLane ms with
  | none => .ok s
  | some (x, l) => if noticePoisoned s c x then .trap false (struckReq s x l pc (suspends ms)) s else match noticeFor s c x with
    | none => .wait s
    | some v =>
      let s1 := postResults s c f ms none 1 (fun _ _ _ => [v])
      .ok (if v = 0xFFFFFFFF then s1 else updGroup s1 c x (fun g => { g with lastNotice := v }))
def execNwait (f : Fields) (s : State) : Host.Outcome State Fault Refusal := issue 0x34F f (performNwait f) s

end Sys2Proof.Machine
end

