-- ==== Sys2Proof/Machine/Trap.lean ====
section
/-! DEFINITION. TRAP, ERET and the handler's windows, opcodes 0x340 to 0x345 (R205 to R208, R283 to R288), taking a raised
trap (R281), delivering a frame (R282, R289), and results that land (R68, R28). -/

namespace Sys2Proof.Machine
open Sys2Proof

/-! ### TRAP -/

/-- TRAP (R205). -/
def performTrap (f : Fields) (pc : Dword) (ms : Members) (s : State) : Res :=
  if noExec ms then .ok s
  else .trap true { cls := clsSW, info := f.imm, pc := pc, slots := suspends ms,
                    origin := (ms.head?.map (·.slot)).getD 0 } s
def execTrap (f : Fields) (s : State) : Host.Outcome State Fault Refusal := issue 0x340 f (performTrap f) s

/-! ### The current frame -/

/-- The frame that the handler slot or the firmware slot handles. -/
def curFrame (k : Core) (x : Nat) : Option Frame := if x = firmwareCtx then k.curF else k.curH

def setCurFrame (k : Core) (x : Nat) (fr : Option Frame) : Core :=
  if x = firmwareCtx then { k with curF := fr } else { k with curH := fr }

/-- Member m of the current frame. -/
def frameMemberAt (k : Core) (x m : Nat) : Option FMember :=
  match curFrame k x with
  | none => none
  | some fr => fr.members[m]?

/-- A member of the current frame changed. -/
def updMember (k : Core) (x m : Nat) (h : FMember → FMember) : Core :=
  setCurFrame k x ((curFrame k x).map (fun fr => { fr with members := fr.members.modify m h }))

/-! ### WINRD and WINWR (R207, R283, R284) -/

def winMember (f : Fields) : Nat := (f.imm.extractLsb' 24 4).toNat
def winSpace (f : Fields) : Nat := (f.imm.extractLsb' 22 2).toNat
def winItem (f : Fields) : Nat := (f.imm.extractLsb' 0 16).toNat

/-- A frame register or per-group register of a member, for lane l. -/
def winControl (s : State) (c x item l : Nat) (q : FMember) : Word :=
  let k := getCore s c
  let ln := q.lanes.getD l {}
  if item = 0x1001 then (k.group q.slot).fpflags
  else if item = 0x1002 then gstatOf (k.group q.slot)
  else if item = 0x2016 then fmemberWord q
  else if item = 0x2017 then lo ln.pc
  else if item = 0x2018 then hi ln.pc
  else if item = 0x2019 then rlaneWord ln
  else ((curFrame k x).map (fun fr => frameWide fr (item - 0x2000))).getD 0

/-- A frame register that is one for the frame or one for the member: it reads the same in every lane (R283) (log 63, DEDUCED). -/
def winUniform (f : Fields) : Bool := winSpace f == 1 && decide (0x2010 ≤ winItem f ∧ winItem f ≤ 0x2016)

/-- What WINRD reads in lane l: 0 at or beyond the member's width, but for the registers that every lane reads alike. -/
def winValue (s : State) (c x : Nat) (f : Fields) (l : Nat) : Word :=
  match frameMemberAt (getCore s c) x (winMember f) with
  | none => 0
  | some q =>
    let g := getGroup s c q.slot
    if g.width ≤ l ∧ winUniform f = false then 0
    else if winSpace f = 0 then
      (if isPending g (winItem f) then 0 else readCell s c q.slot fldA (winItem f) l)
    else if winSpace f = 1 then winControl s c x (winItem f) l q
    else (g.xv.getD (winItem f) 0).setWidth 32

/-- A register at or beyond the member's allotment raises RB at the handler. -/
def winOut (s : State) (c x : Nat) (f : Fields) : Bool :=
  match frameMemberAt (getCore s c) x (winMember f) with
  | none => false
  | some q => winSpace f == 0 && decide ((getGroup s c q.slot).allotment ≤ winItem f)

def winTrap (f : Fields) (pc : Dword) (x : Nat) (s : State) : Res :=
  .trap false { cls := clsRB, info := BitVec.ofNat 32 (winItem f), pc := pc, slots := [x], origin := x } s

/-- WINRD. -/
def performWinrd (f : Fields) (pc : Dword) (ms : Members) (s : State) : Res :=
  let c := s.cur.1
  let x := (ms.head?.map (·.slot)).getD handlerCtx
  if winOut s c x f then winTrap f pc x s
  else .ok (postResults s c f ms none 1 (fun t y l => [winValue t c y f l]))
def execWinrd (f : Fields) (s : State) : Host.Outcome State Fault Refusal := issue 0x342 f (performWinrd f) s

/-- A write of t.rpc or t.rlane of a lane (R283, R284): a parked lane whose PC is written leaves its rendezvous. -/
def writeLane (item : Nat) (v : Word) (q : FLane) : FLane :=
  if q.state = 0 then q
  else if item = 0x2019 then { q with prio := v.toNat % 256 }
  else { q with state := 1, park := .none, pc := if item = 0x2017 then hi q.pc ++ v else v ++ lo q.pc }

/-- Writes of a member's per-group registers and lanes. -/
def winWriteControl (s : State) (c x m item : Nat) (q : FMember) (vs : List (Nat × Word)) : State :=
  if item = 0x1001 then
    (match vs with
     | [] => s
     | v :: _ => updGroup s c q.slot (fun g => { g with fpflags := writeFpflags g.fpflags v.2 }))
  else if item = 0x2017 ∨ item = 0x2018 ∨ item = 0x2019 then
    updCore s c (fun k => updMember k x m (fun q => { q with lanes := q.lanes.zipIdx.map (fun e =>
      match vs.find? (fun v => v.1 == e.2) with
      | some v => writeLane item v.2 e.1
      | none => e.1) }))
  else s

/-- WINWR's effect for the handler's executing lanes with their values. -/
def winWrite (s : State) (c x : Nat) (f : Fields) (vs : List (Nat × Word)) : State :=
  match frameMemberAt (getCore s c) x (winMember f) with
  | none => s
  | some q =>
    let g := getGroup s c q.slot
    let mine := vs.filter (fun v => decide (v.1 < g.width))
    let s1 := updGroup s c q.slot (fun g => { g with latchA := none, latchB := none })
    if winSpace f = 0 then
      (if isPending g (winItem f) then s1
       else writeCells s1 c q.slot (mine.map (fun v => (winItem f, v.1, v.2))))
    else if winSpace f = 1 then winWriteControl s1 c x (winMember f) (winItem f) q mine
    else match mine with
      | [] => s1
      | v :: _ => updGroup s1 c q.slot (fun g => { g with xv := g.xv.set (winItem f) (v.2.setWidth 16) })

/-- The values of vA in the executing lanes (log 38, DEDUCED). -/
def laneValues (s : State) (c : Nat) (f : Fields) (ms : Members) : List (Nat × Word) :=
  ms.flatMap (fun m => (lanesOf m.exec).map (fun l => (l, opA s c m.slot f l)))

/-- WINWR. -/
def performWinwr (f : Fields) (pc : Dword) (ms : Members) (s : State) : Res :=
  let c := s.cur.1
  let x := (ms.head?.map (·.slot)).getD handlerCtx
  if winOut s c x f then winTrap f pc x s
  else if noExec ms then .ok s
  else .ok (winWrite s c x f (laneValues s c f ms))
def execWinwr (f : Fields) (s : State) : Host.Outcome State Fault Refusal := issue 0x343 f (performWinwr f) s

/-! ### RQRD and RQWR (R208, R286) -/

def rqEntry (f : Fields) : Nat := (f.imm.extractLsb' 8 5).toNat
def rqWord (f : Fields) : Nat := (f.imm.extractLsb' 0 6).toNat

/-- The entry that RQRD and RQWR name (log 72, DEDUCED). -/
def rqFind (s : State) (c x : Nat) (f : Fields) : Option (FMember × Replay) :=
  match frameMemberAt (getCore s c) x (winMember f) with
  | none => none
  | some q => q.entries[rqEntry f]?.map (fun e => (q, e))

/-- RQRD. -/
def performRqrd (f : Fields) (_pc : Dword) (ms : Members) (s : State) : Res :=
  .ok (postResults s s.cur.1 f ms none 1 (fun t x l =>
    match rqFind t t.cur.1 x f with
    | none => [0]
    | some (_, e) => [entryWord e (rqWord f) l]))
def execRqrd (f : Fields) (s : State) : Host.Outcome State Fault Refusal := issue 0x344 f (performRqrd f) s

/-- Every part of a suspension, wherever it stands. -/
def updFrames (k : Core) (id : Nat) (h : Frame → Frame) : Core :=
  let g := fun (fr : Frame) => if fr.id = id then h fr else fr
  { k with curH := k.curH.map g, curF := k.curF.map g, partsH := k.partsH.map g, partsF := k.partsF.map g,
           framesH := k.framesH.map g, framesF := k.framesF.map g }

/-- FATE is shared by every member's copy of an entry. -/
def shareFate (share fate : Nat) (fr : Frame) : Frame :=
  { fr with members := fr.members.map (fun m => { m with entries := m.entries.map (fun e =>
      if e.share = share then { e with fate := fate } else e) }) }

/-- A per-lane word of an entry. -/
def writeWord (w : Nat) (vs : List (Nat × Word)) (e : Replay) : Replay :=
  if w = 5 then
    vs.foldl (fun e v => { e with x := if v.2.getLsbD 0 then e.x ||| (1#64 <<< v.1) else e.x &&& ~~~(1#64 <<< v.1) }) e
  else { e with words := vs.foldl (fun ws v => putWord ws v.1 w v.2) e.words }

/-- RQWR's effect (log 32, DEDUCED). -/
def rqWrite (s : State) (c x : Nat) (f : Fields) (vs : List (Nat × Word)) : State :=
  match rqFind s c x f, vs with
  | none, _ => s
  | some _, [] => s
  | some (q, e), v :: _ =>
    let w := rqWord f
    let fate := (v.2.extractLsb' 26 2).toNat
    let id := ((curFrame (getCore s c) x).map (·.id)).getD 0
    let mine := vs.filter (fun v => decide (v.1 < (getGroup s c q.slot).width))
    if e.kind = 2 then s
    else if w = 0 then (if fate < 2 then updCore s c (fun k => updFrames k id (shareFate e.share fate)) else s)
    else if 5 ≤ w ∧ w ≤ 13 then
      updCore s c (fun k => updMember k x (winMember f) (fun q => { q with entries := q.entries.modify (rqEntry f) (writeWord w mine) }))
    else s

/-- RQWR. -/
def performRqwr (f : Fields) (_pc : Dword) (ms : Members) (s : State) : Res :=
  let c := s.cur.1
  if noExec ms then .ok s
  else .ok (rqWrite s c ((ms.head?.map (·.slot)).getD handlerCtx) f (laneValues s c f ms))
def execRqwr (f : Fields) (s : State) : Host.Outcome State Fault Refusal := issue 0x345 f (performRqwr f) s

/-! ### ERET (R206, R282, R287) -/

def wordAt (e : Replay) (l w : Nat) : Word := mget 0 e.words (laneWord l w)
def dwordAt (e : Replay) (l w : Nat) : Dword := wordAt e l (w + 1) ++ wordAt e l w

/-- The captured operands of an entry's copies, for the lanes whose X = 1. -/
def replayElems (cs : List (Nat × Replay)) : List MElem :=
  cs.flatMap (fun q => (lanesOf q.2.x).map (fun l =>
    { slot := q.1, lane := l, va := dwordAt q.2 l 6,
      b := (dwordAt q.2 l 8).toNat + 2 ^ 64 * (dwordAt q.2 l 10).toNat, c := (dwordAt q.2 l 12).toNat }))

/-- The scalar operands of an entry: those of the lowest lane whose X = 1. -/
def replayScalar (cs : List (Nat × Replay)) : Option (Nat × Replay × Nat) :=
  match cs with
  | [] => none
  | q :: rest => match lowestLane q.2.x with
    | some l => some (q.1, q.2, l)
    | none => replayScalar rest

def replayArgs (e : Replay) (l : Nat) : EngArgs :=
  { src := dwordAt e l 6, dst := dwordAt e l 8, d0 := wordAt e l 10, d1 := wordAt e l 11, d2 := wordAt e l 12, d3 := wordAt e l 13 }

/-- Tile addresses of an entry's copies. -/
def replayTiles (s : State) (c : Nat) (cs : List (Nat × Replay)) : List TileRef :=
  cs.flatMap (fun q => (octetsOf (getGroup s c q.1) q.2.x).map (fun o => ⟨q.1, o, wordAt q.2 (8 * o) 6⟩))

/-- An entry issues with its captured operands (R287 step 2). -/
def replayBody (i : Instr) (pc : Dword) (ms : Members) (cs : List (Nat × Replay)) (s : State) : Res :=
  let es := replayElems cs
  let again : Option Again := match cs with
    | [] => none
    | q :: _ => if q.2.id = 0 then none else some ⟨q.2.share, cs.map (fun q => (q.1, q.2.id))⟩
  let xv := fun (y : Nat) => ((cs.find? (fun q => q.1 == y)).map (fun q => q.2.xv)).getD []
  let scalar := fun (go : Nat → EngArgs → Res) => match replayScalar cs with
    | none => Res.ok s
    | some (x, e, l) => go x (replayArgs e l)
  match i with
  | .ld f => loadElems i false f pc again ms es s
  | .lds f => loadElems i true f pc again ms es s
  | .st f => storeElems i false f pc ms es s
  | .sts f => storeElems i true f pc ms es s
  | .atom f => atomElems i false f pc ms es s
  | .atoms f => atomElems i true f pc ms es s
  | .red f => redElems i f pc ms es s
  | .mma f => mxIssue i 0x2C0 f pc xv ms [] s
  | .mmas f => mxIssue i 0x2C1 f pc xv ms (replayTiles s s.cur.1 cs) s
  | .mmat f => mxIssue i 0x2C2 f pc xv ms (replayTiles s s.cur.1 cs) s
  | .actld f => scalar (fun x a => actldAt f pc ms x (lo32 a.src) s)
  | .cpy f => scalar (fun x a => startCopy i f.sub.toNat f pc ms x a s)
  | .cpyg f => scalar (fun x a => startCopy i 2 f pc ms x a s)
  | .cpys f => scalar (fun x a => startCopy i 3 f pc ms x a s)
  | .lpost f => scalar (fun x a => lpostArgs f pc ms x a s)
  | .gstop f => scalar (fun x a => gstopAt f pc ms x (lo32 a.src) s)
  | _ => .ok s

/-- The members of a replayed instruction: all of each member's lanes stand by, those with X = 1 execute. -/
def replayMembers (cs : List (Nat × Replay)) : Members := cs.map (fun q => ⟨q.1, BitVec.allOnes 64, q.2.x⟩)

/-- The entry that goes next: at the head of the queue of every member that holds a copy of it. -/
def nextEntry (qs : List (Nat × List Replay)) : Option Replay :=
  qs.findSome? (fun q => match q.2 with
    | [] => none
    | e :: _ =>
      if qs.all (fun r => r.2.all (fun d => d.share != e.share) || (r.2.head?.map (·.share)) == some e.share) then some e
      else none)

/-- An entry leaves the queues: its copies, and what is left. -/
def takeEntry (share : Nat) (qs : List (Nat × List Replay)) : List (Nat × Replay) × List (Nat × List Replay) :=
  (qs.flatMap (fun q => match q.2 with
      | e :: _ => if e.share = share then [(q.1, e)] else []
      | [] => []),
   qs.map (fun q => match q.2 with
      | e :: es => if e.share = share then (q.1, es) else q
      | [] => q))

/-- What re-injection comes to: all entries have issued, one has to wait with those behind it, or one has trapped. -/
inductive Rein where
  | done (s : State)
  | wait (left : List (Nat × List Replay)) (s : State)
  | stay (left : List (Nat × List Replay)) (s : State)
  | trap (t : TrapReq) (s : State)
deriving Repr

/-- Loads whose entries have left the replay queues stand there no more. -/
def leaveReplays (s : State) (c : Nat) (cs : List (Nat × Replay)) : State :=
  cs.foldl (fun s q => updGroup s c q.1 (fun g => { g with replays := g.replays.filter (fun i => i != q.2.id) })) s

/-- Re-injection in ascending order (R287 step 2). A failure carries every entry that is left into the new frame (log 40, DEDUCED). -/
def reinject : Nat → List (Nat × List Replay) → State → Rein
  | 0, _, s => .done s
  | n + 1, qs, s =>
    match nextEntry qs with
    | none => .done s
    | some e =>
      let r := takeEntry e.share qs
      let go := fun (t : State) => reinject n r.2 (leaveReplays t s.cur.1 r.1)
      if e.fate = 1 ∨ e.kind = 2 then go s
      else match replayBody e.i e.pc (replayMembers r.1) r.1 s with
        | .ok s1 => go s1
        | .moved s1 => go s1
        | .park _ _ s1 => go s1
        | .wait s1 => .wait qs s1
        | .stay s1 => .stay qs s1
        | .trap _ t s1 =>
          let left := r.2.flatMap (fun q => q.2.map (fun d => (q.1, d)))
          .trap { t with slots := sortNat id (dedup (t.slots ++ left.map (·.1))), replay := t.replay ++ left } s1

/-- The parts of the suspension that ends. -/
def allParts (k : Core) (x : Nat) (fr : Frame) : List Frame :=
  (if x = firmwareCtx then k.partsF else k.partsH).filter (fun p => p.id == fr.id) ++ [fr]

/-- The handler's threads end, and its slot is free for the next frame. -/
def endHandling (k : Core) (x : Nat) (fr : Frame) : Core :=
  let k1 := setCurFrame (k.withGroup x (endContext (k.group x))) x none
  let last := fr.part + 1 == fr.parts
  let step := fun (ps : List Frame) => if last then ps.filter (fun p => p.id != fr.id) else ps ++ [fr]
  if x = firmwareCtx then { k1 with partsF := step k1.partsF } else { k1 with partsH := step k1.partsH }

/-- The entries of a suspension's members that have not issued again yet: the others are over, whatever becomes of the return. -/
def keepEntries (left : List (Nat × List Replay)) (fr : Frame) : Frame :=
  { fr with members := fr.members.map (fun m => { m with entries := ((left.find? (fun q => q.1 == m.slot)).map (·.2)).getD m.entries }) }

/-- An entry has to wait: ERET stays at it, and the handler's next choice takes it up once it can go on. -/
def holdEret (s : State) (c id : Nat) (some' : Bool) (left : List (Nat × List Replay)) : Res :=
  let s1 := updCore s c (fun k => updFrames k id (keepEntries left))
  if some' then .stay s1 else .wait s1

/-- ERET: the entries of every member issue again, and then the members go on. -/
def performEret (_f : Fields) (_pc : Dword) (ms : Members) (s : State) : Res :=
  let c := s.cur.1
  let x := (ms.head?.map (·.slot)).getD handlerCtx
  let k := getCore s c
  match curFrame k x with
  | none => if noExec ms then .ok s else .moved (updGroup s c x endContext)
  | some fr =>
    if noExec ms then .ok s
    else if fr.part + 1 < fr.parts then .moved (updCore s c (fun k => endHandling k x fr))
    else
      let parts := allParts k x fr
      let qs := (parts.flatMap (·.members)).map (fun m => (m.slot, m.entries))
      let resume := fun (t : State) => resumeFrames (updCore t c (fun k => endHandling k x fr)) c parts
      match reinject ((qs.map (fun q => q.2.length)).foldl (· + ·) 0 + 1) qs s with
      | .done s2 => .moved (resume s2)
      | .wait left s2 => holdEret s2 c fr.id (left != qs) left
      | .stay left s2 => holdEret s2 c fr.id true left
      | .trap t s2 => .moved (raiseTrap (resume s2) c t)
def execEret (f : Fields) (s : State) : Host.Outcome State Fault Refusal := issue 0x341 f (performEret f) s

/-! ### TRAP_TAKE, FRAME_DELIVER, RESULT_WRITEBACK -/

/-- TRAP_TAKE (R281, R282, R148): a raised trap whose groups have stopped and drained forms its frames. -/
def execTrapTake (core id : Nat) (s : State) : Host.Outcome State Fault Refusal :=
  match (getCore s core).raised.find? (fun r => r.id == id) with
  | none => .next s
  | some r =>
    let s1 := abortRegroups s core r.slots
    if takeReady (getCore s1 core) r then .next (stepFree (takeTrap (forgetWalks s1 core r.slots) core r)) else .next s1

/-- A context at its entry (R289): registers and flags zero, one entry with all lanes. It knows the writes that it knew (R263). -/
def startContext (old : Group) (entry : Dword) : Group :=
  { live := true, wd := 3, tlevel := true, il := true, allot := [128], storeq := old.storeq,
    seen := old.seen, loose := old.loose, releases := old.releases,
    frontier := [{ pc := entry, mask := BitVec.allOnes 64 }], running := some entry }

/-- A context whose threads have ended has nothing but stores under way (log 39, DEDUCED). -/
def contextIdle (g : Group) : Bool := g.loads.isEmpty && g.handles.isEmpty && g.pend.all (fun p => !p.variable)

/-- The firmware slot takes a frame (R279): it journals it and signals the host (log 17, DESIGN CHOICE). -/
def deliverFirmware (s : State) (c : Nat) (fr : Frame) (rest : List Frame) : State :=
  let k := getCore s c
  let s1 := setCore s c { k.withGroup firmwareCtx (startContext (k.group firmwareCtx) Config.firmwareEntry) with
    framesF := rest, curF := some fr }
  let x0 := (fr.members.head?.map (·.slot)).getD 0
  xmStrikes (raiseMsi (journalWrite s1 6 0 k.tid 0 fr.cls (BitVec.ofNat 32 (c * 256 + x0))) 0) k.tid fr.cls

/-- The handler slot takes a frame where its entry can be fetched; where it cannot, the frame goes to the firmware slot
(R30). -/
def deliverHandler (s : State) (c : Nat) (fr : Frame) (rest : List Frame) : State :=
  let entry := (getCore s c).tHandler &&& ~~~(0x1F : Dword)
  match checkGlobal s c handlerCtx 32 0 entry with
  | (s1, .wait) => s1
  | (s1, .full) => s1
  | (s1, .fault _) => updCore (useWalks s1 c handlerCtx 0 [pageOf entry]) c (fun k =>
      handlerFault { k with framesH := rest, curH := some fr })
  | (s1, .pa _) => updCore (useWalks s1 c handlerCtx 0 [pageOf entry]) c (fun k =>
      { k.withGroup handlerCtx (startContext (k.group handlerCtx) entry) with framesH := rest, curH := some fr })

/-- FRAME_DELIVER (R279, R282, R289): a slot that is free takes the oldest frame that waits for it. -/
def execFrameDeliver (core : Nat) (firmware : Bool) (s : State) : Host.Outcome State Fault Refusal :=
  let k := getCore s core
  if firmware then
    match k.curF, k.framesF with
    | none, fr :: rest => if contextIdle (k.group firmwareCtx) then .next (deliverFirmware s core fr rest) else .next s
    | _, _ => .next s
  else
    match k.curH, k.framesH with
    | none, fr :: rest => if contextIdle (k.group handlerCtx) then .next (deliverHandler s core fr rest) else .next s
    | _, _ => .next s

/-- A result may be written: it is due, or of variable latency and known. -/
def writable (t : Nat) (p : Pend) : Bool :=
  match p.due with
  | some d => decide (d ≤ t)
  | none => p.ready

/-- The results of one issue that are still in flight, by slot: all members' results are written together (R105). -/
def resultsOf (k : Core) (ctx : Nat) (p : Pend) : List (Nat × Pend) :=
  if p.share = 0 then [(ctx, p)]
  else k.groups.flatMap (fun g => (g.2.pend.filter (fun q => q.share == p.share)).map (fun q => (g.1, q)))

/-- RESULT_WRITEBACK (R27, R28, R68, R105, R217): the results of an instruction are written; one with an enabled exception traps
then. -/
def execResultWriteback (core ctx id : Nat) (s : State) : Host.Outcome State Fault Refusal :=
  match (getGroup s core ctx).pend.find? (fun p => p.id == id) with
  | none => .next s
  | some p =>
    let ps := resultsOf (getCore s core) ctx p
    if !ps.all (fun q => writable (now s core) q.2) then .next s
    else
      let s1 := ps.foldl (fun s q => updGroup s core q.1 (fun g => landResult g q.2)) s
      .next (ps.foldl (fun s q => match q.2.held with
        | none => s
        | some h => raiseTrap (updCore s core (fun k => updSlots k h.slots (freeHeld h.next))) core (swReq h q.1)) s1)

end Sys2Proof.Machine
end

