-- ==== Sys2Proof/Machine/Blocks.lean ====
section
/-! DEFINITION. Blocks on cores: whether one fits and how it is placed (R240, R255, R307, R309), how it ends (R139, R307,
R279), and scrubbing of scratchpad banks (R327). -/

namespace Sys2Proof.Machine
open Sys2Proof

/-! ### Banks -/

/-- Scratchpad banks `lo` to `hi - 1` of a core are zeroed: no write to them, and no error in them, is left. -/
def zeroBanks (s : State) (c lo hi : Nat) : State :=
  let out := fun (unit key : Nat) => !(decide (c * 327680 + lo * 8192 ≤ key * unit) && decide (key * unit < c * 327680 + hi * 8192))
  let a := c * 327680 + lo * 8192
  { s with spm := s.spm.filter (fun q => out 1 q.1), badSpm := s.badSpm.filter (fun q => out 4 q.1)
           stamps := s.stamps.flatMap (Stamp.without a ((hi - lo) * 8192))
           trails := s.trails.filter (fun q => q.1 % 2 == 0 || out 1 (q.1 / 2)) }

/-- A placement sets N (R255): lines of banks that leave L1 are dropped, and a bank that passes between L1 and scratchpad, either
way, is zeroed (R378). -/
def setNspm (s : State) (c n : Nat) : State :=
  let k := getCore s c
  if n = k.nspm then s
  else
    updCore (zeroBanks s c (min n k.nspm) (max n k.nspm)) c (fun k => { k with nspm := n, l1 := k.l1.filter (fun q => decide (n ≤ q.bank)) })

/-- Every load of the core that is outstanding at L1 has returned. -/
def l1Quiet (k : Core) : Bool := k.prefs.isEmpty && k.groups.all (fun g => g.2.loads.all (fun r => r.kind != .ld))

/-- Accesses of the module to a bank that passed their checks are over (log 45, DEDUCED). -/
def bankQuiet (s : State) (res : Nat) : Bool :=
  let c := res / 256
  let lo := c * 327680 + res % 256 * 8192
  let meets := fun (a n : Nat) => runsMeet a n lo 8192
  s.cores.all (fun k =>
    k.2.groups.all (fun g =>
      g.2.loads.all (fun r => r.kind == .ld || r.kind == .atom || r.lanes.all (fun l => !meets l.addr r.size)) &&
      g.2.storeq.all (fun q => !q.spm || q.lanes.all (fun l => !meets l.addr q.size))) &&
    k.2.flight.all (fun w => !w.item.spm || w.item.lanes.all (fun l => !meets l.addr w.item.size))) &&
  s.copies.all (fun q => q.done.isSome ||
    !((srcSpm q.kind && !q.zf && q.src.toNat / 327680 == c && rowsTouch (q.src.toNat % 327680) q.sp q.rows q.row (res % 256)) ||
      (dstSpm q.kind && q.dst.toNat / 327680 == c && rowsTouch (q.dst.toNat % 327680) q.dp q.rows q.row (res % 256)))) &&
  s.mxOps.all (fun o => o.members.all (fun m => m.tiles.all (fun t => !meets t (tileBytes o))))

/-- Accesses to the banks that a split of `n` banks moves between L1 and scratchpad are over: none of them lands in a bank that has
passed (R255, R378). -/
def splitQuiet (s : State) (c n : Nat) : Bool :=
  let m := (getCore s c).nspm
  (List.range (max n m - min n m)).all (fun i => bankQuiet s (c * 256 + min n m + i))

/-! ### Room -/

/-- Groups, threads and units of a block's roles (R241). -/
def needOf (roles : List RoleSpec) : Nat × Nat × Nat :=
  roles.foldl (fun n r =>
    let w := 8 * 2 ^ r.wd
    (n.1 + r.ngrp, n.2.1 + r.ngrp * w, n.2.2 + r.ngrp * unitsOf (r.sizes.foldl (· + ·) 0) w)) (0, 0, 0)

def freeSlots (k : Core) : List Nat := (List.range 48).filter (fun x => !(k.group x).live)
def threadsUsed (k : Core) : Nat := ((slotsOf k).map (fun x => (k.group x).width)).foldl (· + ·) 0
def residentBlocks (k : Core) : List (Nat × Block) := k.blocks.filterMap (fun q => q.2.map (fun b => (q.1, b)))
def freeBlockIndex (k : Core) : Option Nat := (List.range 4).find? (fun i => (blockOf k i).isNone)

/-- Banks `b0` to `b0 + n - 1` are free, and every resident block's banks lie below N (R255, R307). -/
def banksFree (k : Core) (b0 n nspm : Nat) : Bool :=
  (residentBlocks k).all (fun q => q.2.banks == 0 ||
    ((n == 0 || !runsMeet q.2.bank0 q.2.banks b0 n) && decide (q.2.bank0 + q.2.banks ≤ nspm)))

/-- A core has room for groups, threads and units, and for banks with a split (R307, R255). -/
def hasRoom (k : Core) (need : Nat × Nat × Nat) (b0 n nspm : Nat) : Bool :=
  decide (need.1 ≤ (freeSlots k).length) && decide (threadsUsed k + need.2.1 ≤ 3072) && decide (need.2.2 ≤ freeUnits k) &&
  banksFree k b0 n nspm && (nspm == k.nspm || l1Quiet k)

/-! ### Launches in their order -/

/-- Launches and barriers accepted before one, of the same queue. -/
def earlierOf (s : State) (la : Launch) : List Launch :=
  (s.launches.takeWhile (fun l => l.id != la.id)).filter (fun l => l.qslot == la.qslot && l.tenant == la.tenant)

/-- Position p comes before position q of a queue. -/
def posBefore (p q : Word) : Bool := p != q && decide ((q - p).toNat < 2 ^ 31)

/-- Claimed positions of a tenant's queue that are not settled, and those that never will be (R304, R305): none, once the slot is
another's. -/
def openPositions (s : State) (q t : Nat) : List Word :=
  if (getQueue s q).owner = t then (getQueue s q).claimed.map (·.1) ++ (getQueue s q).blocked else []

/-- No core of a launch's set is left that the tenant holds (R356). -/
def noCoreLeft (s : State) (la : Launch) : Bool :=
  la.cores.all (fun c => !((getCore s c).bound && (getCore s c).tid == la.tenant))

/-- Cores that a pre-emption is vacating (R347). -/
def vacating (s : State) (c : Nat) : Bool :=
  s.preempts.any (fun p => p.clusters.any (fun q => !q.fin && q.cores.contains c))

/-- A FINAL or a ROLLBACK of a tenant is in progress: its groups stay stopped, nothing of it is claimed or placed
(R402, R406). -/
def checkpointing (s : State) (t : Nat) : Bool := s.hub.ckops.any (fun o => o.tenant == t && (o.op == 2 || o.op == 4))

/-- A gang accepted before a launch, of whatever queue, still waits for a core of a cluster (R309). -/
def gangBefore (s : State) (la : Launch) (cl : Nat) : Bool :=
  (s.launches.takeWhile (fun l => l.id != la.id)).any (fun l => l.gang && l.tenant == la.tenant && l.waitCores.any (fun c => c / 4 == cl))

/-- Nothing of the queue stands before a launch on a core (R302, R305, R307, R309, R356), and no block of it is there (R8)
(log 41, DEDUCED). -/
def mayPlace (s : State) (la : Launch) (c : Nat) : Bool :=
  let es := earlierOf s la
  !la.barrier && la.waitCores.contains c && es.all (fun e => !e.barrier && !e.waitCores.contains c) &&
  (openPositions s la.qslot la.tenant).all (fun p => !posBefore p la.pos) &&
  s.saved.all (fun v => es.all (fun e => e.id != v.launch || !(noCoreLeft s e || e.cores.contains c))) &&
  (getCore s c).bound && (getCore s c).tid == la.tenant &&
  (residentBlocks (getCore s c)).all (fun q => q.2.launch != la.id) && !(la.gang && gangBefore s la (c / 4)) && !vacating s c && !s.fenced.contains (0, c) && !checkpointing s la.tenant &&
  s.hub.fctl.all (fun q => q.2.tenant != la.tenant || q.2.state != 3)

def fitsLaunch (s : State) (la : Launch) (c : Nat) : Bool :=
  mayPlace s la c && splitQuiet s c la.nspm && (freeBlockIndex (getCore s c)).isSome && hasRoom (getCore s c) (needOf la.roles) la.bank0 la.banks la.nspm

/-! ### Placing -/

/-- The groups of a block in order: role index and role (R240). -/
def groupPlan (roles : List RoleSpec) : List (Nat × RoleSpec) :=
  roles.zipIdx.flatMap (fun q => List.replicate q.1.ngrp (q.2, q.1))

/-- The edge from what happened before a block came to a core (R266, R277): an acquire that later loads drop L1 for
(log 89, DEDUCED). -/
def arrivalEdge : AcqRec := { first := [], loads := [], items := [], wide := true }

/-- A group as it starts (R20, R219, R225, R277): issue slots by turns, each from its first lane window (log 97, DESIGN CHOICE). -/
def newGroup (la : Launch) (block role i born : Nat) (r : RoleSpec) : Group :=
  let w := 8 * 2 ^ r.wd
  let entry := la.base + BitVec.ofNat 64 r.entry
  { live := true, wd := r.wd, role := role, block := block, tlevel := r.tl, il := la.il, prio := r.prio, allot := r.sizes,
    frontier := [{ pc := entry, mask := laneMask w }], running := some entry, homes := laneMask w, slot := i % 4,
    acqs := [arrivalEdge], born := born, seen := la.pub }

/-- One group gets its units and its slot. -/
def addGroup (la : Launch) (b born : Nat) (k : Core) (q : (Nat × Nat × RoleSpec) × Nat) : Core :=
  let x := q.1.1
  let r := q.1.2.2
  let k1 := (allocList k x (8 * 2 ^ r.wd) 0 r.sizes).getD k
  k1.withGroup x (newGroup la b q.1.2.1 q.2 born r)

/-- A block of a launch starts on a core (R307, R317). -/
def placeBlock (s : State) (la : Launch) (c : Nat) : State :=
  let b := (freeBlockIndex (getCore s c)).getD 0
  let s1 := updCore { setNspm s c la.nspm with serial := s.serial + 1 } c (fun k =>
    let plan := ((freeSlots k).zip (groupPlan la.roles)).zipIdx
    let k1 := plan.foldl (addGroup la b s.serial) k
    { k1 with ibuf := [], blocks := mset none k1.blocks b (some ⟨la.id, la.karg, la.bank0, la.banks, la.nspm⟩) })
  updLaunch s1 la.id (fun l => { l with waitCores := l.waitCores.filter (· != c) })

/-- The launch is journaled as started when its last block starts. -/
def noteStarted (s : State) (id : Nat) : State :=
  match findLaunch s id with
  | none => s
  | some la =>
    if la.started || !la.waitCores.isEmpty then s
    else journalWrite (updLaunch s id (fun l => { l with started := true })) 2 la.qslot la.tenant la.pos 0 0

/-- BLOCK_PLACE (R307, R309): a block on one core, or a gang on a cluster. -/
def execBlockPlace (launch core : Nat) (s : State) : Host.Outcome State Fault Refusal :=
  match findLaunch s launch with
  | none => .next s
  | some la =>
    let cs := if la.gang then (List.range 4).map (core / 4 * 4 + ·) else [core]
    if cs.all (fitsLaunch s la) then .next (noteStarted (cs.foldl (fun s c => placeBlock s la c) s) launch)
    else .next s

/-! ### Ending -/

/-- A group slot may be released (R139). -/
def releasable (g : Group) : Bool :=
  g.live && g.frontier.isEmpty && g.homes == 0 && g.handles.isEmpty && g.storeq.isEmpty

/-- The number under which what released groups have left under way goes on: it tells their launch (R8, R277). -/
def retiredCtx (launch x : Nat) : Nat := 64 * (launch + 1) + x

/-- What some groups of a core have under way goes on without their slots. -/
def outlive (launch : Nat) (xs : List Nat) (k : Core) : Core :=
  let name := fun (x : Nat) => if xs.contains x then retiredCtx launch x else x
  { k with flight := k.flight.map (fun w => { w with ctx := name w.ctx }), prefs := k.prefs.map (fun p => { p with ctx := name p.ctx }) }

/-- The launch of a group's block; 0 where it has none. -/
def launchNumber (k : Core) (x : Nat) : Nat := ((blockOf k (k.group x).block).map (·.launch)).getD 0

/-- A released slot: its units are free and offered to waiting GROWs first (R245), its set and its role in notices are left. -/
def releaseSlot (s : State) (c x : Nat) : State :=
  let k := getCore s c
  let g := k.group x
  let known := g.dones.foldl (fun m q => mset 0 m (copyWriter q.2) q.2) (ownSeen c x s.serial g)
  let s1 := updLaunch s (launchNumber k x) (fun l => { l with knows := joinSeen l.knows known })
  grantGrows (updCore (dropNotice s1 k.tid c x) c (fun k =>
    freeFrom ((outlive (launchNumber k x) [x] k).withGroup x {}) x 0)) c

/-- A cluster of a pre-emption whose cores hold no block any more: the cycles from c0 to now (R353). -/
def noteVacated (s : State) (c : Nat) : State :=
  let left := fun (q : PClus) => q.cores.any (fun c => !(residentBlocks (getCore s c)).isEmpty)
  let mark := fun (q : PClus) =>
    if !q.fin && q.cores.contains c && !left q then { q with act := now s c - q.c0 } else q
  { s with preempts := s.preempts.map (fun p => { p with clusters := p.clusters.map mark }) }

/-- A block all of whose slots are released has ended; its outstanding tiles count as done (R308). -/
def endBlock (s : State) (c b : Nat) : State :=
  match blockOf (getCore s c) b with
  | none => s
  | some blk =>
    if (slotsOf (getCore s c)).any (fun x => (getGroup s c x).block == b) then s
    else
      let s1 := updCore s c (fun k => { k with blocks := mset none k.blocks b none })
      updLaunch (noteVacated s1 c) blk.launch (fun l => { l with
        outst := l.outst.filter (fun o => !(o.2.1 == c && o.2.2 == b)),
        handout := l.handout.filter (fun h => !(h.1 == c)) })

/-- A slot that a REGROUP in progress counts among its targets (R145, the worked case) (log 13, DEDUCED). -/
def regroupTarget (k : Core) (x : Nat) : Bool := k.regroups.any (fun o => o.slots.contains x)

/-- SLOT_RELEASE (R139); a target of a REGROUP in progress is vacant until the commit. -/
def execSlotRelease (core ctx : Nat) (s : State) : Host.Outcome State Fault Refusal :=
  let g := getGroup s core ctx
  if releasable g && !regroupTarget (getCore s core) ctx then .next (endBlock (releaseSlot s core ctx) core g.block) else .next s

/-- Cores on which a launch has a block, with the block's index. -/
def blocksOf (s : State) (launch : Nat) : List (Nat × Nat) :=
  s.cores.flatMap (fun k => (residentBlocks k.2).filterMap (fun q => if q.2.launch = launch then some (k.1, q.1) else none))

/-- Every write of the launch's released groups is acknowledged, wherever they ran (R277). -/
def launchQuiet (s : State) (la : Launch) : Bool :=
  s.cores.all (fun k => k.2.flight.all (fun w => w.ctx / 64 != la.id + 1))

/-- LAUNCH_COMPLETE (R302, R307, R392): a launch every block of which has ended, or a barrier that nothing precedes. The journal
has one ending entry of a position (R394). -/
def execLaunchComplete (launch : Nat) (s : State) : Host.Outcome State Fault Refusal :=
  match findLaunch s launch with
  | none => .next s
  | some la =>
    let gone := { s with launches := s.launches.filter (fun l => l.id != launch) }
    if la.barrier then
      (if (earlierOf s la).isEmpty && (openPositions s la.qslot la.tenant).all (fun p => !posBefore p la.pos)
       then .next (if la.inJournal then gone else journalWrite gone 3 la.qslot la.tenant la.pos 0 0) else .next s)
    else if !la.waitCores.isEmpty || !(blocksOf s launch).isEmpty || s.saved.any (fun v => v.launch == launch) ||
        !launchQuiet s la then .next s
    else if la.inJournal then .next gone
    else if la.endedBy ≠ 0 then .next (journalWrite (tellJournal gone la.knows) 4 la.qslot la.tenant la.pos la.endedBy 0)
    else .next (journalWrite (tellJournal gone la.knows) 3 la.qslot la.tenant la.pos 0 0)

/-! ### Ending from outside -/

/-- Slots of a block. -/
def blockSlots (k : Core) (b : Nat) : List Nat := (slotsOf k).filter (fun x => (k.group x).block == b)

/-- A frame holds a group of some slots. -/
def frameHits (xs : List Nat) (fr : Frame) : Bool := fr.members.any (fun m => xs.contains m.slot)

/-- Frames and raised traps of some groups are dropped, and a context that handles one of them ends. -/
def dropFrames (k : Core) (xs : List Nat) : Core :=
  let keep := fun (fr : Frame) => !frameHits xs fr
  let hit := fun (q : Option Frame) => (q.map (frameHits xs)).getD false
  let k1 := if hit k.curH then { k.withGroup handlerCtx (endContext (k.group handlerCtx)) with curH := none } else k
  let k2 := if hit k1.curF then { k1.withGroup firmwareCtx (endContext (k1.group firmwareCtx)) with curF := none } else k1
  { k2 with framesH := k2.framesH.filter keep, framesF := k2.framesF.filter keep, partsH := k2.partsH.filter keep,
            partsF := k2.partsF.filter keep, raised := k2.raised.filter (fun r => !r.slots.any (xs.contains ·)) }

/-- Matrix instructions of some groups with no pass started are dropped with their pendency. -/
def dropUnstarted (s : State) (c : Nat) (xs : List Nat) : State :=
  let gone := (s.mxOps.filter (fun o => !o.started && o.members.any (fun m => m.core == c && xs.contains m.ctx))).map (·.id)
  let s1 := { s with mxOps := s.mxOps.filter (fun o => !gone.contains o.id), mxReqs := dropParts gone s.mxReqs }
  updCore s1 c (fun k => updSlots k xs (fun g => { g with handles := g.handles.filter (fun h => !gone.contains h.op) }))

/-- Every thread of some groups ends, whatever it waits for; queues and handles go on as after EXIT (R139). -/
def endGroups (s : State) (c : Nat) (xs : List Nat) : State :=
  updCore (dropUnstarted s c xs) c (fun k =>
    let k1 := dropFrames k xs
    let k2 := { k1 with
      growq := k1.growq.filter (fun q => !xs.contains q.ctx), csrPend := k1.csrPend.filter (fun q => !xs.contains q.ctx),
      regroups := k1.regroups.filter (fun o => !o.slots.any (xs.contains ·)) }
    updSlots k2 xs (fun g => { g with frontier := [], running := none, homes := 0, stop := .run, rewait := [], loads := [],
                                      acqs := [], setId := none }))

/-- Whether a launch has a group in a frame that stands in the firmware slot (R279). -/
def inFirmware (s : State) (launch : Nat) : Bool :=
  (blocksOf s launch).any (fun q =>
    let k := getCore s q.1
    (k.curF.toList ++ k.framesF).any (frameHits (blockSlots k q.2)))

/-- The host may end a launch with code 11: one that has a group in a firmware frame (R279), and any of a tenant that an XM has
struck (R397). -/
def mayEnd (s : State) (launch : Nat) : Bool :=
  inFirmware s launch || ((findLaunch s launch).map (fun l => s.hub.struck.contains l.tenant)).getD false

/-- FIRMWARE_END_LAUNCH (R279, R306, R392, R397): every block of the launch ends; the launch is journaled with code 11 at its
completion (log 47, DEDUCED). -/
def execFirmwareEndLaunch (launch : Nat) (s : State) : Host.Outcome State Fault Refusal :=
  if !mayEnd s launch then .next s
  else
    let s1 := (blocksOf s launch).foldl (fun s q => endGroups s q.1 (blockSlots (getCore s q.1) q.2)) s
    .next { updLaunch s1 launch (fun l => { l with endedBy := 11, waitCores := [] }) with
      saved := s.saved.filter (fun v => v.launch != launch) }

end Sys2Proof.Machine
end

