-- ==== Sys2Proof/Machine/Queues.lean ====
section
/-! DEFINITION. Queue slots and packets: enabling, stopping and resetting a queue (R297, R298, R425), doorbells and inline
packets (R301), claiming (R304), publishing (R305), the packet's fields and checks (R302, R303, R306). -/

namespace Sys2Proof.Machine
open Sys2Proof

/-! ### Words of a queue slot -/

def ringSize (q : QSlot) : Nat := 2 ^ q.logs

/-- Lap and slot of a position (R299). -/
def lapOf (q : QSlot) (p : Word) : Nat := p.toNat / ringSize q % 65536
def slotOf (q : QSlot) (p : Word) : Nat := p.toNat % ringSize q

/-- An address lies in a DRAM frame of a tenant. -/
def inTenantFrame (s : State) (t a : Nat) : Bool := isDram a && frameTagOf s (frameOf a) == t

/-- What enabling requires (R298). -/
def configOk (s : State) (q : QSlot) : Bool :=
  decide (4 ≤ q.logs) && decide (q.logs ≤ 12) && decide (q.logn ≤ 8) && q.owner != 0 &&
  inTenantFrame s q.owner q.rbase.toNat && inTenantFrame s q.owner q.ridxa.toNat

/-- A claimed position at which the queue met an error is never settled (R304, R305). -/
def blockAt (q : QSlot) (pos : Word) : QSlot :=
  if q.claimed.any (fun c => c.1 == pos) then
    { q with claimed := q.claimed.filter (fun c => c.1 != pos), blocked := q.blocked ++ [pos] }
  else q

/-- A queue enters an error state (R298, R304): the position, the journal entry, MSI entry 4. One that is in an error state
stays in it until RESET. -/
def queueError (s : State) (i : Nat) (state : Nat) (pos : Word) : State :=
  let q := getQueue s i
  if 2 ≤ q.state then setQueue s i (blockAt q pos)
  else raiseMsi (journalWrite (setQueue s i { blockAt q pos with state := state, errpos := pos }) 5 i q.owner pos state 0) 4

/-- The published-index word (R305): one 8-byte store of a hub agent; a fault gives QERR.RING. -/
def publish (s : State) (i : Nat) (v : Word) : State :=
  let q := getQueue s i
  let a := q.ridxa.toNat / 8 * 8
  if inTenantFrame s q.owner a then hubWriteN s a 8 v.toNat else queueError s i 3 q.r

/-- L rises over settled positions (R305): the new queue, and the last value to be published. -/
def raiseLow : Nat → QSlot → Option Word → QSlot × Option Word
  | 0, q, out => (q, out)
  | n + 1, q, out =>
    if q.settled.contains q.low then
      let l := q.low + 1
      let pub := l.toNat % 2 ^ q.logn == 0 || q.pubbed.contains q.low
      raiseLow n { q with low := l, settled := q.settled.filter (· != q.low), pubbed := q.pubbed.filter (· != q.low) }
        (if pub then some l else out)
    else (q, out)

/-- A claimed position is accepted or failed: L and the published index follow. -/
def settle (s : State) (i : Nat) (pos : Word) (pub : Bool) : State :=
  let q := getQueue s i
  let q1 := { q with claimed := q.claimed.filter (fun c => c.1 != pos), settled := q.settled ++ [pos],
                     pubbed := if pub then q.pubbed ++ [pos] else q.pubbed }
  let r := raiseLow q1.settled.length q1 none
  match r.2 with
  | none => setQueue s i r.1
  | some v => publish (setQueue s i r.1) i v

/-! ### Register events -/

/-- DOORBELL (R301). -/
def ring (q : QSlot) (v : Word) : QSlot :=
  let d := (v - q.w).toNat
  if 1 ≤ d ∧ d ≤ 2 ^ 31 - 1 then { q with w := v } else q

/-- A write that has raised W publishes with it what the host knows (R277, R300): DOORBELL and LAUNCH_WRITE name no hart (log 92,
DESIGN CHOICE). -/
def published (known : SMap Nat) (w0 : Word) (x : QSlot) : QSlot :=
  if x.w = w0 || (known.isEmpty && x.pubs.isEmpty) then x
  else { x with pubs := (x.pubs.filter (fun p => !posBefore p.1 x.low)) ++ [(x.w, known)] }

/-- What happens before the write that published a position (R277). -/
def publishedBy (x : QSlot) (pos : Word) : SMap Nat := ((x.pubs.find? (fun p => posBefore pos p.1)).map (·.2)).getD []

def execDoorbell (q : Nat) (v : Word) (s : State) : Host.Outcome State Fault Refusal :=
  .next (updQueue s q (fun x => published s.hostSeen x.w (ring x v)))

/-- A field of `w` bits at bit `b` of a packet (R302, little-endian). -/
def pf (p : List Byte) (b w : Nat) : Nat := bytesToNat p / 2 ^ b % 2 ^ w

def pktKind (p : List Byte) : Nat := pf p 29 3
def pktPub (p : List Byte) : Bool := pf p 28 1 == 1
def pktSlot (p : List Byte) : Nat := pf p 16 12
def pktSeq (p : List Byte) : Nat := pf p 0 16

/-- LAUNCH_WRITE (R301): the packet is held, and acts as a doorbell for the position that has its slot and lap. -/
def execLaunchWrite (q : Nat) (bytes : List Byte) (s : State) : Host.Outcome State Fault Refusal :=
  .next (updQueue s q (fun x =>
    let n := ringSize x
    let held := { x with inline := some bytes }
    if pktSlot bytes < n then
      let span := 65536 * n
      let want := pktSeq bytes * n + pktSlot bytes
      published s.hostSeen x.w (ring held (x.r + BitVec.ofNat 32 ((want + span - x.r.toNat % span) % span) + 1))
    else held))

/-- QUEUE_ENABLE (R298). -/
def execQueueEnable (q : Nat) (s : State) : Host.Outcome State Fault Refusal :=
  let x := { getQueue s q with en := true }
  if x.state ≠ 0 then .next (setQueue s q x)
  else if configOk s x then .next (setQueue s q { x with state := 1 })
  else .next (queueError (setQueue s q x) q 4 x.r)

/-- QUEUE_DISABLE (R298). -/
def execQueueDisable (q : Nat) (s : State) : Host.Outcome State Fault Refusal :=
  .next (updQueue s q (fun x => { x with en := false }))

/-- QUEUE_STOPPED (R298): every claimed packet has been accepted or failed. -/
def execQueueStopped (q : Nat) (s : State) : Host.Outcome State Fault Refusal :=
  let x := getQueue s q
  if x.state = 1 ∧ x.en = false ∧ x.claimed.isEmpty then .next (setQueue s q { x with state := 0 }) else .next s

/-- QUEUE_RESET (R298): positions claimed and not accepted or failed are dropped without an entry (log 99, DESIGN CHOICE). -/
def resetQueue (s : State) (q : Nat) (restart : Word) : State :=
  publish (updQueue s q (fun x => { x with
    inline := none, r := restart, w := restart, restart := restart, low := restart, settled := [], pubbed := [], claimed := [], blocked := [], pubs := []
    lost := false, state := if x.state < 2 then x.state else 0 })) q restart

def execQueueReset (q : Nat) (restart : Word) (s : State) : Host.Outcome State Fault Refusal := .next (resetQueue s q restart)

/-! ### Claiming -/

/-- The tenant's function lets its queues be claimed (R358, R359). -/
def functionRuns (s : State) (t : Nat) : Bool :=
  s.hub.fctl.all (fun q => q.2.tenant != t || (q.2.state == 0 && !q.2.pause)) && !checkpointing s t

/-- The ring slot of a position; none on a fault in reading it. -/
def readSlot (s : State) (q : QSlot) (p : Word) : Option (List Byte) :=
  let a := q.rbase.toNat / 4096 * 4096 + 64 * slotOf q p
  if inTenantFrame s q.owner a && !poisoned s a 64 then some (readBytes s.mem a 64) else none

/-- PACKET_CLAIM (R301, R304): the next position goes to one agent, with the inline packet if it is the position's, else
the ring slot. A queue whose configuration changed while it was enabled claims nothing (log 99, DESIGN CHOICE). -/
def execPacketClaim (q : Nat) (s : State) : Host.Outcome State Fault Refusal :=
  let x := getQueue s q
  if x.state ≠ 1 ∨ x.en = false ∨ x.r = x.w ∨ x.lost ∨ s.fenced.contains (5, q) ∨ !functionRuns s x.owner then .next s
  else
    let p := x.r
    let mine := match x.inline with
      | some b => pktSlot b == slotOf x p && pktSeq b == lapOf x p
      | none => false
    let y := { x with r := p + 1 }
    if mine then .next (setQueue s q { y with inline := none, claimed := y.claimed ++ [(p, x.inline)] })
    else match readSlot s x p with
      | some b => .next (setQueue s q { y with claimed := y.claimed ++ [(p, some b)] })
      | none => .next (queueError (setQueue s q { y with claimed := y.claimed ++ [(p, none)] }) q 3 p)

/-- PACKET_SLOT_REREAD (R304): a slot that was not yet written is read again (log 42, DEDUCED). -/
def execPacketSlotReread (q : Nat) (pos : Word) (s : State) : Host.Outcome State Fault Refusal :=
  let x := getQueue s q
  if !x.claimed.contains (pos, none) then .next s
  else match readSlot s x pos with
    | some b => .next (setQueue s q { x with claimed := updFirst (fun c => c.1 == pos) (fun c => (c.1, some b)) x.claimed })
    | none => .next (queueError s q 3 pos)

/-! ### The checks of a launch (R302, R303, R306) -/

/-- The 48 bits of role k. -/
def roleBits (p : List Byte) (k : Nat) : Nat := pf p (8 * (36 + 6 * k)) 48

def roleSz (v i : Nat) : Nat := v / 2 ^ (34 + 3 * i) % 8
def roleNblk (v : Nat) : Nat := v / 2 ^ 32 % 4 + 1

/-- A role as its bits give it (R303). -/
def roleOf (v : Nat) : RoleSpec :=
  { tl := v / 2 ^ 46 % 2 == 1, sizes := (List.range (roleNblk v)).map (fun i => 8 * 2 ^ roleSz v i), prio := v / 2 ^ 30 % 4,
    ngrp := v / 2 ^ 24 % 64 + 1, wd := v / 2 ^ 22 % 4, entry := v % 2 ^ 22 * 4 }

def rolesOf (p : List Byte) : List RoleSpec := (List.range (pf p 47 2 + 1)).map (fun k => roleOf (roleBits p k))

/-- R303: a role's own fields. -/
def roleValid (v : Nat) : Bool :=
  v / 2 ^ 47 == 0 && (List.range 4).all (fun i => if i < roleNblk v then roleSz v i != 7 else roleSz v i == 0) &&
  decide (((roleOf v).sizes.foldl (· + ·) 0) ≤ 640)

def rolesValid (p : List Byte) : Bool :=
  (List.range 4).all (fun k => if k < pf p 47 2 + 1 then roleValid (roleBits p k) else roleBits p k == 0)

def pktTenant (p : List Byte) : Nat := pf p 32 12
def pktCbase (p : List Byte) : Nat := pf p 96 10
def pktCcount (p : List Byte) : Nat := pf p 106 10
def pktGang (p : List Byte) : Bool := pf p 44 1 == 1
def pktNspm (p : List Byte) : Nat := pf p 49 6
def pktBank0 (p : List Byte) : Nat := pf p 55 6
def pktBanks (p : List Byte) : Nat := pf p 480 6
def pktExt (p : List Byte) (i : Nat) : Nat := pf p (192 + 16 * i) 16
def pktTile (p : List Byte) (i : Nat) : Nat := pf p (240 + 16 * i) 16
def pktKarg (p : List Byte) : Dword := BitVec.ofNat 64 (pf p 128 64)
def noTiles (p : List Byte) : Bool := (List.range 3).all (fun i => pktTile p i == 0)

/-- Doubleword j of entry i of the code-object tables (R316), of which each tenant has one of 4,096 entries (R315). An entry is
64 KiB: valid, forced interlock and id; base; size; number of kernels; then 32 bytes for each kernel: scratchpad KiB and order,
tile extents, entry offsets of its roles (log 62, DESIGN CHOICE). -/
def codeDword (s : State) (i j : Nat) : Nat := mget 0 s.codeTable (i * 8192 + j)

def kernelAt (s : State) (i k : Nat) : KernelNote :=
  let a := codeDword s i (4 + 4 * k)
  let t := codeDword s i (5 + 4 * k)
  let e := [codeDword s i (6 + 4 * k), codeDword s i (7 + 4 * k)]
  { scratch := a % 2 ^ 32, order := a / 2 ^ 32 % 4, tile := (t % 2 ^ 16, t / 2 ^ 16 % 2 ^ 16, t / 2 ^ 32 % 2 ^ 16),
    entries := (e.flatMap (fun v => [v % 2 ^ 32, v / 2 ^ 32])).take (a / 2 ^ 34 % 8) }

def objectAt (s : State) (i : Nat) : Option CodeObj :=
  let h := codeDword s i 0
  if h.testBit 63 then
    some { tenant := i / 4096, id := BitVec.ofNat 32 h, base := BitVec.ofNat 64 (codeDword s i 1), size := codeDword s i 2,
           forceIl := h.testBit 62, kernels := (List.range (min (codeDword s i 3) 2047)).map (kernelAt s i) }
  else none

/-- The objects that the loader has registered. -/
def registered (s : State) : List CodeObj := (s.codeTable.filter (fun q => q.1 % 8192 == 0)).filterMap (fun q => objectAt s (q.1 / 8192))

/-- The tenant's code object of a packet (R316), and the kernel note that gives its defaults (R302). -/
def objectOf (s : State) (t : Nat) (p : List Byte) : Option CodeObj :=
  (registered s).find? (fun o => o.tenant == t && o.id.toNat == pf p 64 32)
def noteOf (o : Option CodeObj) (p : List Byte) : Option KernelNote :=
  match o with
  | none => none
  | some o => o.kernels.find? (fun n => n.entries.contains (roleOf (roleBits p 0)).entry)

/-- Banks, traversal order and tile extents in effect. -/
def banksOf (n : Option KernelNote) (p : List Byte) : Nat :=
  if pktBanks p ≠ 0 then pktBanks p else (n.map (fun n => n.scratch / 8)).getD 0
def orderOf (n : Option KernelNote) (p : List Byte) : Nat := if noTiles p then (n.map (·.order)).getD 0 else pf p 486 2
def tileOf (n : Option KernelNote) (p : List Byte) : Nat × Nat × Nat :=
  if noTiles p then (n.map (·.tile)).getD (0, 0, 0) else (pktTile p 0, pktTile p 1, pktTile p 2)

/-- The core set. -/
def coreSet (p : List Byte) : List Nat := (List.range (pktCcount p)).map (pktCbase p + ·)

def coresBound (s : State) (t : Nat) (cs : List Nat) : Bool := cs.all (fun c => (getCore s c).bound && (getCore s c).tid == t)

/-- Code 5: the split and the banks. -/
def banksValid (s : State) (t : Nat) (cs : List Nat) (b0 n nspm : Nat) : Bool :=
  decide (nspm ≤ 36) && decide (b0 + n ≤ nspm) &&
  cs.all (fun c => (List.range n).all (fun i => bankTagOf s c (b0 + i) == t))

/-- Code 9: reserved and chute fields. -/
def fieldsValid (p : List Byte) (order : Nat) : Bool :=
  pf p 61 3 == 0 && pf p 116 12 == 0 && signExtended (pktKarg p) && (List.range 3).all (fun i => pktExt p i != 0) &&
  (noTiles p || (List.range 3).all (fun i => pktTile p i != 0)) && pf p 492 20 == 0 && (pf p 488 4 == 0 || order == 3)

/-- The lowest failing code of a launch; 0 where every check passes. -/
def launchCode (s : State) (owner : Nat) (p : List Byte) : Nat :=
  let t := pktTenant p
  let cs := coreSet p
  let o := objectOf s t p
  let n := noteOf o p
  let need := needOf (rolesOf p)
  if t ≠ owner then 1
  else if pktCcount p = 0 ∨ 768 < pktCbase p + pktCcount p ∨ coresBound s t cs = false then 3
  else if pktGang p = true ∧ (pktCbase p % 4 ≠ 0 ∨ pktCcount p % 4 ≠ 0) then 4
  else if banksValid s t cs (pktBank0 p) (banksOf n p) (pktNspm p) = false then 5
  else if 48 < need.1 ∨ 3072 < need.2.1 ∨ 16384 < need.2.2 then 6
  else if (match o with
    | none => true
    | some o => (rolesOf p).any (fun r => decide (o.size ≤ r.entry)) || (n.isNone && (pktBanks p == 0 || noTiles p))) then 7
  else if !rolesValid p then 8
  else if !fieldsValid p (orderOf n p) then 9
  else 0

def ceilDiv (a b : Nat) : Nat := if b = 0 then 0 else (a + b - 1) / b

/-- The launch that a packet describes (R302, R303, R308, R318). -/
def launchFrom (s : State) (q owner : Nat) (pos : Word) (p : List Byte) (id : Nat) (j : Word) : Launch :=
  let o := objectOf s owner p
  let n := noteOf o p
  let t := tileOf n p
  { id := id, qslot := q, pos := pos, tenant := owner, code := BitVec.ofNat 32 (pf p 64 32),
    base := (o.map (·.base)).getD 0, il := pf p 46 1 == 1 || (o.map (·.forceIl)).getD false, disc := pf p 45 1 == 1,
    gang := pktGang p, cores := coreSet p, waitCores := coreSet p, roles := rolesOf p, bank0 := pktBank0 p,
    banks := banksOf n p, nspm := pktNspm p, karg := pktKarg p, nx := ceilDiv (pktExt p 0) t.1, ny := ceilDiv (pktExt p 1) t.2.1,
    nz := ceilDiv (pktExt p 2) t.2.2, order := orderOf n p, glog2 := pf p 488 4, jseq := j,
    pub := publishedBy (getQueue s q) pos }

/-- Launches stand in the order of their positions within a queue. -/
def insertLaunch (l : Launch) : List Launch → List Launch
  | [] => [l]
  | m :: ms => if m.qslot = l.qslot ∧ m.tenant = l.tenant ∧ posBefore l.pos m.pos then l :: m :: ms else m :: insertLaunch l ms

def addLaunch (s : State) (l : Launch) : State := { s with serial := s.serial + 1, launches := insertLaunch l s.launches }

/-- A packet of the right lap is accepted or failed (R302, R306, R392) (log 43, DESIGN CHOICE). -/
def takePacket (s : State) (q : Nat) (pos : Word) (p : List Byte) : State :=
  let owner := (getQueue s q).owner
  let kind := pktKind p
  let fail := fun code => settle (journalWrite s 4 q owner pos code 0) q pos (pktPub p)
  let accepted := fun detail => journalWrite s 1 q owner pos 0 detail
  if kind = 0 then settle (journalWrite (accepted 0) 3 q owner pos 0 0) q pos (pktPub p)
  else if kind = 2 then
    settle (addLaunch (accepted 0) { id := s.serial, qslot := q, pos := pos, barrier := true, tenant := owner, jseq := s.hub.jhead }) q pos (pktPub p)
  else if kind ≠ 1 then fail 2
  else
    let code := launchCode s owner p
    if code ≠ 0 then fail code
    else settle (addLaunch (accepted (BitVec.ofNat 32 (pf p 64 32))) (launchFrom s q owner pos p s.serial s.hub.jhead)) q pos (pktPub p)

/-- PACKET_CHECK (R304, R306): the packet read for a claimed position is of its lap, of the lap before, or an overrun. -/
def execPacketCheck (q : Nat) (pos : Word) (s : State) : Host.Outcome State Fault Refusal :=
  let x := getQueue s q
  match x.claimed.find? (fun c => c.1 == pos) with
  | none => .next s
  | some (_, none) => .next s
  | some (_, some p) =>
    if pktSlot p = slotOf x pos ∧ pktSeq p = lapOf x pos then .next (takePacket s q pos p)
    else if pktSlot p = slotOf x pos ∧ (pktSeq p + 1) % 65536 = lapOf x pos then
      .next (setQueue s q { x with claimed := updFirst (fun c => c.1 == pos) (fun c => (c.1, none)) x.claimed })
    else .next (queueError s q 2 pos)

end Sys2Proof.Machine
end

