-- ==== Sys2Proof/Machine/Save.lean ====
section
/-! DEFINITION. Stopping, saving and resuming a block (R148, R185, R266, R310, R351, R354 to R356), shared by pre-emption,
seizure of a core, migration and checkpoints. -/

namespace Sys2Proof.Machine
open Sys2Proof

/-! ### Stopping -/

/-- Groups of a block that no REGROUP in progress gathers stop at their next instruction boundary; a REGROUP holds the
rest (R148, R351 step 1). -/
def holdGroups (k : Core) (xs : List Nat) (t : Nat) : Core :=
  let busy := (k.regroups.filter (fun o => o.slots.any (xs.contains ·))).flatMap (·.slots)
  let k1 := updSlots k (xs.filter (fun x => !busy.contains x)) (fun g =>
    if g.stop = .run then { g with stop := .held } else g)
  { k1 with regroups := k1.regroups.map (fun o =>
      if o.slots.any (xs.contains ·) then { o with hold := some (o.hold.getD t) } else o) }

/-- The handler context stops with a block whose frame it handles. -/
def holdHandler (k : Core) (xs : List Nat) : Core :=
  match k.curH with
  | none => k
  | some fr => if frameHits xs fr then k.withGroup handlerCtx { k.group handlerCtx with
      stop := if (k.group handlerCtx).stop = .run then .held else (k.group handlerCtx).stop } else k

/-- Step 1 of R351 for a block: its groups stop, and its matrix instructions with no pass started are withdrawn (R185). -/
def holdBlock (s : State) (c b : Nat) : State :=
  let xs := blockSlots (getCore s c) b
  let s1 := updCore s c (fun k => holdHandler (holdGroups k xs (now s c)) xs)
  withdrawOps s1 (withdrawnBy s1 c xs)

/-- The held contexts of a core go on. -/
def releaseCore (s : State) (c : Nat) : State :=
  let go := fun (_ : Nat) (g : Group) => if g.stop = .held then { g with stop := .run } else g
  updCore s c (fun k => { k with groups := mmap {} go k.groups, regroups := k.regroups.map (fun o => { o with hold := none }) })

/-! ### Drained -/

/-- A context has nothing outstanding but CPYGs and matrix instructions with no pass started (R351 steps 1 and 2). -/
def groupDone (s : State) (c x : Nat) : Bool :=
  let k := getCore s c
  let g := k.group x
  g.loads.isEmpty && g.storeq.isEmpty && g.pend.all (fun p => p.ready && p.held.isNone) &&
  k.flight.all (fun w => w.ctx != x) && k.csrPend.all (fun q => q.ctx != x || q.code == 0x2002 || q.code == 0x2003) &&
  s.hub.links.all (fun l => !(l.core == c && l.ctx == x)) && s.cedes.all (fun q => !(q.core == c && q.ctx == x)) &&
  s.copies.all (fun q => !(q.core == c && q.ctx == x) || q.kind == 2) &&
  s.mxOps.all (fun o => !o.started || o.members.all (fun m => !(m.core == c && m.ctx == x)))

/-- A block is stopped and drained, its raised traps have formed their frames, and no REGROUP holds it. -/
def blockDone (s : State) (c b : Nat) : Bool :=
  let k := getCore s c
  let xs := blockSlots k b
  let hx := if ((k.curH.map (frameHits xs)).getD false) then [handlerCtx] else []
  (xs ++ hx).all (fun x => (k.group x).stop != .run && groupDone s c x) &&
  k.raised.all (fun r => r.slots.all (fun x => !(xs ++ hx).contains x)) &&
  k.regroups.all (fun o => o.slots.all (fun x => !xs.contains x))

/-! ### Saving -/

def savedPark : Park → Park
  | .hold => .none
  | .join _ _ => .none
  | p => p

def savedEntry (e : Entry) : Entry := { e with park := savedPark e.park, wait := .none, notBefore := 0, settle := true }

/-- A group of a core as it is saved: results written; entries that a unit held stand at their instructions again. -/
def savedGroup (s : State) (c x : Nat) : Group :=
  let g := (getCore s c).group x
  let g1 := (g.pend.filter (·.ready)).foldl landPend g
  { g1 with
    pend := [], running := none, yielded := none, gave := false, latchA := none, latchB := none, lastIssue := 0,
    drained := false,
    frontier := g1.frontier.map savedEntry }

/-- The frame's or the group's own unfinished instructions of a group; every load of one that no frame holds completes
(R351). -/
def savedEntries (s : State) (c x : Nat) (frs : List Frame) : List Replay :=
  match (frs.flatMap (·.members)).find? (fun m => m.slot == x) with
  | some m => m.entries
  | none => (replayQueue s c x []).filter (fun e => e.kind != 1)

/-- Bytes of a core's banks, by offset from the first. -/
def bankCells (s : State) (c b0 n : Nat) : List Host.Cell :=
  let lo := c * 327680 + b0 * 8192
  (s.spm.filter (fun q => decide (lo ≤ q.1) && decide (q.1 < lo + n * 8192))).map (fun q => (q.1 - lo, q.2))

/-- And which writes made them what they are (R181). -/
def bankStamps (s : State) (c b0 n : Nat) : List Stamp :=
  let lo := c * 327680 + b0 * 8192
  ((s.stamps.flatMap (Stamp.without (lo + n * 8192) (1000 * 327680))).flatMap (Stamp.without 0 lo)).map
    (fun q => { q with key := q.key - lo })

/-- A block as it is saved. -/
def mkSaved (s : State) (c b id addr : Nat) : Option Saved :=
  let k := getCore s c
  match blockOf k b with
  | none => none
  | some blk =>
    let xs := blockSlots k b
    let hits := fun (fs : List Frame) => fs.filter (frameHits xs)
    let mine := (k.curH.map (frameHits xs)).getD false
    let frF := hits (k.curF.toList ++ k.framesF)
    let all := hits (k.curH.toList ++ k.framesH ++ k.partsH ++ k.partsF) ++ frF
    some { id := id, launch := blk.launch, tenant := k.tid, core := c, index := b, addr := addr, block := blk,
           groups := xs.map (fun x => (x, savedGroup s c x)),
           entries := (xs.map (fun x => (x, savedEntries s c x all))).filter (fun q => !q.2.isEmpty),
           handler := if mine then k.curH else none,
           hgroup := if mine then some (savedGroup s c handlerCtx) else none,
           frames := hits k.framesH, framesF := frF, parts := hits k.partsH, partsF := hits k.partsF,
           mxOps := s.mxOps.filter (fun o => o.members.any (fun m => m.core == c && xs.contains m.ctx)),
           spm := bankCells s c blk.bank0 blk.banks, stamps := bankStamps s c blk.bank0 blk.banks }

/-- Queue slot and position of a saved block's launch. -/
def placeOf (s : State) (v : Saved) : Nat × Nat :=
  ((findLaunch s v.launch).map (fun l => (l.qslot, l.pos.toNat))).getD (0, 0)

/-- The context in memory (R354): the crew writes it as a hub agent. -/
def writeContext (s : State) (v : Saved) : State :=
  let p := placeOf s v
  hubWrite s v.addr (contextBytes v p.1 p.2)

/-- Step 4 of R351: units, contexts and banks are free, the units for waiting GROWs first (R245); pending CPYGs now complete
into the register image. -/
def vacate (s : State) (v : Saved) : State :=
  let c := v.core
  let xs := v.groups.map (·.1)
  let ops := v.mxOps.map (·.id)
  let s1 : State := { s with
    saved := s.saved ++ [v], mxOps := s.mxOps.filter (fun o => !ops.contains o.id),
    copies := s.copies.map (fun q => if q.core = c ∧ q.saved = none ∧ (xs.contains q.ctx || (v.handler.isSome && q.ctx == handlerCtx))
      then { q with saved := some v.id } else q) }
  let s2 := updCore s1 c (fun k =>
    let k1 := outlive v.launch xs (dropFrames k xs)
    let k2 := xs.foldl (fun k x => freeFrom (k.withGroup x {}) x 0) k1
    let k3 := { k2 with blocks := mset none k2.blocks v.index none, growq := k2.growq.filter (fun q => !xs.contains q.ctx),
                        csrPend := k2.csrPend.filter (fun q => !xs.contains q.ctx) }
    if v.handler.isSome then k3.withGroup handlerCtx {} else k3)
  noteVacated (grantGrows s2 c) c

/-- No group of a block that leaves its core for good takes notices (R31). -/
def dropNotices (s : State) (v : Saved) : State := v.groups.foldl (fun s q => dropNotice s v.tenant v.core q.1) s

/-! ### Resuming (R356, R266, R72) -/

/-- The tile that a tile address names from a core (R159). -/
def tileKey (c : Nat) (sa : Word) : Nat :=
  spmKey (if sa.getLsbD 23 then c / 4 * 4 + (sa.extractLsb' 21 2).toNat else c) (sa.extractLsb' 0 19).toNat

/-- A matrix instruction of a saved block on its new core. -/
def moveOp (c : Nat) (o : MxOp) : MxOp :=
  { o with cluster := clusterOf c, withdrawn := true,
           members := o.members.map (fun m => { m with core := c, tiles := m.sas.map (tileKey c) }) }

/-- A group, or the handler's context, as it resumes, with the edge of R266: stopped still where a frame holds it. -/
def resumedGroup (g : Group) : Group := { g with stop := if g.stop = .held then .run else g.stop, acqs := g.acqs ++ [arrivalEdge] }

def restoreGroup (k : Core) (q : Nat × Group) : Core :=
  let k1 := (allocList k q.1 q.2.width 0 q.2.allot).getD k
  k1.withGroup q.1 (resumedGroup q.2)

/-- Whether a core has room for a saved block in its own places (R356), and holds no other block of its launch (R8). -/
def hasPlace (s : State) (v : Saved) (c : Nat) : Bool :=
  let k := getCore s c
  let units := (v.groups.map (fun q => unitsOf q.2.allotment q.2.width)).foldl (· + ·) 0
  let threads := (v.groups.map (fun q => q.2.width)).foldl (· + ·) 0
  k.bound && k.tid == v.tenant && (blockOf k v.index).isNone && (residentBlocks k).all (fun q => q.2.launch != v.launch) && v.groups.all (fun q => !(k.group q.1).live) &&
  hasRoom k (v.groups.length, threads, units) v.block.bank0 v.block.banks v.block.nspm && splitQuiet s c v.block.nspm &&
  (List.range v.block.banks).all (fun i => bankTagOf s c (v.block.bank0 + i) == v.tenant) &&
  (v.handler.isNone || (k.curH.isNone && contextIdle (k.group handlerCtx))) && !vacating s c && !s.fenced.contains (0, c)

/-- The notice page follows the group that t.notice names (R31). -/
def moveNotice (s : State) (v : Saved) (c : Nat) : State :=
  let t := getTenant s v.tenant
  match t.noticeGroup with
  | some (c', x) => if c' = v.core ∧ v.groups.any (fun q => q.1 == x) then setTenant s v.tenant { t with noticeGroup := some (c, x) } else s
  | none => s

/-- A group's last handout on its new core: as many cycles ago there as on the old one (R348, R310). -/
def moveHandout (s : State) (v : Saved) (c : Nat) (h : Nat × Nat × Nat × Nat) : Nat × Nat × Nat × Nat :=
  if h.1 = v.core ∧ v.groups.any (fun q => q.1 == h.2.1) then (c, h.2.1, now s c - (now s v.core - h.2.2.1), h.2.2.2) else h

/-- A saved block on a core: registers, banks, frames, matrix instructions and copies as the crew reads them from its context,
or as they stood where it was saved for a move; L1 is dropped for it (R266). -/
def restoreBlock (s : State) (saved : Saved) (c : Nat) : State :=
  let v := if saved.inMemory then readContext s.mem saved else saved
  let b := v.block
  let lo := c * 327680 + b.bank0 * 8192
  let s1 := setNspm (moveNotice s v c) c b.nspm
  let s2 := zeroBanks s1 c b.bank0 (b.bank0 + b.banks)
  let s3 : State := { s2 with
    spm := v.spm.foldl (fun m q => writeByte m (lo + q.1) q.2) s2.spm,
    stamps := s2.stamps ++ v.stamps.map (fun q => { q with key := lo + q.key }),
    saved := s2.saved.filter (fun q => q.id != v.id),
    mxOps := s2.mxOps ++ v.mxOps.map (moveOp c),
    copies := s2.copies.map (fun q => if q.saved = some v.id then { q with saved := none, core := c } else q) }
  let s4 := updCore s3 c (fun k =>
    let k1 := v.groups.foldl restoreGroup k
    let k2 := match v.handler, v.hgroup with
      | some fr, some (g : Group) => { k1.withGroup handlerCtx (resumedGroup g) with curH := some fr }
      | _, _ => k1
    { k2 with blocks := mset none k2.blocks v.index (some b), framesH := k2.framesH ++ v.frames, framesF := k2.framesF ++ v.framesF,
              partsH := k2.partsH ++ v.parts, partsF := k2.partsF ++ v.partsF, ibuf := [] })
  updLaunch s4 v.launch (fun l => { l with
    outst := l.outst.map (fun o => if o.2 = (v.core, v.index) then (o.1, c, v.index) else o)
    handout := l.handout.map (moveHandout s v c) })

/-- A block of the gang of a saved block is still live on its cluster: the gang resumes whole (R356). -/
def mateLive (s : State) (v : Saved) : Bool :=
  ((findLaunch s v.launch).map (·.gang)).getD false && (blocksOf s v.launch).any (fun q => q.1 / 4 == v.core / 4)

/-- Saved blocks that resume together: a gang on a whole cluster, each at its index within it. -/
def gangOf (s : State) (v : Saved) : List Saved :=
  match findLaunch s v.launch with
  | none => [v]
  | some la => if la.gang then s.saved.filter (fun q => q.launch == v.launch && q.core / 4 == v.core / 4) else [v]

/-- The core on which a block of a gang resumes, from that of another. -/
def gangCore (v q : Saved) (core : Nat) : Nat := if v.id = q.id then core else core / 4 * 4 + q.core % 4

/-- A core may take a saved block: one of its launch's set, or any of the tenant's when none is left. -/
def mayResume (s : State) (v : Saved) (c : Nat) : Bool :=
  match findLaunch s v.launch with
  | none => false
  | some la => (la.cores.contains c || noCoreLeft s la) && functionRuns s v.tenant && hasPlace s v c

/-- The context of a saved block stands in memory with an error in it (R260). -/
def contextStruck (s : State) (v : Saved) : Bool := v.inMemory && poisonedIn s v.addr (contextSize v)

/-- BLOCK_RESUME (R356). A context that an error has struck is not restored: the crew's read of it is reported (R395). -/
def execBlockResume (id core : Nat) (s : State) : Host.Outcome State Fault Refusal :=
  match s.saved.find? (fun v => v.id == id) with
  | none => .next s
  | some v =>
    let vs := gangOf s v
    let gang := ((findLaunch s v.launch).map (·.gang)).getD false
    if vs.any (contextStruck s) then .next (reportPoison s v.addr v.core 0)
    else if (gang = false ∨ v.core % 4 = core % 4) ∧ mateLive s v = false ∧ vs.all (fun q => mayResume s q (gangCore v q core)) then
      .next (vs.foldl (fun s q => restoreBlock s q (gangCore v q core)) s)
    else .next s

/-! ### Migration (R309, R310) -/

/-- Whether every block of a waiting gang fits its cluster now, but for its place in its queue (R309). -/
def gangFits (s : State) (la : Launch) (cl : Nat) : Bool :=
  (List.range 4).all (fun i =>
    let k := getCore s (cl * 4 + i)
    (freeBlockIndex k).isSome && hasRoom k (needOf la.roles) la.bank0 la.banks la.nspm)

/-- The gang that waits first, in acceptance order, for the cores of a cluster of a tenant. -/
def waitingGang (s : State) (cl tenant : Nat) : Option Launch :=
  s.launches.find? (fun l => l.gang && l.tenant == tenant && (List.range 4).any (fun i => l.waitCores.contains (cl * 4 + i)))

/-- A block that may be moved: running, of no gang (R309). -/
def movable (s : State) (blk : Block) : Bool := ((findLaunch s blk.launch).map (fun l => !l.gang)).getD false

/-- A block has moved to a core that takes it; none where the core does not. -/
def movedTo (s : State) (c b target : Nat) : Option State :=
  match mkSaved s c b s.serial 0 with
  | none => none
  | some v =>
    if target ≠ c && hasPlace s v target then some (restoreBlock (vacate { s with serial := s.serial + 1 } v) v target) else none

/-- Movable blocks of a cluster, by core and index. -/
def movables (s : State) (cl : Nat) : List (Nat × Nat) :=
  (List.range 4).flatMap (fun i =>
    ((residentBlocks (getCore s (cl * 4 + i))).filter (fun q => movable s q.2)).map (fun q => (cl * 4 + i, q.1)))

/-- Some moves of at most `n` blocks of a cluster, each to a core of the tenant that takes it, let the gang fit. -/
def movesFit (la : Launch) (cl : Nat) : Nat → State → Bool
  | 0, s => gangFits s la cl
  | n + 1, s => gangFits s la cl || (movables s cl).any (fun q => (coresOf s la.tenant).any (fun c =>
      match movedTo s q.1 q.2 c with
      | some t => movesFit la cl n t
      | none => false))

/-- Moving a block to a target would let the gang that waits first for the block's cluster fit, if need be with moves of other
blocks (R309) (log 46, DEDUCED). -/
def moveHelps (s : State) (c b target : Nat) : Bool :=
  let cl := c / 4
  match waitingGang s cl (getCore s c).tid, movedTo s c b target with
  | some la, some s1 => !gangFits s la cl && movesFit la cl (movables s1 cl).length s1
  | _, _ => false

/-- Groups of a core are held for something other than a move: a pre-emption, the skidder, a checkpoint, the reset of a function. -/
def heldElse (s : State) (c : Nat) : Bool :=
  vacating s c || s.fenced.contains (0, c) || checkpointing s (getCore s c).tid ||
    s.hub.fctl.any (fun q => q.2.tenant == (getCore s c).tid && q.2.state == 3)

/-- GANG_MIGRATE (R309, R310): a block that is in no gang moves to another core of its tenant, where that lets a waiting gang
fit. The block is held first, and moves once it has drained; where the move helps no more it goes on. -/
def execGangMigrate (core block target : Nat) (s : State) : Host.Outcome State Fault Refusal :=
  match blockOf (getCore s core) block with
  | none => .next s
  | some blk =>
    if heldElse s core || !movable s blk then .next s
    else if !moveHelps s core block target then .next (releaseCore s core)
    else
      let s1 := holdBlock s core block
      .next (if blockDone s1 core block then (movedTo s1 core block target).getD s1 else s1)

end Sys2Proof.Machine
end

