-- ==== Sys2Proof/Machine/Tenancy.lean ====
section
/-! DEFINITION. Revocation: who holds a resource and scrubbing it (R326, R327), notices (R333 to R335), CEDE at the
revocation unit (R215, R336, R337), and the skidder (R338 to R341). -/

namespace Sys2Proof.Machine
open Sys2Proof

/-! ### Resources (R326) -/

/-- The tag of a resource by kind and identifier; none where there is no such resource. -/
def tagOf (s : State) (kind res : Nat) : Option Nat :=
  if kind = 0 then (if res < 768 then some (tagUnder s 0 res (if (getCore s res).bound then (getCore s res).tid else 0)) else none)
  else if kind = 1 then (if res / 256 < 768 ∧ res % 256 < 40 then some (bankTagOf s (res / 256) (res % 256)) else none)
  else if kind = 2 then (if isDram (res * 65536) then some (frameTagOf s res) else none)
  else if kind = 3 then (if res < 2048 then some (chunkTagOf s (res / 512) (res % 512)) else none)
  else if kind = 4 then (if res < 96 then some (laneTagOf s res) else none)
  else (if res < 64 then some (tagUnder s 5 res (getQueue s res).owner) else none)

def heldBy (s : State) (t kind res : Nat) : Bool := tagOf s kind res == some t && t != 0

/-- Entries of all dies that map a frame, and their copies, are invalidated (R250). -/
def frameInval (s : State) (frame : Nat) : State :=
  let less := mmap {} (fun _ (e : XEntry) => if e.frame = frame then { e with v := false } else e) s.xlat
  let drop := fun (_ : Nat) (k : Core) => { k with tlb := k.tlb.filter (fun e => e.frame != frame) }
  { s with xlat := less, cores := mmap {} drop s.cores }

/-- Keys of the entries of a chunk. -/
def inChunk (res key : Nat) : Bool := key / 64 == res

/-- Copies of a chunk's entries leave the L1 translation buffers of its die. -/
def chunkTlb (s : State) (res t : Nat) : State :=
  let pages := (s.xlat.filter (fun q => inChunk res q.1)).map (fun q => q.2.page)
  let drop := fun (c : Nat) (k : Core) =>
    if dieOf c = res / 512 then { k with tlb := k.tlb.filter (fun e => !(e.tenant == t && pages.contains e.page)) } else k
  { s with cores := mmap {} drop s.cores }

/-- A frame's bytes are zero, in L2 without writeback, and unmarked (R327). -/
def zeroFrame (s : State) (frame : Nat) : State :=
  let out := fun (q : Host.Cell) => q.1 / 65536 != frame
  let l2' := s.l2.filter (fun q => q.line / 256 != frame)
  let clean := s.poison.filter (fun q => q.1 / 1024 != frame)
  { s with mem := s.mem.filter out, dram := s.dram.filter out, l2 := l2', poison := clean }

/-- Queue pairs that use a lane. -/
def pairsOn (s : State) (lane : Nat) : List Nat :=
  (s.hub.qps.filter (fun q => q.2.lanes.getLsbD lane && q.2.state != 0)).map (·.1)

/-- A resource is scrubbed and has a new tag (R327), and every access to it is decided by that tag again; `old` is the tenant
that held it. -/
def rebind (s0 : State) (old kind res tag : Nat) : State :=
  let s := unseize { s0 with fenced := s0.fenced.filter (fun e => e != (kind, res)) } tag kind res
  if kind = 0 then
    let fT := if tag = 0 then 0 else BitVec.ofNat 32 (2 ^ 31 + tag)
    let kept := fun (g : Nat × Group) => decide (g.1 < 48) || !g.2.storeq.isEmpty
    let s1 := updCore s res (fun k => { k with fTenant := fT, tHandler := 0, groups := k.groups.filter kept, prefs := [] })
    { s1 with tables := merase s1.tables res, biases := merase s1.biases res }
  else if kind = 1 then
    let s1 := zeroBanks s (res / 256) (res % 256) (res % 256 + 1)
    { s1 with bankTag := mset 0 s1.bankTag res tag }
  else if kind = 2 then
    let s1 := zeroFrame (frameInval s res) res
    { s1 with frameTag := mset 0 s1.frameTag res tag }
  else if kind = 3 then
    let s1 := chunkTlb s res old
    { s1 with xlat := s1.xlat.filter (fun q => !inChunk res q.1), chunkTag := mset 0 s1.chunkTag res tag,
              xlPtr := merase (merase s1.xlPtr (old * 4 + res / 512)) (tag * 4 + res / 512) }
  else if kind = 4 then
    let s1 := (pairsOn s res).foldl qpTear s
    { s1 with laneTag := mset 0 s1.laneTag res tag }
  else setQueue s res { owner := tag }

/-! ### What a resource waits for (R250, R253, R338) -/

/-- Accesses of the module to a frame that have been translated are over. -/
def frameQuiet (s : State) (frame : Nat) : Bool :=
  s.cores.all (fun k =>
    k.2.groups.all (fun g =>
      g.2.loads.all (fun r => r.kind == .lds || r.kind == .atoms || r.lanes.all (fun l => l.addr / 65536 != frame)) &&
      g.2.storeq.all (fun q => q.spm || q.lanes.all (fun l => l.addr / 65536 != frame))) &&
    k.2.flight.all (fun w => w.item.spm || w.item.lanes.all (fun l => l.addr / 65536 != frame)) &&
    k.2.prefs.all (fun p => p.sector.all (fun q => q / 1024 != frame)))

/-- Accesses that a chunk's entries have translated are over: those of its die's cores to the pages of the entries. -/
def chunkQuiet (s : State) (res : Nat) : Bool :=
  let pages := (s.xlat.filter (fun q => inChunk res q.1)).map (fun q => q.2.page)
  let away := fun (va : Dword) => !pages.contains (pageOf va)
  pages.isEmpty || s.cores.all (fun k => dieOf k.1 != res / 512 ||
    (k.2.groups.all (fun g =>
      g.2.loads.all (fun r => scratch r.kind || r.lanes.all (fun l => l.val.isSome || away l.va)) &&
      g.2.storeq.all (fun q => q.spm || q.lanes.all (fun l => away l.va))) &&
    k.2.flight.all (fun w => w.item.spm || w.item.lanes.all (fun l => away l.va)) &&
    k.2.prefs.all (fun p => p.sector.isNone || away p.va)))

/-- Every access to a resource that was under way when it was fenced is over (R250, R253, R338). -/
def quiet (s : State) (kind res : Nat) : Bool :=
  if kind = 0 then (residentBlocks (getCore s res)).all (fun q => blockDone s res q.1) && !vacating s res
  else if kind = 1 then bankQuiet s res
  else if kind = 2 then frameQuiet s res
  else if kind = 3 then chunkQuiet s res
  else if kind = 5 then (getQueue s res).claimed.isEmpty
  else true

/-- Step 1 of R338, and the first of a CEDE (R215, R250): every new access of the tenant to the resource raises OV, and what the
kind asks for (R339) is done. A core that is being vacated goes on with that first (R360). -/
def fence (s : State) (t kind res : Nat) : State :=
  let s1 := if s.fenced.contains (kind, res) then s else { s with fenced := s.fenced ++ [(kind, res)] }
  if kind = 0 then (if vacating s res then s1 else (residentBlocks (getCore s1 res)).foldl (fun s q => holdBlock s res q.1) s1)
  else if s.fenced.contains (kind, res) then s1
  else if kind = 2 then frameInval s1 res
  else if kind = 3 then
    let s2 := chunkTlb s1 res t
    let inval := fun (q : Nat × XEntry) => if inChunk res q.1 then (q.1, { q.2 with v := false }) else q
    { s2 with xlat := (s2.xlat.map inval).filter (fun q => q.2 != {}) }
  else if kind = 4 then (pairsOn s1 res).foldl qpTear s1
  else if kind = 5 then updQueue s1 res (fun q => { q with en := false })
  else s1

/-! ### Notices (R333 to R335) -/

/-- Frames that are never candidates (R333): the loss vector's, the landing's, the notice page's. -/
def barred (s : State) (t kind res : Nat) : Bool :=
  let q := getTenant s t
  kind == 2 && (frameOf q.lvec == res || (decide (frameOf q.lbase ≤ res) && decide (res < frameOf q.lbase + q.lsize)) ||
    (q.noticePa.map frameOf) == some res)

/-- The next notice sequence number. -/
def nextSeq (n : Nat) : Nat := if n = 0xFFFFFFFE then 1 else n + 1

/-- Bytes of a notice record (R335). -/
def noticeBytes (n : Notice) : List Byte :=
  padTo 128 (natToBytes 4 n.seq ++ natToBytes 4 (n.kind * 2 ^ 28 + n.count) ++ natToBytes 4 n.d ++ natToBytes 4 n.cands.length ++
    n.cands.flatMap (natToBytes 8))

/-- The record, then NSEQ, on the notice page of a group with EN = 1. -/
def writeNotice (s : State) (t : Nat) (n : Notice) : State :=
  let q := getTenant s t
  match q.noticeGroup, q.noticePa with
  | some _, some pa =>
    hubWriteN (hubWrite s (pa + 0x80 + 128 * (n.seq % 31)) (noticeBytes n)) pa 4 n.seq
  | _, _ => s

def openNotice (s : State) (t kind : Nat) : Option Notice :=
  (getTenant s t).notices.find? (fun n => n.kind == kind && !n.closed)

def updNotice (s : State) (t seq : Nat) (h : Notice → Notice) : State :=
  setTenant s t { getTenant s t with notices := updFirst (fun n => n.seq == seq) h (getTenant s t).notices }
def dropNoticeOf (s : State) (t seq : Nat) : State :=
  setTenant s t { getTenant s t with notices := (getTenant s t).notices.filter (fun n => n.seq != seq) }

/-- A notice is refused, or numbered, kept and written (R334). -/
def postNotice (tenant kind count deadline : Nat) (cands : List Nat) (newTag : Nat) (s : State) :
    Host.Outcome State Fault Refusal :=
  if (openNotice s tenant kind).isSome || decide (cands.length < count) || newTag == 4095 || !lvecValid s tenant ||
      cands.any (fun r => !heldBy s tenant kind r || barred s tenant kind r) then .next s
  else
    let q := getTenant s tenant
    let n : Notice := { kind := kind, seq := nextSeq q.nseq, count := count, t0 := hubCount s 4, d := deadline, cands := cands, newTag := newTag }
    let s1 := setTenant s tenant { q with nseq := n.seq, notices := q.notices ++ [n] }
    .next (writeNotice (setSeized s1 tenant kind []) tenant n)

/-- The candidates that the skidder takes: the first not ceded, as many as the shortfall (R337). -/
def designated (n : Notice) : List Nat := (n.cands.filter (fun r => !n.ceded.contains r)).take (n.count - n.ceded.length)

/-- An open notice whose deadline cycle has come is closed; the skidder takes up the shortfall (R337). -/
def closeDue (s : State) (t kind : Nat) : State :=
  match openNotice s t kind with
  | none => s
  | some n =>
    if hubCount s 4 < n.t0 + n.d then s
    else setSeized (updNotice s t n.seq (fun n => { n with closed := true })) t kind (designated n)

/-- NOTICE_POST (R334, R337). -/
def execNoticePost (tenant kind count deadline : Nat) (cands : List Nat) (newTag : Nat) (s : State) :
    Host.Outcome State Fault Refusal := postNotice tenant kind count deadline cands newTag (closeDue s tenant kind)
/-- NOTICE_DEADLINE (R337). -/
def execNoticeDeadline (tenant kind : Nat) (s : State) : Host.Outcome State Fault Refusal := .next (closeDue s tenant kind)

/-! ### CEDE at the revocation unit (R215, R336, R337) -/

/-- Busy: a core with live groups, or a bank of a resident block; or a frame that R333 bars. -/
def busy (s : State) (t kind res : Nat) : Bool :=
  (kind == 0 && !(slotsOf (getCore s res)).isEmpty) ||
  (kind == 1 && (residentBlocks (getCore s (res / 256))).any (fun q =>
    decide (q.2.bank0 ≤ res % 256) && decide (res % 256 < q.2.bank0 + q.2.banks))) ||
  barred s t kind res

/-- The status of a CEDE that arrives now. -/
def cedeStatus (s : State) (t kind res : Nat) : Nat :=
  if (seizedOf s t kind).contains res then 1
  else if !heldBy s t kind res then 3
  else if busy s t kind res then 4
  else if (openNotice s t kind).isSome then 0
  else 2

/-- A cede counts toward the open notice, which closes when it has enough (R336). -/
def countCede (s : State) (t kind res : Nat) : State :=
  match openNotice s t kind with
  | none => s
  | some n =>
    if n.ceded.length + 1 = n.count then raiseMsi (dropNoticeOf s t n.seq) 1
    else updNotice s t n.seq (fun n => { n with ceded := n.ceded ++ [res] })

/-- The status becomes the result of its CEDE. -/
def fillPend (s : State) (c x id : Nat) (v : Word) : State :=
  updGroup (remember s (tenantOf s c x) [v]) c x (fun g => { g with pend := g.pend.map (fun p =>
    if p.id = id then
      { p with cells := p.regs.flatMap (fun r => (lanesOf p.lanes).map (fun l => (cellKey r l, keptValue s c x r l v))),
               ready := true }
    else p) })

/-- After status 1 the tenant's accesses to the resource raise OV (R215), though the skidder may not have come to it yet; the groups
of a core stop when it does (R338) (log 45, DEDUCED). -/
def deny (s : State) (t kind res : Nat) : State :=
  if !heldBy s t kind res then s
  else if kind = 0 then { s with fenced := s.fenced ++ [(kind, res)] }
  else fence s t kind res

/-- A CEDE as it arrives: its status, the notice that it counts toward, and the tag that the resource passes to. From now on the
tenant's accesses to the resource raise OV (R215, R336, R337). -/
def judgeCede (s : State) (q : CedeOp) : State :=
  let st := cedeStatus s q.tenant q.kind q.res
  let tag := if st = 0 then ((openNotice s q.tenant q.kind).map (·.newTag)).getD 0 else 0
  let s1 := if st = 0 then countCede s q.tenant q.kind q.res else s
  let s2 := if st = 0 ∨ st = 2 then fence s1 q.tenant q.kind q.res else if st = 1 then deny s1 q.tenant q.kind q.res else s1
  { s2 with cedes := updFirst (fun p => p.id == q.id) (fun p => { p with verdict := some (st, tag) }) s2.cedes }

/-- A CEDE that has been judged is answered. A resource passes on first, once every access to it is over (R250, R253)
(log 45, DEDUCED). -/
def answerCede (s : State) (q : CedeOp) (st tag : Nat) : State :=
  let passes := decide (st = 0 ∨ st = 2)
  if passes && !quiet s q.kind q.res then s
  else
    let s1 := if passes then rebind s q.tenant q.kind q.res tag else s
    fillPend { s1 with cedes := s1.cedes.filter (fun p => p.id != q.id) } q.core q.ctx q.id (BitVec.ofNat 32 st)

/-- CEDE_ARRIVAL (R215, R336, R337): judged at the revocation unit against its own counter, once; and answered. -/
def execCedeArrival (id : Nat) (s : State) : Host.Outcome State Fault Refusal :=
  match s.cedes.find? (fun q => q.id == id) with
  | none => .next s
  | some q =>
    let s1 := if q.verdict.isSome then s else judgeCede (closeDue s q.tenant q.kind) q
    match (s1.cedes.find? (fun q => q.id == id)).bind (·.verdict) with
    | none => .next s1
    | some (st, tag) => .next (answerCede s1 q st tag)

/-! ### The skidder (R338 to R340) -/

/-- Words of a queue slot's registers (R298, R339). -/
def qcfgWord (q : QSlot) : Nat := q.owner * 2 ^ 20 + q.logn * 2 ^ 12 + q.logs * 2 ^ 8
def qctlWord (q : QSlot) : Nat := q.restart.toNat * 2 ^ 32 + (if q.en then 1 else 0)
def qstatWord (q : QSlot) : Nat := q.state * 2 ^ 29 + (if q.inline.isSome then 1 else 0)

/-- A queue slot whose claimed packets are settled has stopped, as on clearing EN (R298, R339). -/
def stoppedQueue (q : QSlot) : QSlot := { q with state := if q.state = 1 then 0 else q.state }

/-- What the skidder lands of a resource that is not a core (R339). -/
def landedBytes (s : State) (kind res : Nat) : List Byte :=
  if kind = 1 then readBytes s.spm (res / 256 * 327680 + res % 256 * 8192) 8192
  else if kind = 2 then readBytes s.mem (res * 65536) 65536
  else if kind = 3 then (List.range 64).flatMap (fun i =>
    let e := mget {} s.xlat (res * 64 + i)
    natToBytes 8 (vaOfEntry e).toNat ++ natToBytes 8 (wordOfEntry e).toNat)
  else if kind = 5 then
    let q := stoppedQueue (getQueue s res)
    padTo 64 (natToBytes 8 (qcfgWord q) ++ natToBytes 8 q.rbase.toNat ++ natToBytes 8 q.ridxa.toNat ++ natToBytes 8 (qctlWord q) ++
      natToBytes 4 (qstatWord q) ++ natToBytes 4 q.r.toNat ++ natToBytes 4 q.w.toNat ++ natToBytes 4 q.errpos.toNat)
  else []

def up256 (n : Nat) : Nat := (n + 255) / 256 * 256

/-- Contexts of a core's blocks in block-index order, with the bytes they take. -/
def coreContexts (s : State) (c addr : Nat) : List Saved × Nat :=
  (residentBlocks (getCore s c)).foldl (fun acc q =>
    match mkSaved s c q.1 (s.serial + acc.1.length) (addr + acc.2) with
    | none => acc
    | some v => (acc.1 ++ [v], acc.2 + contextSize v)) ([], 0)

/-- An error has struck what the skidder lands of a bank or a frame (R395). -/
def landedStruck (s : State) (kind res : Nat) : Bool :=
  if kind = 1 then struckSpm s (res / 256 * 327680 + res % 256 * 8192) 8192
  else if kind = 2 then poisonedIn s (res * 65536) 65536
  else false

/-- What is landed of bytes of which an error has struck some sectors: those are open (log 101, DEDUCED). -/
def landedClean (s : State) (kind res : Nat) (bs : List Byte) : List Byte :=
  let struck := fun (i : Nat) => if kind = 1 then struckSpm s (res / 256 * 327680 + res % 256 * 8192 + 64 * i) 64
    else poisoned s (res * 65536 + 64 * i) 64
  (List.range (bs.length / 64)).flatMap (fun i => if struck i then freeBytes s 64 else (bs.drop (64 * i)).take 64)

/-- A core's blocks leave it, landed or lost; groups that are lost take no notices. -/
def landCore (s : State) (vs : List Saved) (lost : Bool) : State :=
  let s1 := { s with serial := s.serial + vs.length }
  let s2 := vs.foldl (fun s v => if lost then vacate (dropNotices s v) v
    else vacate (writeContext s v) { v with inMemory := true }) s1
  if lost then { s2 with saved := s2.saved.filter (fun v => !(vs.map (·.id)).contains v.id) } else s2

/-- Steps 2 to 4 of R338 for a fenced resource that has gone quiet. -/
def landResource (s : State) (t : Nat) (n : Notice) (res : Nat) : State :=
  let q := getTenant s t
  let at' := q.lbase + q.lcur
  let vs := if n.kind = 0 then coreContexts s res at' else ([], 0)
  let struck := landedStruck s n.kind res
  let bytes := if struck then landedClean s n.kind res (landedBytes s n.kind res) else landedBytes s n.kind res
  let size := if n.kind = 0 then vs.2 else bytes.length
  let lost := decide (65536 * q.lsize < q.lcur + size)
  let s1 := if n.kind = 0 then landCore s vs.1 lost else if lost || size == 0 then s else hubWrite s at' bytes
  let s1 := if struck then reportEngine s1 t clsXM (if n.kind = 1 then res / 256 else 0) 0 else s1
  let s2 := if lost then s1 else setTenant s1 t { getTenant s1 t with lcur := q.lcur + up256 size }
  let s3 := rebind s2 t n.kind res n.newTag
  lossRecord s3 t n.kind lost res n.seq (if lost || size == 0 then 0xFFFFFFFF else q.lcur) (if lost then 0 else size)

/-- SKIDDER_SEIZE (R338): the next resource of a notice that closed short is fenced; once its accesses are over it is
landed, scrubbed, rebound and recorded. After the last the host is told. -/
def execSkidderSeize (tenant kind : Nat) (s : State) : Host.Outcome State Fault Refusal :=
  match (getTenant s tenant).notices.find? (fun n => n.kind == kind && n.closed) with
  | none => .next s
  | some n =>
    let todo := (designated n).drop n.taken
    match todo with
    | [] => .next (raiseMsi (dropNoticeOf s tenant n.seq) 1)
    | res :: rest =>
      let s1 := fence s tenant kind res
      if !quiet s1 kind res then .next s1
      else
        let s2 := updNotice (landResource s1 tenant n res) tenant n.seq (fun n => { n with taken := n.taken + 1 })
        .next (if rest.isEmpty then raiseMsi (dropNoticeOf s2 tenant n.seq) 1 else s2)

end Sys2Proof.Machine
end

