-- ==== Sys2Proof/Machine/Preempt.lean ====
section
/-! DEFINITION. Spatial pre-emption (R346 to R353, R360) and tenant functions (R357 to R359). -/

namespace Sys2Proof.Machine
open Sys2Proof

/-! ### The request (R346) -/

def pqTenant (p : List Byte) : Nat := pf p 0 12
def pqBase (p : List Byte) : Nat := pf p 32 10
def pqCount (p : List Byte) : Nat := pf p 42 10
def pqD (p : List Byte) : Nat := pf p 64 32
def pqSarea (p : List Byte) : Nat := pf p 128 64
def pqSsize (p : List Byte) : Nat := pf p 192 64
def pqStatus (p : List Byte) : Nat := pf p 256 64

/-- The cores that the request names. -/
def pqCores (p : List Byte) : List Nat := (List.range (pqCount p)).map (pqBase p + ·)

/-- The word at STATUS may be written. -/
def statusOk (s : State) (a n : Nat) : Bool := decide (a % 16 = 0) && systemBytes s a n

def requestOk (s : State) (p : List Byte) : Bool :=
  pf p 12 20 == 0 && pf p 52 12 == 0 && pf p 96 32 == 0 && pf p 320 192 == 0 &&
  pqTenant p != 0 && pqTenant p != 4095 && pqCount p != 0 && decide (pqBase p + pqCount p ≤ 768) &&
  coresBound s (pqTenant p) (pqCores p) && pqD p != 0 && pqSarea p % 256 == 0 &&
  systemBytes s (pqSarea p) (Nat.max (pqSsize p) 1) && statusOk s (pqStatus p) 0xC04

/-! ### The estimates (R348) -/

/-- Unbounded: later than every deadline (R346). -/
def noBound : Nat := 2 ^ 32

/-- The launches of a core's blocks. -/
def coreLaunches (s : State) (c : Nat) : List Launch :=
  (residentBlocks (getCore s c)).filterMap (fun q => findLaunch s q.2.launch)

/-- M of a launch: the mean of its samples; the direction in which it is rounded is free (log 48, DESIGN CHOICE). -/
def meanOf (s : State) (la : Launch) : Nat :=
  let n := la.samples.length
  if n = 0 then noBound
  else
    let sum := la.samples.foldl (· + ·) 0
    sum / n + (if sum % n ≠ 0 && freeBitAt s 22 0 la.id 0 then 1 else 0)

def drainCost (s : State) (c : Nat) : Nat := ((coreLaunches s c).map (meanOf s)).foldl Nat.max 0

/-- Bytes of the contexts of a core's blocks. -/
def coreBytes (s : State) (c : Nat) : Nat := (coreContexts s c 0).2

def saveCost (s : State) (c : Nat) : Nat :=
  256 + (coreBytes s c + 127) / 128 + (if (getCore s c).regroups.isEmpty then 0 else 4096)

def mayDiscard (s : State) (c : Nat) : Bool := (coreLaunches s c).all (·.disc)

def maxOver (cs : List Nat) (cost : Nat → Nat) : Nat := (cs.map cost).foldl Nat.max 0

/-! ### The choice (R349) -/

/-- Bytes that a cluster reserves for its contexts (R349). -/
def reserveFor (s : State) (cs : List Nat) : Nat := (cs.map (coreBytes s)).foldl (· + ·) 0

/-- Choice, estimate and OVR of a cluster that may use `room` bytes of the save area. -/
def chooseFor (s : State) (cs : List Nat) (d room : Nat) : Nat × Nat × Bool :=
  let drain := maxOver cs (drainCost s)
  let save := maxOver cs (saveCost s)
  if drain ≤ d then (0, drain, false)
  else if cs.all (mayDiscard s) && decide (512 ≤ d) then (2, 512, false)
  else if room < reserveFor s cs then (0, drain, true)
  else (1, save, decide (d < save))

/-- The choice of a pre-emption in progress for a core (log 50, DEDUCED). -/
def priorChoice (s : State) (c : Nat) : Option PClus :=
  (s.preempts.flatMap (·.clusters)).find? (fun q => !q.fin && q.cores.contains c)

/-- A cluster's part of a request of which `used` bytes of the save area are reserved, and how many are after it (R349). A core
that an earlier request is vacating keeps that request's choice (R360). -/
def clusterFor (s : State) (d ssize : Nat) (cl : Nat) (cs : List Nat) (used : Nat) : PClus × Nat :=
  let mine := cs.filter (fun c => (priorChoice s c).isNone)
  let c0 := now s (cl * 4)
  match mine, cs.findSome? (priorChoice s) with
  | [], some q => ({ cluster := cl, c0 := c0, choice := q.choice, est := q.est, ovr := q.ovr, cores := cs }, used)
  | _, _ =>
    let r := chooseFor s mine d (ssize - used)
    let n := if r.1 = 1 then reserveFor s mine else 0
    ({ cluster := cl, c0 := c0, choice := r.1, est := r.2.1, ovr := r.2.2, base := used, room := n, cores := cs }, used + n)

/-- Cores to vacate: those named, and the cluster of every gang block on them (R347). -/
def vacatedCores (s : State) (named : List Nat) : List Nat :=
  let gangs := (named.filter (fun c => (coreLaunches s c).any (·.gang))).map (· / 4)
  (List.range 768).filter (fun c => named.contains c || gangs.contains (c / 4))

def clustersOf (cs : List Nat) : List Nat := (List.range 192).filter (fun cl => cs.any (fun c => c / 4 == cl))

/-- The clusters of a request, in ascending order, and the bytes of the save area that they reserve. -/
def clusterPlan (s : State) (d ssize : Nat) (cs : List Nat) : List PClus × Nat :=
  (clustersOf cs).foldl (fun acc cl =>
    let r := clusterFor s d ssize cl (cs.filter (fun c => c / 4 == cl)) acc.2
    (acc.1 ++ [r.1], r.2)) (([] : List PClus), 0)

/-- Every group of a core's blocks fetches no more tiles (R350). -/
def drainCore (s : State) (c : Nat) : State :=
  updCore s c (fun k => updSlots k (slotsOf k) (fun g => { g with drained := true }))

def holdCore (s : State) (c : Nat) : State :=
  (residentBlocks (getCore s c)).foldl (fun s q => holdBlock s c q.1) s

/-- What a cluster does at once. -/
def startCluster (s : State) (q : PClus) : State :=
  let mine := q.cores.filter (fun c => (priorChoice s c).isNone)
  if q.choice = 0 then mine.foldl drainCore s else mine.foldl holdCore s

/-- Vacated cores leave the core set of every launch with a block on them (R347). -/
def trimLaunches (s : State) (cs : List Nat) : State :=
  let on := fun (l : Launch) => cs.filter (fun c => (coreLaunches s c).any (fun m => m.id == l.id))
  { s with launches := s.launches.map (fun l => { l with cores := l.cores.filter (fun c => !(on l).contains c) }) }

/-- PREEMPT_REQUEST (R346 to R349): refused, or every cluster chooses. -/
def execPreemptRequest (bytes : List Byte) (s : State) : Host.Outcome State Fault Refusal :=
  if !requestOk s bytes then
    let s1 := if statusOk s (pqStatus bytes) 4 then hubWriteN s (pqStatus bytes) 4 0xFFFFFFFF else s
    .next (raiseMsi s1 2)
  else
    let cs := vacatedCores s (pqCores bytes)
    let plan := clusterPlan s (pqD bytes) (pqSsize bytes) cs
    let s1 := plan.1.foldl startCluster s
    let p : Preempt := { id := s.serial, tenant := pqTenant bytes, d := pqD bytes, sarea := pqSarea bytes, ssize := pqSsize bytes, sused := plan.2, status := pqStatus bytes, clusters := plan.1 }
    let s2 := trimLaunches s1 cs
    .next { s2 with serial := s2.serial + 1, preempts := s2.preempts ++ [p] }

/-! ### Vacating -/

def findPreempt (s : State) (id : Nat) : Option Preempt := s.preempts.find? (fun p => p.id == id)
def updPreempt (s : State) (id : Nat) (h : Preempt → Preempt) : State :=
  { s with preempts := updFirst (fun p => p.id == id) h s.preempts }
def updCluster (s : State) (id cl : Nat) (h : PClus → PClus) : State :=
  updPreempt s id (fun p => { p with clusters := updFirst (fun q => q.cluster == cl) h p.clusters })

def clusterIn (p : Preempt) (cl : Nat) : Option PClus := p.clusters.find? (fun q => q.cluster == cl)

/-- Whether a cluster's cores still hold blocks. -/
def stillLive (s : State) (q : PClus) : Bool := q.cores.any (fun c => !(residentBlocks (getCore s c)).isEmpty)

/-- The request that vacates a core: the first that names it. -/
def ownerOf (s : State) (c : Nat) : Option Nat :=
  (s.preempts.find? (fun p => p.clusters.any (fun q => !q.fin && q.cores.contains c))).map (·.id)

/-- PREEMPT_DRAIN_DEADLINE (R349, R350): blocks still live at c0 + D are saved after all, behind what is reserved; where their
contexts do not fit the cluster drains on. -/
def execPreemptDrainDeadline (req cluster : Nat) (s : State) : Host.Outcome State Fault Refusal :=
  match (findPreempt s req).bind (fun p => (clusterIn p cluster).map (fun q => (p, q))) with
  | none => .next s
  | some (p, q) =>
    if q.fin || q.saving || q.choice ≠ 0 || decide (now s (cluster * 4) < q.c0 + p.d) || !stillLive s q then .next s
    else
      let mine := q.cores.filter (fun c => ownerOf s c == some req)
      let n := reserveFor s mine
      if p.ssize < p.sused + n then .next (updCluster s req cluster (fun q => { q with ovr := true }))
      else
        let s1 := updPreempt s req (fun p => { p with sused := p.sused + n })
        let s2 := updCluster s1 req cluster (fun q => { q with ovr := true, saving := true, base := p.sused, room := n })
        .next (mine.foldl holdCore s2)

/-- A lower core of the cluster is saved before a core (R349). -/
def saveFirst (s : State) (p : Preempt) (q : PClus) (core : Nat) : Bool :=
  q.cores.any (fun c => decide (c < core) && ownerOf s c == some p.id && !(residentBlocks (getCore s c)).isEmpty)

/-- The drained blocks of a core are saved from an address on, in block-index order. -/
def saveCore (s : State) (c addr : Nat) : State := landCore s (coreContexts s c addr).1 false

/-- Where a core's contexts of `n` bytes go (R349): into the cluster's part of the save area, behind those of its lower cores; where
they have outgrown it, behind all that is reserved; none where that passes SSIZE (log 49, DEDUCED). -/
def saveAt (p : Preempt) (q : PClus) (n : Nat) : Option Nat :=
  if q.bytes + n ≤ q.room then some (q.base + q.bytes)
  else if p.sused + n ≤ p.ssize then some p.sused
  else none

/-- PREEMPT_SAVE (R351): the blocks of a core are held; drained, they are saved, and the core is vacated. Contexts that
do not fit the save area are not saved: the cluster drains (R349). -/
def execPreemptSave (req core : Nat) (s : State) : Host.Outcome State Fault Refusal :=
  let cl := clusterOf core
  match (findPreempt s req).bind (fun p => (clusterIn p cl).map (fun q => (p, q))) with
  | none => .next s
  | some (p, q) =>
    if q.fin || !(q.choice == 1 || q.saving) || !q.cores.contains core || ownerOf s core != some req || saveFirst s p q core then .next s
    else
      let s1 := holdCore s core
      if !(residentBlocks (getCore s1 core)).all (fun b => blockDone s1 core b.1) then .next s1
      else
        let n := coreBytes s1 core
        match saveAt p q n with
        | none =>
          let s2 := q.cores.foldl (fun s c => drainCore (releaseCore s c) c) s1
          .next (updCluster s2 req cl (fun q => { q with choice := 0, saving := false, ovr := true }))
        | some off =>
          let s2 := saveCore s1 core (p.sarea + off)
          let s3 := updCluster s2 req cl (fun q => { q with bytes := q.bytes + n })
          .next (updPreempt s3 req (fun p => { p with sused := max p.sused (off + n) }))

/-- Copies of some groups stop at their next chunk, and link requests not transmitted are dropped (R352, R359). -/
def cancelAll (s : State) (c : Nat) (xs : List Nat) : State :=
  let mine := fun (core ctx : Nat) => core == c && xs.contains ctx
  let s1 := { s with copies := s.copies.map (fun q => if mine q.core q.ctx && q.saved.isNone then { q with cancel := true } else q) }
  setHub s1 (fun h => { h with links := h.links.filter (fun l => !(mine l.core l.ctx && !l.sent)) })

/-- A block of a discardable launch is held, its operations are cancelled. -/
def discardHold (s : State) (c b : Nat) : State :=
  let xs := blockSlots (getCore s c) b
  cancelAll (dropUnstarted (holdBlock s c b) c xs) c xs

/-- And it has drained (log 51, DEDUCED). -/
def discardDone (s : State) (c b : Nat) : Bool :=
  blockDone s c b && s.copies.all (fun q => q.done.isSome || q.saved.isSome || !(q.core == c && (blockSlots (getCore s c) b).contains q.ctx))

/-- A block ends without a context; its tiles return (R352). -/
def discardBlock (s : State) (c b : Nat) : State :=
  match mkSaved s c b s.serial 0 with
  | none => s
  | some v =>
    let s1 := vacate (dropNotices { s with serial := s.serial + 1 } v) v
    let xs := v.groups.map (·.1)
    let s2 := { s1 with saved := s1.saved.filter (fun q => q.id != v.id),
                        copies := s1.copies.filter (fun q => !(q.saved == some v.id)),
                        mxOps := s1.mxOps.filter (fun o => !o.members.any (fun m => m.core == c && xs.contains m.ctx)) }
    updLaunch s2 v.launch (fun l =>
      let back := l.outst.filter (fun o => o.2.1 == c && o.2.2 == b)
      { l with returned := l.returned ++ back.map (·.1), outst := l.outst.filter (fun o => !(o.2.1 == c && o.2.2 == b)),
               handout := l.handout.filter (fun h => !(h.1 == c)) })

/-- PREEMPT_DISCARD (R352). -/
def execPreemptDiscard (req core : Nat) (s : State) : Host.Outcome State Fault Refusal :=
  match (findPreempt s req).bind (fun p => clusterIn p (clusterOf core)) with
  | none => .next s
  | some q =>
    if q.fin || q.choice ≠ 2 || !q.cores.contains core || ownerOf s core != some req then .next s
    else
      let bs := (residentBlocks (getCore s core)).map (·.1)
      let s1 := bs.foldl (fun s b => discardHold s core b) s
      if bs.all (discardDone s1 core) then .next (bs.foldl (fun s b => discardBlock s core b) s1) else .next s1

/-! ### The records (R353) -/

def clusterRecord (p : Preempt) (q : PClus) : List Byte :=
  let late := q.ovr || decide (p.d < q.act)
  natToBytes 4 ((if late then 2 ^ 31 else 0) + q.choice * 2 ^ 28 + q.cluster) ++ natToBytes 4 (min q.est 0xFFFFFFFF) ++ natToBytes 4 q.act ++
  natToBytes 4 q.bytes

/-- After the last record the count is written and the allocator is signalled. -/
def endRequest (s : State) (id : Nat) : State :=
  match findPreempt s id with
  | none => s
  | some p =>
    if p.clusters.all (·.fin) then
      let s1 := hubWriteN s (p.status + 0xC00) 4 p.clusters.length
      raiseMsi { s1 with preempts := s1.preempts.filter (fun q => q.id != id) } 2
    else s

/-- PREEMPT_CLUSTER_DONE (R353). -/
def execPreemptClusterDone (req cluster : Nat) (s : State) : Host.Outcome State Fault Refusal :=
  match (findPreempt s req).bind (fun p => (clusterIn p cluster).map (fun q => (p, q))) with
  | none => .next s
  | some (p, q) =>
    if q.fin || stillLive s q then .next s
    else
      let i := (p.clusters.takeWhile (fun r => r.cluster != cluster)).length
      let s1 := hubWrite s (p.status + 16 * i) (clusterRecord p q)
      .next (endRequest (updCluster s1 req cluster (fun q => { q with fin := true })) req)

/-! ### Tenant functions (R357 to R359) -/

def getFctl (s : State) (f : Nat) : Fctl := mget {} s.hub.fctl f
def setFctl (s : State) (f : Nat) (x : Fctl) : State := setHub s (fun h => { h with fctl := mset {} h.fctl f x })

/-- Nothing of a tenant is claimed and unsettled, or accepted and not completed. -/
def tenantSettled (s : State) (t : Nat) : Bool :=
  (queuesOf s t).all (fun q => (getQueue s q).claimed.isEmpty) && s.launches.all (fun l => l.tenant != t)

/-- FUNCTION_PAUSE (R358). -/
def execFunctionPause (f : Nat) (s : State) : Host.Outcome State Fault Refusal :=
  let x := getFctl s f
  .next (setFctl s f { x with pause := true, state := if x.state = 0 then 1 else x.state })

/-- FUNCTION_PAUSED (R358) (log 60, DEDUCED). -/
def execFunctionPaused (f : Nat) (s : State) : Host.Outcome State Fault Refusal :=
  let x := getFctl s f
  if x.state = 1 ∧ (x.tenant = 0 ∨ tenantSettled s x.tenant) then .next (setFctl s f { x with state := 2 }) else .next s

/-- FUNCTION_UNPAUSE (R358). -/
def execFunctionUnpause (f : Nat) (s : State) : Host.Outcome State Fault Refusal :=
  let x := getFctl s f
  .next (setFctl s f { x with pause := false, state := if x.state = 3 then 3 else 0 })

/-- Every context of a core but the firmware's. -/
def allSlots (k : Core) : List Nat := slotsOf k ++ [handlerCtx]

/-- A core's groups and handler context stop; frames are dropped; a REGROUP is abandoned (R359 step 2). -/
def stopCore (k : Core) : Core :=
  let k1 := dropFrames k (slotsOf k)
  let held := fun (g : Group) => { g with stop := Stop.held, frontier := [], running := none, rewait := [] }
  let k2 := updSlots k1 (allSlots k1) held
  { k2 with regroups := [], raised := [], curH := none, framesH := [], partsH := [], growq := [], csrPend := [] }

/-- Steps 1 to 3 of R359 for a tenant, without the queues: stopped, its operations cancelled, those of its saved blocks too. -/
def stopTenant (s : State) (t : Nat) : State :=
  (coresOf s t).foldl (fun s c =>
    let xs := allSlots (getCore s c)
    updCore (cancelAll (dropUnstarted s c xs) c xs) c stopCore)
  { s with copies := s.copies.map (fun q => if q.tenant = t then { q with cancel := true } else q) }

/-- Clusters of a tenant's pre-emptions in progress stop, and what they would have saved is undefined (R360). -/
def abortPreempts (s : State) (t : Nat) : State :=
  let mark := fun (q : PClus) => if q.fin then q else { q with choice := 3, saving := false }
  let areas := (s.preempts.filter (fun p => p.tenant == t)).flatMap (fun p =>
    (p.clusters.filter (fun q => !q.fin && decide (0 < max q.room q.bytes))).map (fun q => (p.sarea + q.base, max q.room q.bytes)))
  let s1 := areas.foldl (fun s a => hubWrite s a.1 (freeBytes s a.2)) s
  { s1 with preempts := s1.preempts.map (fun p => if p.tenant = t then { p with clusters := p.clusters.map mark } else p) }

def dropInline (s : State) (t : Nat) : State :=
  (queuesOf s t).foldl (fun s q => updQueue s q (fun x => { x with inline := none })) s

/-- FUNCTION_LEVEL_RESET (R359 steps 1 and 2, and what step 3 stops) (log 52, DEDUCED). -/
def execFunctionLevelReset (f : Nat) (s : State) : Host.Outcome State Fault Refusal :=
  let x := getFctl s f
  if x.flr then .next s
  else
    let s1 := setFctl s f { x with flr := true, state := 3 }
    if x.tenant = 0 then .next s1
    else .next (stepFree (stopTenant (failCkops (abortPreempts (dropInline s1 x.tenant) x.tenant) x.tenant [1, 2, 3, 4] (1 + freeNatAt s 23 0 0 0 % 5)) x.tenant))

/-- A core has nothing of a tenant outstanding. -/
def coreDrained (k : Core) : Bool :=
  k.groups.all (fun g => g.1 == firmwareCtx || (g.2.loads.isEmpty && g.2.storeq.isEmpty)) && k.flight.isEmpty && k.prefs.isEmpty

/-- No request of a tenant remains (R359 step 3). -/
def tenantDrained (s : State) (t : Nat) : Bool :=
  let cs := coresOf s t
  cs.all (fun c => coreDrained (getCore s c)) && s.copies.all (fun q => q.tenant != t || q.done.isSome) &&
  s.mxOps.all (fun o => o.members.all (fun m => !cs.contains m.core)) &&
  s.hub.links.all (fun l => l.tenant != t || !l.sent || l.done.isSome) && s.cedes.all (fun q => q.tenant != t) &&
  s.walks.all (fun w => w.2.all (fun w => w.tenant != t || w.done.isSome))

/-- Step 4 of R359 for a core: registers and contexts, t.handler. -/
def scrubCore (k : Core) : Core :=
  { k with groups := k.groups.filter (fun g => g.1 == firmwareCtx), alloc := [], blocks := [], tHandler := 0 }

/-- Steps 4 and 5 of R359. -/
def scrubTenant (s : State) (t : Nat) : State :=
  let cs := coresOf s t
  let banks := (s.bankTag.filter (fun q => q.2 == t)).map (·.1)
  let chunks := (s.chunkTag.filter (fun q => q.2 == t)).map (·.1)
  let s1 := banks.foldl (fun s b => zeroBanks s (b / 256) (b % 256) (b % 256 + 1)) s
  let s2 := cs.foldl (fun s c => noteVacated (updCore s c scrubCore) c) s1
  let untlb := fun (_ : Nat) (k : Core) => { k with tlb := k.tlb.filter (fun e => e.tenant != t) }
  let x := getTenant s2 t
  let s3 := setTenant s2 t { x with xlat := 0, noticeGroup := none, noticePa := none }
  { s3 with tables := s3.tables.filter (fun q => !cs.contains q.1), biases := s3.biases.filter (fun q => !cs.contains q.1),
            saved := s3.saved.filter (fun v => v.tenant != t), launches := s3.launches.filter (fun l => l.tenant != t),
            copies := s3.copies.filter (fun q => q.tenant != t), xlat := s3.xlat.filter (fun q => !chunks.contains (q.1 / 64)),
            cores := mmap {} untlb s3.cores,
            walks := (s3.walks.map (fun w => (w.1, w.2.filter (fun w => w.tenant != t)))).filter (fun w => !w.2.isEmpty) }

/-- Step 6 of R359. -/
def resetQueues (s : State) (t : Nat) : State :=
  (queuesOf s t).foldl (fun s q => setQueue s q { owner := t }) s

/-- FLR_DRAINED (R359 steps 4 to 7). -/
def execFlrDrained (f : Nat) (s : State) : Host.Outcome State Fault Refusal :=
  let x := getFctl s f
  if !x.flr then .next s
  else if x.tenant = 0 then .next (raiseMsi (setFctl (journalWrite s 7 0 0 0 0 0) f { x with flr := false, state := 0, pause := false }) 3)
  else if !tenantDrained s x.tenant then .next s
  else
    let s1 := journalWrite (resetQueues (scrubTenant s x.tenant) x.tenant) 7 0 x.tenant 0 0 0
    let s2 := setHub s1 (fun h => { h with
      links := h.links.filter (fun l => l.tenant != x.tenant), struck := h.struck.filter (· != x.tenant) })
    .next (raiseMsi (setFctl s2 f { x with flr := false, state := 0, pause := false }) 3)

end Sys2Proof.Machine
end

