-- ==== Sys2Proof/Machine/Manage.lean ====
section
/-! DEFINITION. The management controller: commands (R411 to R413, R417, R418), sensors, limits and throttling (R414,
R415), and requests for a start (R388). -/

namespace Sys2Proof.Machine
open Sys2Proof

/-! ### Commands (R412) -/

/-- A command is dropped while another runs; else it runs, and its code is kept for its end. -/
def command (s : State) (op : Nat) (run : State → Nat × State) : State :=
  if s.mgmt.cmd.isSome then setMgmt s (fun m => { m with drop := Nat.min (m.drop + 1) 16383 })
  else
    let r := run s
    setMgmt r.2 (fun m => { m with cmd := some ⟨op, r.1⟩ })

/-- A buffer of n bytes: 64-byte aligned, in tag-0 DRAM. -/
def bufferOk (s : State) (a n : Nat) : Bool := decide (a % 64 = 0) && systemBytes s a (Nat.max n 1)

def duringStart (s : State) : Bool := s.hub.starting.isSome

/-- The 32 bytes at an index of the event log; zero where nothing has been written (R416). -/
def logBytes (s : State) (i : Nat) : List Byte := padTo 32 (mget [] s.mgmt.log (i % 32768))

/-- LOGRD (R413, R416). -/
def runLogrd (buf first count : Nat) (s : State) : Nat × State :=
  if count = 0 ∨ 1024 < count ∨ bufferOk s buf (32 * count) = false then (1, s)
  else (0, hubWrite s buf ((List.range count).flatMap (fun i => logBytes s (first + i))))
def execMgLogrd (buf first count : Nat) (s : State) : Host.Outcome State Fault Refusal := .next (command s 1 (runLogrd buf first count))

/-- An image verifies (R417): 64 bytes of header, the body, and 2,820 bytes of signature; the header's magic, length and digest of
the body, and the vendor's signature over the header. Where the fields stand in the header is not in the manual (log 102,
DEDUCED). -/
def imageOk (img : List Byte) : Bool :=
  let h := Config.imageHeader img
  let n := img.length - 64 - 2820
  decide (64 + 2820 ≤ img.length) && h.magic == 0x5A464957 && h.bodyLength == n &&
    h.digest == Config.digest ((img.drop 64).take n) && Config.signatureValid (img.take 64) (img.drop (64 + n))

/-- STAGE (R413, R417): the slot that is not active takes a verified image. A buffer that an error has struck does not verify. -/
def runStage (buf len : Nat) (s : State) : Nat × State :=
  if duringStart s then (4, s)
  else if bufferOk s buf len = false then (1, s)
  else
    let img := readBytes s.mem buf len
    let v := (Config.imageHeader img).version
    if poisonedIn s buf len then (2, reportPoison s buf 0 0)
    else if !imageOk img then (2, s)
    else if v.toNat < Config.minVersion.toNat then (3, s)
    else (0, logEvent (setMgmt s (fun m =>
      if m.act then { m with fwA := v, okA := true, imageA := img } else { m with fwB := v, okB := true, imageB := img })) 5 none)
def execMgStage (buf len : Nat) (s : State) : Host.Outcome State Fault Refusal := .next (command s 2 (runStage buf len))

/-- ACTIVATE (R413). -/
def runActivate (s : State) : Nat × State :=
  if duringStart s then (4, s)
  else if (if s.mgmt.act then s.mgmt.okA else s.mgmt.okB) then
    (0, logEvent (setMgmt s (fun m => { m with next := !m.act, fresh := true })) 5 none)
  else (1, s)
def execMgActivate (s : State) : Host.Outcome State Fault Refusal := .next (command s 3 runActivate)

/-- MCFG (R411). -/
def mcfgWord (m : Mgmt) : Word :=
  BitVec.ofNat 32 ((if m.ep then 2 ^ 31 else 0) + (if m.act then 2 ^ 30 else 0) + (if m.next then 2 ^ 29 else 0) + m.modid % 1024)

/-- ATTEST (R413, R418): the next index is used up before the signature is released. -/
def runAttest (buf : Nat) (nonce : List Byte) (s : State) : Nat × State :=
  let m := s.mgmt
  let report := Config.attestReport nonce m.modid Config.stepping [m.fwA, m.fwB, mcfgWord m] m.measure (1048576 - m.xleft)
  if m.xleft = 0 then (5, s)
  else if bufferOk s buf report.length = false then (1, s)
  else (0, logEvent (setMgmt (hubWrite s buf report) (fun m => { m with xleft := m.xleft - 1 })) 7 none)
def execMgAttest (buf : Nat) (nonce : List Byte) (s : State) : Host.Outcome State Fault Refusal := .next (command s 4 (runAttest buf nonce))

/-- START (R413, R388). -/
def execMgStart (cold : Bool) (s : State) : Host.Outcome State Fault Refusal := .next (command s 5 (fun s => (0, requestStart s cold)))

/-- CONFIG (R413). -/
def runConfig (modid : Nat) (ep : Bool) (s : State) : Nat × State :=
  if duringStart s then (4, s)
  else if 575 < modid then (1, s)
  else (0, setMgmt s (fun m => { m with nextModid := modid, nextEp := ep }))
def execMgConfig (modid : Nat) (ep : Bool) (s : State) : Host.Outcome State Fault Refusal := .next (command s 6 (runConfig modid ep))

/-! ### Limits (R415) -/

/-- Limits of sensor i: 0 to 63 thermal, in 1/16 °C; 64 to 87 rails, in 10 mA. -/
def criticalOf (i : Nat) : Int := if i < 64 then 1760 else (Config.railCritical (i - 64) : Int)

/-- A limit as software gives it. -/
def limitValue (i : Nat) (v : Word) : Int := if i < 64 then v.toInt else (v.toNat : Int)

def warningOf (m : Mgmt) (i : Nat) : Int :=
  match mget none m.warn i with
  | some v => limitValue i v
  | none => if i < 64 then 1520 else (Config.railWarning (i - 64) : Int)

/-- LIMIT (R413, R415). -/
def runLimit (sensor : Nat) (value : Word) (s : State) : Nat × State :=
  if 87 < sensor ∨ criticalOf sensor ≤ limitValue sensor value then (1, s)
  else (0, setMgmt s (fun m => { m with warn := mset none m.warn sensor (some value) }))
def execMgLimit (sensor : Nat) (value : Word) (s : State) : Host.Outcome State Fault Refusal := .next (command s 7 (runLimit sensor value))

/-- MCMD_INVALID (R413). -/
def execMcmdInvalid (op : Nat) (s : State) : Host.Outcome State Fault Refusal := .next (command s op (fun s => (1, s)))

/-- MGMT_COMMAND_DONE (R412). -/
def execMgmtCommandDone (s : State) : Host.Outcome State Fault Refusal :=
  match s.mgmt.cmd with
  | none => .next s
  | some c => .next (raiseMsi (setMgmt s (fun m => { m with cmd := none, err := c.code != 0, last := c.op, code := c.code })) 6)

/-! ### Sensors (R414, R415) -/

/-- The reading of sensor i: thermal, or a rail's current. -/
def reading (thermal : List Word) (rails : List (Word × Word)) (i : Nat) : Int :=
  if i < 64 then (thermal.getD i 0).toInt else ((rails.getD (i - 64) (0, 0)).2.toNat : Int)

/-- The die of sensor i: 0 to 3, or 4 for the hub die. -/
def sensorDie (i : Nat) : Nat := if i < 64 then Nat.min (i / 12) 4 else Nat.min (Config.railDie (i - 64)) 4

/-- A sensor that no longer holds its die back: 2.0 °C, or 5 %, below its warning limit. -/
def released (m : Mgmt) (i : Nat) (v : Int) : Bool :=
  if i < 64 then decide (v ≤ warningOf m i - 32) else decide (100 * v ≤ 95 * warningOf m i)

def sensorsOf (d : Nat) : List Nat := (List.range 88).filter (fun i => sensorDie i == d)

/-- Whether a die's sensors withhold issue cycles after a sample. -/
def holdsBack (m : Mgmt) (was : Bool) (read : Nat → Int) (d : Nat) : Bool :=
  (sensorsOf d).any (fun i => decide (warningOf m i < read i)) || (was && !(sensorsOf d).all (fun i => released m i (read i)))

/-- Voltage x current summed over the rails, in 10 µW. -/
def railPower (rails : List (Word × Word)) : Nat := (rails.map (fun r => r.1.toNat * r.2.toNat)).foldl (· + ·) 0

/-- The summed power, averaged over the samples of 10 ms, exceeds 3,600 W. -/
def overPower (m : Mgmt) : Bool := decide (360000000 * m.powers.length < m.powers.foldl (· + ·) 0)

/-- Whether a compute die withholds issue cycles (R12, R415). -/
def throttled (s : State) (d : Nat) : Bool :=
  s.hub.throttle.getD d false || s.hub.throttle.getD 4 false || overPower s.mgmt

/-- Records of kind 1: crossings into and out of a warning condition, and critical crossings (log 56, DEDUCED). -/
def crossings (s : State) (n : Nat) : State := (List.range n).foldl (fun s _ => logEvent s 1 none) s

/-- SENSOR_SAMPLE (R414, R415). -/
def execSensorSample (thermal : List Word) (rails : List (Word × Word)) (s : State) : Host.Outcome State Fault Refusal :=
  let m := s.mgmt
  let now' := reading thermal rails
  let old := reading m.thermal m.rails
  let warm := (List.range 88).filter (fun i => decide (warningOf m i < now' i))
  let changed := (List.range 88).filter (fun i => warm.contains i != m.warned.contains i)
  let critical := (List.range 88).filter (fun i => decide (criticalOf i < now' i))
  let crossed := (List.range 88).filter (fun i =>
    critical.contains i != (decide (m.sample ≠ 0) && decide (criticalOf i < old i)))
  let powers := (m.powers ++ [railPower rails]).drop (m.powers.length + 1 - 10)
  let soft := (List.range 16).foldl (fun t i => mset 0 t i (min (mget 0 s.corrected (i / 4 * 8 + i % 4)) (2 ^ 32 - 1))) []
  let s1 := setMgmt s (fun m => { m with
    thermal := thermal, rails := rails, soft := soft, sample := m.sample + 1, powers := powers, warned := warm })
  let s2 := crossings s1 (changed.length + crossed.length)
  let flags := (List.range 5).map (fun d => holdsBack m (s.hub.throttle.getD d false) now' d)
  .next (setHub s2 (fun h => { h with throttle := flags, held := h.held || !critical.isEmpty }))

end Sys2Proof.Machine
end

