-- ==== Sys2Proof/Machine/Start.lean ====
section
/-! DEFINITION. Starts (R386 to R388, R393, R417, R418), the watchdog (R389), the hub's clock, and which agents move
while the module is held in reset or starting. -/

namespace Sys2Proof.Machine
open Sys2Proof

/-! ### The watchdog (R389) -/

def wdEn (w : Word) : Bool := w.getLsbD 31
def wdPeriod (w : Word) : Nat := (w.extractLsb' 0 16).toNat
/-- Hub cycles in a millisecond. -/
def hubMs : Nat := 1200000

/-- WDLEFT has reached 0: the watchdog is served no more (R389). -/
def wdOver (s : State) : Bool := wdEn s.hub.wdctl && s.hub.wdleft == 0

/-- WATCHDOG_CONTROL: a write to WDCTL. -/
def execWatchdogControl (v : Word) (s : State) : Host.Outcome State Fault Refusal :=
  if wdPeriod v = 0 || wdOver s then .next s
  else .next (setHub s (fun h => { h with
    wdctl := v &&& 0x8000FFFF, wdphase := 0, wdleft := if wdEn v then BitVec.ofNat 32 (wdPeriod v) else 0 }))

/-- WATCHDOG_KICK: a write to WDKICK. -/
def execWatchdogKick (v : Word) (s : State) : Host.Outcome State Fault Refusal :=
  if v = 0xA5C3 ∧ wdEn s.hub.wdctl = true ∧ wdOver s = false then
    .next (setHub s (fun h => { h with wdleft := BitVec.ofNat 32 (wdPeriod h.wdctl), wdphase := 0 }))
  else .next s

/-- WATCHDOG_EXPIRE: WDLEFT has reached 0. -/
def execWatchdogExpire (s : State) : Host.Outcome State Fault Refusal :=
  if wdEn s.hub.wdctl = true ∧ s.hub.wdleft = 0 then
    .next (requestStart (logEvent (setHub s (fun h => { h with wdctl := h.wdctl &&& 0xFFFF })) 2 (some 1)) false)
  else .next s

/-- n cycles of the hub clock pass: its counter, and WDLEFT once per millisecond. -/
def elapseHubBy (s : State) (n : Nat) : State :=
  setHub s (fun h =>
    let p := h.wdphase + n
    if wdEn h.wdctl then
      { h with cycle := h.cycle + n, wdphase := p % hubMs, wdleft := BitVec.ofNat 32 (h.wdleft.toNat - p / hubMs) }
    else { h with cycle := h.cycle + n })

/-! ### Recovering the journal (R393) -/

/-- JSEQ of a valid entry at an index. -/
def entryValid (i : Nat) (bs : List Byte) : Option Nat :=
  let j := bytesToNat (bs.take 4)
  if bs.length = 32 ∧ j % 65536 = i ∧ withCrc (bs.take 28) = bs then some j else none

/-- One more than the highest j among valid entries. -/
def recoveredHead (m : SMap (List Byte)) : Word :=
  BitVec.ofNat 32 ((m.filterMap (fun q => entryValid q.1 q.2)).foldl (fun n j => Nat.max n (j + 1)) 0)

/-! ### Measurements and slots (R417, R418) -/

/-- The image of slot NEXT. -/
def nextImage (m : Mgmt) : List Byte := if m.next then m.imageB else m.imageA

/-- Step 7 of a start: the eight measurements, of the components that the image loads. -/
def measured (img : List Byte) : List (List Byte) := (List.range 8).map (fun i => Config.digest (Config.component img i))

/-- The step at which a start fails: where it gets to step 7, slot NEXT must hold a verified image (R417). -/
def failsAt (s : State) (failStep : Nat) : Nat :=
  if (failStep = 0 ∨ 7 < failStep) ∧ (if s.mgmt.next then s.mgmt.okB else s.mgmt.okA) = false then 7 else failStep

/-- A start that completes: slot NEXT is active; the log holds its result. -/
def startDone (s : State) (cold : Bool) : State :=
  let s1 := setMgmt s (fun m => { m with act := m.next, fresh := false, measure := measured (nextImage m) })
  let s2 := if cold then setMgmt s1 (fun m => { m with ep := m.nextEp, modid := m.nextModid, warn := [], cmd := none, err := false, drop := 0, last := 0, code := 0 }) else s1
  logEvent s2 2 none

/-- A start that fails at a step: the step is logged, a newly activated slot is given up after step 6 or 7, and the
module stays in reset. One that has got past step 7 has measured what it loaded (R418). -/
def startFailed (s : State) (step : Nat) (cold : Bool) : State :=
  let s0 := if 7 < step then setMgmt s (fun m => { m with measure := measured (nextImage m) }) else s
  let s1 := logEvent s0 3 (some step)
  let s2 := if (step = 6 ∨ step = 7) ∧ s1.mgmt.fresh = true then setMgmt s1 (fun m => { m with next := !m.next, fresh := false }) else s1
  setHub s2 (fun h => { h with
    starting := none, held := true, wdctl := 0x3E8, wdleft := 0, failedWarm := if cold then h.failedWarm else h.failedWarm + 1 })

/-- The start record (R393). -/
def startRecord (s : State) (cold : Bool) (lostDies : BitVec 4) : State :=
  let s1 := journalWrite s 8 0 0 0 0 (BitVec.ofNat 32 ((if cold then 2 ^ 31 else 0) + lostDies.toNat))
  setHub s1 (fun h => { h with jstart := s.hub.jhead, jstarts := if cold then 1 else s.hub.jstarts + 1 })

/-- The units leave reset one by one in the course of a start, each at a moment of its own, and their counters start from zero
then (R10): what each has counted when the start ends. -/
def unitsLeave (s : State) : SMap Nat :=
  ((List.range 1002).map (fun u => (u, freeNatAt s 17 0 (u / 64) (u % 64)))).filter (fun q => q.2 != 0)

/-! ### Cold start (R386, R387) -/

/-- The hub of a started module: every register at its reset value. Messages sent stay sent; the buddy keeps what was
committed and discards what was staged (R403). -/
def freshHub (h : Hub) : Hub :=
  { msiSent := h.msiSent, throttle := h.throttle,
    images := mmap {} (fun _ (g : Image) => { g with staged := [] }) h.images }

/-- POWER_ON. -/
def execPowerOn (s : State) : Host.Outcome State Fault Refusal := .next (setHub s (fun h => { h with starting := some true, held := true }))

/-- COLD_START: nothing is left but the management controller's flash and sensors. -/
def execColdStart (failStep0 : Nat) (s : State) : Host.Outcome State Fault Refusal :=
  let failStep := failsAt s failStep0
  if s.hub.starting ≠ some true then .next s
  else if failStep = 0 then
    let s1 : State := { State.reset with agenda := s.agenda, cur := s.cur, free := s.free, serial := s.serial, ahead := unitsLeave s, mgmt := s.mgmt, hub := freshHub s.hub }
    .next (startRecord (startDone s1 true) true 0)
  else
    let s1 := if 4 < failStep then { s with mem := [], dram := [], poison := [], l2 := [] } else s
    let s2 := if 8 < failStep then setHub s1 (fun h => { h with journal := [], jhead := 0 }) else s1
    .next (startFailed s2 failStep true)

/-! ### Warm start (R386, R387) -/

/-- Step 2: dirty bytes of a die that does not respond are lost; all others are in DRAM. -/
def loseDirty (s : State) (dead : BitVec 4) : State :=
  let gone := s.l2.filter (fun q => dead.getLsbD (homeDie (q.line * 256)))
  let s1 := gone.foldl l2Drop s
  { s1 with l2 := [], dram := [] }

/-- Dies that lose dirty bytes. -/
def lostMask (s : State) (dead : BitVec 4) : BitVec 4 :=
  dead &&& (s.l2.filter (fun q => q.dirty != 0)).foldl (fun m q => m ||| (1#4 <<< homeDie (q.line * 256))) 0

/-- What a tenant keeps: its descriptor, and its numbers of notices and losses. -/
def warmTenant (q : Tenant) : Tenant :=
  { lvec := q.lvec, lbase := q.lbase, lsize := q.lsize, lcur := q.lcur, bud := q.bud, nseq := q.nseq, seized := q.seized, lossN := q.lossN }

/-- What a queue slot keeps: QCFG, RBASE, RIDXA. -/
def warmQueue (q : QSlot) : QSlot := { owner := q.owner, logn := q.logn, logs := q.logs, rbase := q.rbase, ridxa := q.ridxa }

/-- The image region of a receiver whose commit a warm start of this module has cut short is undefined (R405). -/
def spoilImages (s : State) : State :=
  s.hub.receivers.foldl (fun s q =>
    if q.2.applying.isSome then hubWrite s q.2.ibase (freeBytes s (65536 * q.2.isize)) else s) s

/-- The state that a warm start keeps (log 57, DEDUCED). What the skidder had fenced has its tenant's tag, which still stands. -/
def warmKept (s : State) (dead : BitVec 4) : State :=
  let s1 := loseDirty (spoilImages s) dead
  let inval := fun (_ : Nat) (e : XEntry) => { e with v := false }
  { State.reset with
    agenda := s.agenda, cur := s.cur, free := s.free, serial := s.serial, ahead := unitsLeave s,
    mem := s1.mem, poison := s1.poison, corrected := s1.corrected, wrote := s1.wrote,
    frameTag := s1.frameTag, bankTag := s1.bankTag, chunkTag := s1.chunkTag, laneTag := s1.laneTag,
    xlat := mmap {} inval s1.xlat,
    cores := mmap {} (fun _ (k : Core) => { fTenant := k.fTenant : Core }) s1.cores,
    tenants := mmap {} (fun _ q => warmTenant q) s1.tenants,
    queues := mmap {} (fun _ q => warmQueue q) s1.queues,
    codeTable := s1.codeTable, mgmt := s1.mgmt,
    hub := { freshHub s1.hub with
      journal := s1.hub.journal, jhead := recoveredHead s1.hub.journal, jstarts := s1.hub.jstarts, rot := s1.hub.rot,
      retries := s1.hub.retries, removed := s1.hub.removed } }

/-- WARM_START. -/
def execWarmStart (failStep0 : Nat) (deadDies : BitVec 4) (s : State) : Host.Outcome State Fault Refusal :=
  let failStep := failsAt s failStep0
  if s.hub.starting ≠ some false then .next s
  else if failStep = 0 then
    .next (startRecord (startDone (warmKept s deadDies) false) false (lostMask s deadDies))
  else
    let s1 := if 2 < failStep then loseDirty s deadDies else s
    .next (startFailed s1 failStep false)

/-! ### Who moves -/

/-- Whether the module is up (log 69, DEDUCED). -/
def moduleUp (s : State) : Bool := s.hub.starting.isNone && !s.hub.held

/-- Events of the management controller and of power, which go on while the module is not up. -/
def runsAlways (i : Instr) : Bool :=
  match i with
  | .powerOn => true
  | .coldStart _ => true
  | .warmStart _ _ => true
  | .mgLogrd _ _ _ => true
  | .mgStage _ _ => true
  | .mgActivate => true
  | .mgAttest _ _ => true
  | .mgStart _ => true
  | .mgConfig _ _ => true
  | .mgLimit _ _ => true
  | .mcmdInvalid _ => true
  | .mgmtCommandDone => true
  | .sensorSample _ _ => true
  | _ => false

end Sys2Proof.Machine
end

