-- ==== Sys2Proof/Machine/Checkpoint.lean ====
section
/-! DEFINITION. Dirty trackers (R398 to R400), the checkpoint engine (R401, R402, R406, R407, R410), receivers and
images (R403 to R405). -/

namespace Sys2Proof.Machine
open Sys2Proof

/-! ### Trackers -/

def getTracker (s : State) (k : Nat) : Tracker := mget {} s.hub.trackers k
def setTracker (s : State) (k : Nat) (x : Tracker) : State := setHub s (fun h => { h with trackers := mset {} h.trackers k x })

/-- Bytes of a tracker's buffer: 768 KiB. -/
def bufferLen : Nat := 786432

/-- Listed bytes of a region, by offset. -/
def regionCells (s : State) (a n : Nat) : List Host.Cell :=
  (s.mem.filter (fun q => decide (a ≤ q.1) && decide (q.1 < a + n))).map (fun q => (q.1 - a, q.2))

/-- The hub ORs a buffer into ROLL. -/
def orInto (s : State) (src dst : Nat) : State :=
  (regionCells s src bufferLen).foldl (fun s q => hubWrite s (dst + q.1) [readByte s.mem (dst + q.1) ||| q.2]) s

/-- A swap (R400): all four dies record into the other buffer, the one just left goes into ROLL. -/
def swap (s : State) (k : Nat) : State :=
  let t := getTracker s k
  let s1 := setTracker s k { t with cur := !t.cur, swapSeq := t.swapSeq + 1 }
  orInto s1 (if t.cur then t.buf1 else t.buf0) t.roll

/-- DIRTY_SWAP. -/
def execDirtySwap (k : Nat) (s : State) : Host.Outcome State Fault Refusal := .next (swap s k)

/-- Frame of a bit number (R399). -/
def frameOfBit (b : Nat) : Nat := b / 1572864 * 2097152 + b % 1572864

/-- Frames whose bit is set in a buffer, in ascending order. -/
def framesIn (s : State) (buf : Nat) : List Nat :=
  (regionCells s buf bufferLen).flatMap (fun q =>
    ((List.range 8).filter (fun i => q.2.getLsbD i)).map (fun i => frameOfBit (q.1 * 8 + i)))

/-- The buffer that is not current. -/
def leftBuffer (t : Tracker) : Nat := if t.cur then t.buf0 else t.buf1

/-! ### Operations (R401) -/

def getImage (s : State) (t : Nat) : Image := mget {} s.hub.images t
def setImage (s : State) (t : Nat) (x : Image) : State := setHub s (fun h => { h with images := mset {} h.images t x })

/-- A status record. -/
def ckRecord (s : State) (status : Nat) (reason frames bytes : Nat) : State :=
  let w0 := 2 ^ 31 + (if reason = 0 then 0 else 2 ^ 30) + reason
  raiseMsi (hubWrite s status (natToBytes 4 w0 ++ natToBytes 4 frames ++ natToBytes 8 bytes)) 7

/-- The reason for which a command of OP 1 to 4 is refused; 0 where it is not. -/
def refusal (s : State) (op : Nat) (c : CkCmd) : Nat :=
  let t := getTracker s c.tracker
  let q := getQp s c.qp
  if !t.en || q.state != 1 || q.tenant != t.tenant || !statusOk s c.status (if op = 4 then 272 else 16) then 5
  else if s.hub.ckops.any (fun o => o.tracker == c.tracker) then 3
  else if op = 2 ∧ s.preempts.any (fun p => p.tenant == t.tenant) = true then 3
  else 0

/-- An operation is refused, or begins as `start` says. -/
def operation (s : State) (op : Nat) (c : CkCmd) (start : State → Nat → CkOp → State) : State :=
  let r := refusal s op c
  let t := (getTracker s c.tracker).tenant
  if r = 0 then
    start { s with serial := s.serial + 1 } t { id := s.serial, op := op, tracker := c.tracker, qp := c.qp, status := c.status, tenant := t }
  else if statusOk s c.status 16 then ckRecord s c.status r 0 0
  else raiseMsi s 7

def addOp (s : State) (o : CkOp) : State := setHub s (fun h => { h with ckops := h.ckops ++ [o] })

/-- Bytes of the record of a frame. -/
def frameRecord : Nat := 65552

/-- Every frame of the tenant that the buffer just left names is read at its home; a poisoned sector stops the operation and is
reported, one in the buffer itself is logged (R396, R397, R401, R410). -/
def sendFrames (s : State) (t : Nat) (o : CkOp) : State × CkOp :=
  let buf := leftBuffer (getTracker s o.tracker)
  let fs := (framesIn s buf).filter (fun f => frameTagOf s f == t)
  let im := getImage s t
  let send := fun (s : State) (staged : List (Nat × List Host.Cell)) (why : Option Nat) =>
    (setImage s t { im with staged := staged }, { o with frames := fs.length, bytes := fs.length * frameRecord, reason := why })
  if poisonedIn s buf bufferLen then send (logEvent s 4 none) [] (some 1)
  else match fs.find? (fun f => poisonedIn s (f * 65536) 65536) with
    | some f => send (reportPoison s (f * 65536) 0 0) [] (some 1)
    | none => send s (im.staged ++ fs.map (fun f => (f, regionCells s (f * 65536) 65536))) o.reason

/-- ROUND (R401). -/
def execCkRound (cmd : CkCmd) (s : State) : Host.Outcome State Fault Refusal :=
  .next (operation s 1 cmd (fun s t o =>
    let r := sendFrames (swap s o.tracker) t o
    addOp r.1 r.2))

/-- Every block of a tenant's cores is held, or goes on. -/
def holdTenant (s : State) (t : Nat) : State := (coresOf s t).foldl holdCore s
def releaseTenant (s : State) (t : Nat) : State := (coresOf s t).foldl releaseCore s

/-- FINAL, steps 1 and 2 (R402). -/
def execCkFinal (cmd : CkCmd) (s : State) : Host.Outcome State Fault Refusal :=
  .next (operation s 2 cmd (fun s t o => addOp (holdTenant s t) o))

/-- ABORT (R401, R403). -/
def execCkAbort (cmd : CkCmd) (s : State) : Host.Outcome State Fault Refusal :=
  .next (operation s 3 cmd (fun s t o => addOp (setImage s t { getImage s t with staged := [] }) o))

/-- A tenant's function shows that it is being stopped, or runs again; the reset of a function stands (R359, R406). -/
def setRollback (s : State) (t : Nat) (on : Bool) : State :=
  setHub s (fun h => { h with fctl := h.fctl.map (fun q =>
    if q.2.tenant = t ∧ t ≠ 0 ∧ q.2.flr = false then
      (q.1, { q.2 with state := if on then 3 else if q.2.pause then 1 else 0 }) else q) })

/-- ROLLBACK, step 1 (R406): the tenant stops, as by steps 1 to 3 of R359; refused, with reason 3, where it no longer holds a core, a
bank, a chunk or a queue slot that it held at the commit (R407). A frame that it no longer holds is skipped instead (R406,
R410). -/
def execCkRollback (cmd : CkCmd) (s : State) : Host.Outcome State Fault Refusal :=
  .next (operation s 4 cmd (fun s t o =>
    if (getImage s t).holds.all (fun q => heldBy s t q.1 q.2) then addOp (setRollback (stopTenant (dropInline s t) t) t true) o
    else ckRecord s o.status 3 0 0))

/-- CKCMD_INVALID (R401). -/
def execCkcmdInvalid (_op : Nat) (cmd : CkCmd) (s : State) : Host.Outcome State Fault Refusal :=
  .next (raiseMsi (if statusOk s cmd.status 4 then hubWriteN s cmd.status 4 0xFFFFFFFF else s) 7)

/-! ### Ends of operations -/

/-- A tenant's blocks are drained, its copies and link requests have completed, and its stores are acknowledged, those of released
groups too (R402 step 3). -/
def finalDrained (s : State) (t : Nat) : Bool :=
  (coresOf s t).all (fun c => (residentBlocks (getCore s c)).all (fun b => blockDone s c b.1) && (getCore s c).flight.isEmpty) &&
  s.copies.all (fun q => q.tenant != t) && s.hub.links.all (fun l => l.tenant != t)

/-- A context that stands in memory, as it is sent. -/
def sentContext (s : State) (v : Saved) : Saved := if v.inMemory then { readContext s.mem v with inMemory := false } else v

/-- The contexts of a tenant, and the bytes they take. -/
def tenantContexts (s : State) (t : Nat) : List Saved × Nat :=
  let vs := (coresOf s t).flatMap (fun c => (coreContexts s c 0).1) ++
    (s.saved.filter (fun v => v.tenant == t)).map (sentContext s)
  (vs, (vs.map contextSize).foldl (· + ·) 0)

/-- Later copies of a frame replace earlier ones. -/
def mergeFrames (old new : List (Nat × List Host.Cell)) : List (Nat × List Host.Cell) :=
  new.foldl (fun fs q => fs.filter (fun p => p.1 != q.1) ++ [q]) old

/-- Zeroes ROLL. -/
def clearRoll (s : State) (k : Nat) : State :=
  let a := (getTracker s k).roll
  (regionCells s a bufferLen).foldl (fun s q => hubWrite s (a + q.1) [0]) s

/-- Cores, banks, chunks and queue slots of a tenant (R407). -/
def holdings (s : State) (t : Nat) : List (Nat × Nat) :=
  let of := fun (kind : Nat) (m : SMap Nat) => (m.filter (fun q => q.2 == t)).map (fun q => (kind, q.1))
  (coresOf s t).map (fun c => (0, c)) ++ of 1 s.bankTag ++ of 3 s.chunkTag ++ (queuesOf s t).map (fun q => (5, q))

/-- What an operation that ends so reports as sent: what it was to send, or, where it has failed, part of it (log 58, DESIGN
CHOICE). -/
def ckEnd (s : State) (status why frames bytes : Nat) : State :=
  if why = 0 then ckRecord s status 0 frames bytes
  else ckRecord (stepFree s) status why (freeNatAt s 26 0 0 0 % (frames + 1)) (freeNatAt s 26 0 0 1 % (bytes + 1))

/-- The link that carries an operation has failed: its queue pair has left READY (R401, R364). -/
def ckLink (s : State) (o : CkOp) (why : Nat) : Nat := if why = 0 ∧ (getQp s o.qp).state ≠ 1 then 2 else why

/-- FINAL, steps 4 to 7 (R402): what was sent is committed, or not (log 58, DEDUCED). -/
def finishFinal (s : State) (o : CkOp) (reason : Nat) : State :=
  let t := o.tenant
  let r := if o.reason.isSome then (s, o) else sendFrames (swap s o.tracker) t o
  let s1 := r.1
  let why := ckLink s o (r.2.reason.getD reason)
  let cs := tenantContexts s1 t
  let qs := (queuesOf s1 t).map (fun q => (q, landedBytes s1 5 q))
  let im := getImage s1 t
  let s2 := if why = 0 then
      clearRoll (setImage s1 t { staged := [], valid := true, frames := mergeFrames im.frames im.staged, contexts := cs.1, launches := s1.launches.filter (fun l => l.tenant == t), ridx := (List.range 64).map (fun q => (getQueue s1 q).r), queues := qs, holds := holdings s1 t }) o.tracker
    else setImage s1 t { im with staged := [] }
  let extra := cs.2 + 16 * cs.1.length + 80 * qs.length
  releaseTenant (ckEnd s2 o.status why r.2.frames (r.2.bytes + extra)) t

/-- A frame of the image over the tenant's frame, whole (R406, R260). -/
def restoreFrame (s : State) (q : Nat × List Host.Cell) : State := hubWrite s (q.1 * 65536) (readBytes q.2 0 65536)

/-- A tenant's blocks are gone, unscrubbed; its launches are those of the commit. -/
def dropBlocks (s : State) (t : Nat) : State :=
  let cs := coresOf s t
  let clear := fun (k : Core) =>
    { k with groups := k.groups.filter (fun g => g.1 == firmwareCtx), alloc := [], blocks := [] }
  cs.foldl (fun s c => noteVacated (updCore s c clear) c) s

/-- Launches accepted after the commit are journaled as failed with code 11. -/
def failLaunches (s : State) (ls : List Launch) : State :=
  ls.foldl (fun s l => journalWrite s 4 l.qslot l.tenant l.pos 11 0) s

def stopQueue (q : QSlot) : QSlot := { q with en := false, state := 0, claimed := [], blocked := [] }

/-! ### Receivers and images (R403 to R405) -/

def getRecv (s : State) (k : Nat) : Receiver := mget {} s.hub.receivers k
def setRecv (s : State) (k : Nat) (x : Receiver) : State := setHub s (fun h => { h with receivers := mset {} h.receivers k x })

/-- Staging and image of a receiver, as (first byte, bytes). -/
def regionsOf (r : Receiver) : List (Nat × Nat) := [(r.sbase, 65536 * r.ssize), (r.ibase, 65536 * r.isize)]

def apart (p q : Nat × Nat) : Bool := !runsMeet p.1 p.2 q.1 q.2

/-- Frames of the directory, and data slots, of an image region. -/
def dirFrames (r : Receiver) : Nat := (r.isize - r.csize + 8192) / 8193
def dirSlots (r : Receiver) : Nat := r.isize - r.csize - dirFrames r

/-- A directory entry: its frame number where it is valid. -/
def dirEntry (s : State) (r : Receiver) (d : Nat) : Option Nat :=
  let w := readLE s.mem (r.ibase + 8 * d) 8
  if w.testBit 63 then some (w % 2 ^ 36) else none

/-! ### Rolling back (R406 to R408) -/

/-- Where the context area of a receiver begins (R405). -/
def contextBase (r : Receiver) : Nat := r.ibase + 65536 * (r.isize - r.csize)

/-- The receiver of this module that holds the committed image of a tenant, if one does (R405, R408). -/
def localImage (s : State) (t : Nat) : Option Receiver :=
  (s.hub.receivers.find? (fun q => q.2.ilast != 0 && readLE s.mem (contextBase q.2) 4 == t)).map (·.2)

/-- The frames of an image, read through its directory (R405). -/
def directoryFrames (s : State) (r : Receiver) : List (Nat × List Host.Cell) :=
  (List.range (dirSlots r)).filterMap (fun d =>
    (dirEntry s r d).map (fun f => (f, regionCells s (r.ibase + 65536 * (dirFrames r + d)) 65536)))

/-- The contexts of an image, as their bytes in the context area give them from an address on (R405, R356). -/
def areaContexts (s : State) : Nat → List Saved → List Saved
  | _, [] => []
  | a, v :: vs => { readContext s.mem { v with addr := a, inMemory := true } with inMemory := false } ::
      areaContexts s (a + contextSize v) vs

/-- What a rollback fetches: from the image at the buddy, or, where a receiver of this module holds it, from that (R406, R408). -/
def fetched (s : State) (t : Nat) : List (Nat × List Host.Cell) × List Saved :=
  let im := getImage s t
  match localImage s t with
  | none => (im.frames, im.contexts)
  | some r => (directoryFrames s r, areaContexts s (contextBase r + 256) im.contexts)

/-- A launch of the commit as it goes on: what the journal holds of it already it does not hold again (R394). -/
def resumedLaunch (s : State) (l : Launch) : Launch :=
  match findLaunch s l.id with
  | some m => { l with started := l.started || m.started }
  | none => { l with started := true, inJournal := true }

/-- ROLLBACK, steps 2 to 4 (R406). -/
def finishRollback (s0 : State) (o : CkOp) (reason : Nat) : State :=
  let t := o.tenant
  let s := setRollback s0 t false
  let im := getImage s t
  let k := getTracker s o.tracker
  let why := if im.valid then ckLink s o (o.reason.getD reason) else 5
  if why ≠ 0 then ckEnd s o.status why 0 0
  else
    let image := fetched s t
    let dirty := framesIn s k.roll ++ framesIn s k.buf0 ++ framesIn s k.buf1
    let back := image.1.filter (fun q => dirty.contains q.1 && frameTagOf s q.1 == t)
    let later := s.launches.filter (fun l => l.tenant == t && !im.launches.any (fun m => m.id == l.id))
    let s1 := dropBlocks (failLaunches (back.foldl restoreFrame s) later) t
    let s2 : State := { s1 with
      launches := s1.launches.filter (fun l => l.tenant != t) ++ im.launches.map (resumedLaunch s),
      saved := s1.saved.filter (fun v => v.tenant != t) ++ image.2,
      copies := s1.copies.filter (fun q => q.tenant != t),
      hub := { s1.hub with struck := s1.hub.struck.filter (· != t) } }
    let s3 := (queuesOf s2 t).foldl (fun s q => updQueue s q stopQueue) s2
    let s4 := hubWrite s3 (o.status + 16) (im.ridx.flatMap (fun w => natToBytes 4 w.toNat))
    ckRecord s4 o.status 0 back.length (back.length * frameRecord)

/-- CHECKPOINT_OP_DONE (R401, R402, R406): `reason` is what the fabric and the peer answer; a cause found here goes
before it. A FINAL and a ROLLBACK end once the tenant has drained. -/
def execCheckpointOpDone (id reason : Nat) (s : State) : Host.Outcome State Fault Refusal :=
  match s.hub.ckops.find? (fun o => o.id == id) with
  | none => .next s
  | some o =>
    let s1 := setHub s (fun h => { h with ckops := h.ckops.filter (fun p => p.id != id) })
    if o.op = 2 then
      (if o.reason.isNone && !finalDrained s o.tenant then .next s else .next (finishFinal s1 o reason))
    else if o.op = 4 then
      (if tenantDrained s o.tenant then .next (finishRollback s1 o reason) else .next s)
    else
      let why := ckLink s o (o.reason.getD reason)
      let s2 := if why = 0 then s1 else setImage s1 o.tenant { getImage s1 o.tenant with staged := [] }
      .next (ckEnd s2 o.status why o.frames o.bytes)

/-! ### Receiving (R403 to R405) -/

/-- What setting EN needs (R404). -/
def recvOk (s : State) (k : Nat) (r : Receiver) : Bool :=
  let others := (s.hub.receivers.filter (fun q => q.1 != k && q.2.en)).map (·.2)
  decide (2 ≤ r.ssize) && decide (1 ≤ r.csize) && decide (r.csize + 2 ≤ r.isize) &&
  (regionsOf r).all (fun p => systemBytes s p.1 p.2) && apart (r.sbase, 65536 * r.ssize) (r.ibase, 65536 * r.isize) &&
  others.all (fun q => (regionsOf q).all (fun b => (regionsOf r).all (apart b))) &&
  (getQp s r.qp).state == 1 && others.all (fun q => q.qp != r.qp)

/-- RECEIVER_ENABLE (R404). -/
def execReceiverEnable (k : Nat) (qp : Nat) (s : State) : Host.Outcome State Fault Refusal :=
  let r := { getRecv s k with qp := qp }
  if recvOk s k r then .next (setRecv s k { r with en := true }) else .next s

/-- The source of a receiver's checkpoint is told: 0 the commit is confirmed, 4 refused (R405). -/
def answerSource (s : State) (r : Receiver) (reason : Nat) : State :=
  setHub s (fun h => { h with answers := h.answers ++ [(r.qp, reason)] })

/-- Bytes that a record takes in staging. -/
def recordSize (n : Nat) : Nat := (16 + n + 255) / 256 * 256

/-- STAGE_RECORD (R405). -/
def execStageRecord (k kind frame : Nat) (swapSeq : Word) (data : List Byte) (s : State) : Host.Outcome State Fault Refusal :=
  let r := getRecv s k
  let n := recordSize data.length
  if r.en = false then .next s
  else if 65536 * r.ssize < r.sused + n then .next (answerSource (setRecv s k { r with sused := 0, staged := [] }) r 4)
  else
    let s1 := hubWrite s (r.sbase + r.sused) (natToBytes 8 frame ++ natToBytes 8 swapSeq.toNat ++ data)
    .next (setRecv s1 k { r with sused := r.sused + n, staged := r.staged ++ [⟨kind, frame, swapSeq, data⟩] })

/-- The data slot that a frame takes. -/
def slotFor (s : State) (r : Receiver) (frame : Nat) : Option Nat :=
  let ds := List.range (dirSlots r)
  match ds.find? (fun d => dirEntry s r d == some frame) with
  | some d => some d
  | none => ds.find? (fun d => (dirEntry s r d).isNone)

/-- One staged frame is applied; none where no slot is left. -/
def applyFrame (r : Receiver) (s : State) (q : StageRec) : Option State :=
  match slotFor s r q.frame with
  | none => none
  | some d =>
    let s1 := hubWrite s (r.ibase + 65536 * (dirFrames r + d)) q.data
    some (hubWriteN s1 (r.ibase + 8 * d) 8 (2 ^ 63 + q.frame % 2 ^ 36))

def applyFrames (r : Receiver) : State → List StageRec → Option State
  | s, [] => some s
  | s, q :: qs =>
    match applyFrame r s q with
    | none => none
    | some s1 => applyFrames r s1 qs

/-- The context area as a commit writes it. -/
def contextArea (tenant : Nat) (swapSeq : Word) (cs qs : List StageRec) : List Byte :=
  padTo 256 (natToBytes 4 tenant ++ natToBytes 4 cs.length ++ natToBytes 4 qs.length ++ zeros 4 ++ natToBytes 4 swapSeq.toNat) ++
  cs.flatMap (·.data) ++ qs.flatMap (·.data)

/-- COMMIT_APPLY (R405) (log 59, DEDUCED): a commit that does not fit is refused before anything is applied; one that fits is applied
in two steps, between which a start may come (R387). -/
def execCommitApply (k tenant : Nat) (swapSeq : Word) (s : State) : Host.Outcome State Fault Refusal :=
  let r := getRecv s k
  let area := contextArea tenant swapSeq (r.staged.filter (fun q => q.kind == 1)) (r.staged.filter (fun q => q.kind == 2))
  if r.en = false then .next s
  else if 65536 * r.csize < area.length then .next (answerSource s r 4)
  else match applyFrames r s (r.staged.filter (fun q => q.kind == 0)) with
    | none => .next (answerSource s r 4)
    | some s1 =>
      if r.applying ≠ some (tenant, swapSeq) then .next (setRecv s k { r with applying := some (tenant, swapSeq) })
      else
        let s2 := hubWrite s1 (contextBase r) area
        .next (answerSource (setRecv s2 k { r with ilast := swapSeq, sused := 0, staged := [], applying := none }) r 0)

end Sys2Proof.Machine
end

