-- ==== Sys2Proof/Machine/HostIf.lean ====
section
/-! DEFINITION. What the host complex and PCI Express do to the module: register pages read and written (R297, R298, R331,
R333, R357, R363, R373, R389, R390, R398, R404, R411), command stores of 64 bytes (R301, R346, R401, R411), interrupts unmasked
(R373), DRAM read and written (R277), the IOMMU and the BARs of endpoint mode (R375, R376), binding (R327), and a module declared
down (R409). -/

namespace Sys2Proof.Machine
open Sys2Proof

/-! ### Pages of the hub region (R248) -/

/-- The pages that the manual places. -/
inductive HubPage where
  | queueSys (q off : Nat) | queueTenant (q off : Nat) | fctl (f off : Nat) | msi (i off : Nat) | qp (q off : Nat)
  | journalRegs (off : Nat) | tracker (k off : Nat) | receiver (k off : Nat) | management (off : Nat) | watchdog (off : Nat)
  | journal (i off : Nat) | descriptor (t off : Nat) | rot (i off : Nat) | bind | code (i j : Nat) | preq (off : Nat)
  | ckcmd (off : Nat) | other
deriving DecidableEq, Repr

/-- An offset in a run of n blocks of a size from a base. -/
def inHubRun (pa base size n : Nat) : Bool := decide (base ≤ pa) && decide (pa < base + size * n)

/-- The page of an address. The manual gives no address for tenant descriptors, the remote ownership table, binding and the
code-object table; these are the model's (log 12). -/
def hubPageOf (pa : Nat) : HubPage :=
  let d := fun (base size : Nat) => (pa - base) / size
  let m := fun (base size : Nat) => (pa - base) % size
  if inHubRun pa 0x8000100000 0x1000 64 then .queueSys (d 0x8000100000 0x1000) (m 0x8000100000 0x1000)
  else if inHubRun pa 0x8000140000 0x1000 64 then .queueTenant (d 0x8000140000 0x1000) (m 0x8000140000 0x1000)
  else if inHubRun pa 0x8000200000 0x1000 64 then .fctl (d 0x8000200000 0x1000) (m 0x8000200000 0x1000)
  else if inHubRun pa 0x8000400000 16 16 then .msi (d 0x8000400000 16) (m 0x8000400000 16)
  else if inHubRun pa 0x8000500000 32 4096 then .qp (d 0x8000500000 32) (m 0x8000500000 32)
  else if inHubRun pa 0x8000600000 0x1000 1 then .journalRegs (m 0x8000600000 0x1000)
  else if inHubRun pa 0x8000700000 64 16 then .tracker (d 0x8000700000 64) (m 0x8000700000 64)
  else if inHubRun pa 0x8000701040 64 16 then .receiver (d 0x8000701040 64) (m 0x8000701040 64)
  else if inHubRun pa 0x8000800000 0x2000 1 then .management (m 0x8000800000 0x2000)
  else if inHubRun pa 0x8000900000 0x1000 1 then .watchdog (m 0x8000900000 0x1000)
  else if inHubRun pa 0x8000A00000 64 4096 then .descriptor (d 0x8000A00000 64) (m 0x8000A00000 64)
  else if inHubRun pa 0x8000B00000 32 1024 then .rot (d 0x8000B00000 32) (m 0x8000B00000 32)
  else if pa = 0x8000C00000 then .bind
  else if inHubRun pa 0x8000300000 64 1 then .preq (m 0x8000300000 64)
  else if inHubRun pa 0x8000701000 64 1 then .ckcmd (m 0x8000701000 64)
  else if inHubRun pa 0x10000000000 65536 16777216 then .code (d 0x10000000000 65536) (m 0x10000000000 65536 / 8)
  else if inHubRun pa 0x8001000000 32 65536 then .journal (d 0x8001000000 32) (m 0x8001000000 32)
  else .other

/-! ### Reading -/

def pair32 (lo hi : Nat) : Nat := lo % 2 ^ 32 + hi % 2 ^ 32 * 2 ^ 32

def queueDword (q : QSlot) (off : Nat) : Nat :=
  if off = 0x48 then qcfgWord q else if off = 0x50 then q.rbase.toNat else if off = 0x58 then q.ridxa.toNat
  else if off = 0x60 then qctlWord q else if off = 0x68 then qstatWord q
  else if off = 0x70 then pair32 q.r.toNat q.w.toNat else if off = 0x78 then q.errpos.toNat else 0

def fctlWord (x : Fctl) : Nat := (if x.flr then 2 ^ 31 else 0) + (if x.pause then 2 ^ 30 else 0) + x.state * 2 ^ 28 + x.tenant

def msiDword (m : Msi) (off : Nat) : Nat :=
  if off = 0 then m.addr.toNat else pair32 m.data.toNat ((if m.mask then 1 else 0) + (if m.pend then 2 else 0))

def qpDword (s : State) (q off : Nat) : Nat :=
  let x := getQp s q
  if off = 0 then pair32 ((if x.v then 2 ^ 31 else 0) + x.state * 2 ^ 29 + x.tenant) (x.peerMod * 2 ^ 22 + x.peerQp)
  else if off = 8 then (x.lanes.extractLsb' 0 64).toNat
  else if off = 16 then pair32 (x.lanes.extractLsb' 64 32).toNat (sendQueue s q).length
  else 0

def trackerDword (t : Tracker) (off : Nat) : Nat :=
  if off = 0 then pair32 ((if t.en then 2 ^ 31 else 0) + (if t.cur then 2 ^ 29 else 0) + t.tenant) t.swapSeq.toNat
  else if off = 8 then t.buf0 else if off = 16 then t.buf1 else if off = 24 then t.roll else 0

def receiverDword (r : Receiver) (off : Nat) : Nat :=
  if off = 0 then (if r.en then 2 ^ 31 else 0) + r.qp else if off = 8 then r.sbase else if off = 16 then r.ssize
  else if off = 24 then r.ibase else if off = 32 then pair32 r.isize r.csize else if off = 40 then pair32 r.ilast.toNat r.sused else 0

/-- MSTAT (R412). -/
def mstatWord (m : Mgmt) : Nat :=
  (if m.cmd.isSome then 2 ^ 31 else 0) + (if m.err then 2 ^ 30 else 0) + m.drop * 2 ^ 16 + m.last * 2 ^ 8 + m.code

def low32 (v : Int) : Nat := (BitVec.ofInt 32 v).toNat

/-- The sensor area (R414, R415), by offset. -/
def sensorDword (m : Mgmt) (off : Nat) : Nat :=
  let limit := fun i => pair32 (low32 (warningOf m i)) (low32 (criticalOf i))
  if off < 0x100 then pair32 (m.thermal.getD (off / 4) 0).toNat (m.thermal.getD (off / 4 + 1) 0).toNat
  else if off < 0x1C0 then
    let r := m.rails.getD ((off - 0x100) / 8) (0, 0)
    pair32 r.1.toNat r.2.toNat
  else if 0x200 ≤ off ∧ off < 0x240 then pair32 (mget 0 m.soft ((off - 0x200) / 4)) (mget 0 m.soft ((off - 0x200) / 4 + 1))
  else if off = 0x300 then m.sample.toNat
  else if 0x400 ≤ off ∧ off < 0x600 then limit ((off - 0x400) / 8)
  else if 0x600 ≤ off ∧ off < 0x6C0 then limit (64 + (off - 0x600) / 8)
  else 0

def managementDword (m : Mgmt) (off : Nat) : Nat :=
  if off = 0x40 then mstatWord m
  else if off = 0x100 then bytesToNat (Config.stepping.take 8)
  else if off = 0x108 then bytesToNat (Config.stepping.drop 8)
  else if off = 0x110 then pair32 (if m.okA then m.fwA.toNat else 0) (if m.okB then m.fwB.toNat else 0)
  else if off = 0x118 then pair32 (mcfgWord m).toNat m.xleft
  else if 0x1000 ≤ off then sensorDword m (off - 0x1000)
  else 0

def descriptorDword (t : Tenant) (off : Nat) : Nat :=
  if off = 0 then t.lvec else if off = 8 then t.lbase else if off = 16 then pair32 t.lsize t.lcur
  else if off = 24 then pair32 (t.bud.getD 0 0) (t.bud.getD 1 0) else if off = 32 then pair32 (t.bud.getD 2 0) (t.bud.getD 3 0) else 0

def rotDword (e : RotEntry) (off : Nat) : Nat :=
  if off = 0 then pair32 ((if e.v then 2 ^ 31 else 0) + e.perm.toNat * 2 ^ 28 + e.tt) (e.smod * 2 ^ 22 + e.st)
  else if off = 8 then e.base.toNat else if off = 16 then e.npg else 0

/-- The aligned doubleword at an address of the hub region. -/
def hubDword (s : State) (pa : Nat) : Nat :=
  match hubPageOf pa with
  | .queueSys q off => queueDword (getQueue s q) off
  | .queueTenant q off => queueDword (getQueue s q) off
  | .fctl f off => if off = 0 then fctlWord (getFctl s f) else 0
  | .msi i off => msiDword (mget {} s.hub.msi i) off
  | .qp q off => qpDword s q off
  | .journalRegs off => if off = 0 then pair32 s.hub.jhead.toNat s.hub.jstart.toNat else if off = 8 then s.hub.jstarts.toNat else 0
  | .tracker k off => trackerDword (getTracker s k) off
  | .receiver k off => receiverDword (getRecv s k) off
  | .management off => managementDword s.mgmt off
  | .watchdog off => if off = 0 then s.hub.wdctl.toNat else if off = 16 then s.hub.wdleft.toNat else 0
  | .journal i off => bytesToNat (((padTo 32 (mget [] s.hub.journal i)).drop off).take 8)
  | .descriptor t off => descriptorDword (getTenant s t) off
  | .rot i off => rotDword (mget {} s.hub.rot i) off
  | .bind => 0
  | .code i j => codeDword s i j
  | .preq _ => 0
  | .ckcmd _ => 0
  | .other => 0

/-- A hart's load of a register. -/
def hubLoad (s : State) (pa size : Nat) : Nat := hubDword s (pa / 8 * 8) / 2 ^ (8 * (pa % 8)) % 2 ^ (8 * size)

/-! ### Writing registers that have no event of their own (R297) -/

/-- OWNER as a write of the system page leaves it: a slot that nobody holds is bound, never to 4095; one that a tenant holds passes
on in the ways of R327 alone (log 61, DEDUCED). -/
def newOwner (x : QSlot) (sys : Bool) (o : Nat) : Nat := if sys && x.owner == 0 && o != 4095 then o else x.owner

/-- The slot with a new configuration: changed while EN = 1, it is lost until RESET (R298). -/
def configure (x y : QSlot) : QSlot := { y with lost := x.lost || (x.en && y != x) }

/-- QCFG, RBASE, RIDXA and QCTL.RESTART; OWNER is read-only in the tenant page. A slot that OWNER binds is none seized (R337). -/
def queueWrite (s : State) (q off : Nat) (sys : Bool) (v : Nat) : State :=
  let x := getQueue s q
  let o := newOwner x sys (v / 2 ^ 20 % 4096)
  if off = 0x48 then setQueue (if o = x.owner then s else unseize s o 5 q) q (configure x { x with
    logn := v / 2 ^ 12 % 16, logs := v / 2 ^ 8 % 16, owner := o })
  else if off = 0x50 then setQueue s q (configure x { x with rbase := BitVec.ofNat 64 v })
  else if off = 0x58 then setQueue s q (configure x { x with ridxa := BitVec.ofNat 64 v })
  else if off = 0x60 then setQueue s q { x with restart := BitVec.ofNat 32 (v / 2 ^ 32) }
  else s

/-- A write of FCTL would make two functions name one tenant, and is ignored (R357). -/
def fctlClash (s : State) (f v : Nat) : Bool :=
  let x := getFctl s f
  let t := v % 4096
  (x.state == 2 || x.tenant == 0) && t != 0 && s.hub.fctl.any (fun q => q.1 != f && q.2.tenant == t)

/-- FCTL.TENANT (R357). -/
def fctlWrite (s : State) (f v : Nat) : State :=
  let x := getFctl s f
  if (x.state = 2 ∨ x.tenant = 0) ∧ fctlClash s f v = false then setFctl s f { x with tenant := v % 4096 } else s

/-- An MSI entry (R373); setting MASK. -/
def msiWrite (s : State) (i off v : Nat) : State :=
  setHub s (fun h =>
    let m := mget {} h.msi i
    let m1 : Msi := if off = 0 then { m with addr := BitVec.ofNat 64 v }
      else if off = 8 then { m with data := BitVec.ofNat 32 v, mask := m.mask || v.testBit 32 } else m
    { h with msi := mset {} h.msi i m1 })

/-- A queue-pair context but for STATE (R363). -/
def qpWrite (s : State) (q off v : Nat) : State :=
  let x := getQp s q
  if off = 0 then setQp s q { x with v := v.testBit 31, tenant := v % 4096, peerMod := v / 2 ^ 54 % 1024, peerQp := v / 2 ^ 32 % 4096 }
  else if off = 8 then setQp s q { x with lanes := (x.lanes.extractLsb' 64 32) ++ (BitVec.ofNat 64 v) }
  else if off = 16 then setQp s q { x with lanes := (BitVec.ofNat 32 v) ++ (x.lanes.extractLsb' 0 64) }
  else s

/-- A write of DTCTL would make two enabled trackers name one tenant, and is ignored (R398). -/
def trackerClash (s : State) (k v : Nat) : Bool :=
  let t := getTracker s k
  let tn := if t.en then t.tenant else v % 4096
  v.testBit 31 && s.hub.trackers.any (fun q => q.1 != k && q.2.en && q.2.tenant == tn)

/-- DTCTL's EN and TENANT, and the buffers (R398). -/
def trackerWrite (s : State) (k off v : Nat) : State :=
  let t := getTracker s k
  let tn := if t.en then t.tenant else v % 4096
  let ok := v % 4096 == 0 && systemBytes s v bufferLen
  if off = 0 then (if trackerClash s k v then s else setTracker s k { t with en := v.testBit 31, tenant := tn })
  else if !ok then s
  else if off = 8 then setTracker s k { t with buf0 := v }
  else if off = 16 then setTracker s k { t with buf1 := v }
  else if off = 24 then setTracker s k { t with roll := v }
  else s

/-- A receiver's registers; clearing EN discards staging and keeps the image (R404). -/
def receiverWrite (s : State) (k off v : Nat) : State :=
  let r := getRecv s k
  if off = 0 then (if v.testBit 31 then s else setRecv s k { r with en := false, qp := v % 4096, sused := 0, staged := [] })
  else if r.en then s
  else if off = 8 then setRecv s k { r with sbase := v / 65536 * 65536 }
  else if off = 16 then setRecv s k { r with ssize := v % 2 ^ 32 }
  else if off = 24 then setRecv s k { r with ibase := v / 65536 * 65536 }
  else if off = 32 then setRecv s k { r with isize := v % 2 ^ 32, csize := v / 2 ^ 32 }
  else s

/-- A tenant descriptor (R333). -/
def descriptorWrite (s : State) (t off v : Nat) : State :=
  let x := getTenant s t
  let lo := v % 2 ^ 32
  let hi := v / 2 ^ 32
  if off = 0 then setTenant s t { x with lvec := v }
  else if off = 8 then setTenant s t { x with lbase := v }
  else if off = 16 then setTenant s t { x with lsize := lo, lcur := hi }
  else if off = 24 then setTenant s t { x with bud := [lo, hi, x.bud.getD 2 0, x.bud.getD 3 0] }
  else if off = 32 then setTenant s t { x with bud := [x.bud.getD 0 0, x.bud.getD 1 0, lo, hi] }
  else s

/-- An entry of the remote ownership table (R331). -/
def rotWrite (s : State) (i off v : Nat) : State :=
  setHub s (fun h =>
    let e := mget {} h.rot i
    let e1 : RotEntry := if off = 0 then { e with v := v.testBit 31, perm := BitVec.ofNat 3 (v / 2 ^ 28), tt := v % 4096, smod := v / 2 ^ 54 % 1024, st := v / 2 ^ 32 % 4096 }
      else if off = 8 then { e with base := BitVec.ofNat 64 v } else if off = 16 then { e with npg := v % 2 ^ 32 } else e
    { h with rot := mset {} h.rot i e1 })

/-- The allocator binds a resource that has tag 0 (R327): never to 4095. A frame's translations are invalidated first; while an access
through them is under way the tag stays 0, and the allocator binds again (R250, R330) (log 12, DESIGN CHOICE). -/
def bindResource (s0 : State) (kind res tag : Nat) : State :=
  let s := unseize s0 tag kind res
  if tag = 0 ∨ 4094 < tag ∨ tagOf s0 kind res ≠ some 0 then s0
  else if kind = 0 then writeTenant s res (BitVec.ofNat 32 (2 ^ 31 + tag))
  else if kind = 1 then { s with bankTag := mset 0 s.bankTag res tag }
  else if kind = 2 then
    let s1 := frameInval s res
    if frameQuiet s res then { s1 with frameTag := mset 0 s1.frameTag res tag } else s1
  else if kind = 3 then { s with chunkTag := mset 0 s.chunkTag res tag, xlPtr := merase s.xlPtr (tag * 4 + res / 512) }
  else if kind = 4 then { s with laneTag := mset 0 s.laneTag res tag }
  else updQueue s res (fun q => { q with owner := tag })

/-- A doubleword of the code-object table (R316). -/
def codeWrite (s : State) (i j v : Nat) : State := { s with codeTable := mset 0 s.codeTable (i * 8192 + j) v }

/-- A write of an aligned doubleword of registers that have no event of their own; any other address ignores it. -/
def hubStore8 (s : State) (pa v : Nat) : State :=
  match hubPageOf pa with
  | .queueSys q off => queueWrite s q off true v
  | .queueTenant q off => queueWrite s q off false v
  | .fctl f off => if off = 0 then fctlWrite s f v else s
  | .msi i off => if i < 16 then msiWrite s i off v else s
  | .qp q off => qpWrite s q off v
  | .journalRegs _ => s
  | .tracker k off => trackerWrite s k off v
  | .receiver k off => receiverWrite s k off v
  | .management _ => s
  | .watchdog _ => s
  | .journal _ _ => s
  | .descriptor t off => descriptorWrite s t off v
  | .rot i off => rotWrite s i off v
  | .bind => bindResource s (v / 2 ^ 60) (v % 2 ^ 48) (v / 2 ^ 48 % 4096)
  | .code i j => codeWrite s i j v
  | .preq _ => s
  | .ckcmd _ => s
  | .other => s

/-- A number with `n` bytes from byte `i` on replaced by those of another. -/
def putField (old i n v : Nat) : Nat :=
  old % 256 ^ i + v % 256 ^ n * 256 ^ i + old / 256 ^ (i + n) * 256 ^ (i + n)

/-- A write of `n` bytes within a doubleword of registers: its other bytes keep what they read as. -/
def hubStore (s : State) (pa n v : Nat) : State :=
  if 8 ≤ n then hubStore8 s pa v else hubStore8 s (pa / 8 * 8) (putField (hubDword s (pa / 8 * 8)) (pa % 8) n v)

/-! ### Interrupts (R373) -/

/-- MSI_UNMASK: clearing MASK. A pending message is sent where ADDR names an IMSIC file. -/
def execMsiUnmask (i : Nat) (s : State) : Host.Outcome State Fault Refusal :=
  .next (setHub s (fun h =>
    let m := mget {} h.msi i
    let send := m.pend && (imsicFile m.addr.toNat).isSome
    let h1 := { h with msi := mset {} h.msi i { m with mask := false, pend := m.pend && !send } }
    if send then sendMsi h1 m else h1))

/-! ### Registers whose write does something of its own -/

/-- The state after an event, which always answers one. -/
def after (o : Host.Outcome State Fault Refusal) (s : State) : State :=
  match o with
  | .next t => t
  | _ => s

/-- Bit `b` of a doubleword, where a store of `n` bytes from byte `i` covers it: its new value. -/
def bitStored (i n v b : Nat) : Option Bool := if 8 * i ≤ b ∧ b < 8 * (i + n) then some (v.testBit (b - 8 * i)) else none

/-- QCTL (R298): RESTART is stored, then RESET and EN act; a write of EN = 1 where EN is 1 enables nothing anew (log 99, DESIGN
CHOICE). -/
def qctlWrite (s : State) (q i n v : Nat) : State :=
  let s1 := queueWrite s q 0x60 false (putField (qctlWord (getQueue s q)) i n v)
  let s2 := if bitStored i n v 1 = some true then resetQueue s1 q (getQueue s1 q).restart else s1
  match bitStored i n v 0 with
  | some true => if (getQueue s2 q).en then s2 else after (execQueueEnable q s2) s2
  | some false => after (execQueueDisable q s2) s2
  | none => s2

/-- FCTL (R357): TENANT is stored, then PAUSE and FLR act; a write that would give two functions one tenant is ignored whole. -/
def fctlStore (s : State) (f i n v : Nat) : State :=
  if fctlClash s f (putField (fctlWord (getFctl s f)) i n v) then s else
  let s1 := hubStore s (0x8000200000 + 0x1000 * f + i) n v
  let s2 := match bitStored i n v 30 with
    | some true => after (execFunctionPause f s1) s1
    | some false => after (execFunctionUnpause f s1) s1
    | none => s1
  if bitStored i n v 31 = some true then after (execFunctionLevelReset f s2) s2 else s2

/-- The peer's context as the fabric answers to a store of STATE = 1: an answer that nothing fixes (R364). -/
def peerOf (s : State) (qp : Nat) : PeerView :=
  { valid := freeBitAt s 28 0 0 qp, peerMod := freeNatAt s 28 0 1 qp % 1024, peerQp := freeNatAt s 28 0 2 qp % 4096,
    lanes := BitVec.ofNat 96 (freeNatAt s 28 0 3 qp) }

/-- A store to the first doubleword of a queue-pair context (R363, R364): the other fields are written, then STATE acts. A store of 3
is ignored; one of 2 puts the pair into ERROR (log 104, DESIGN CHOICE). -/
def qpStore (s : State) (q i n v : Nat) : State :=
  let w := putField (qpDword s q 0) i n v
  let st := w / 2 ^ 29 % 4
  let touched := (bitStored i n v 29).isSome
  if touched ∧ st = 3 then s
  else
    let s1 := qpWrite s q 0 w
    if !touched then s1
    else if st = 0 then (if (getQp s q).state = 0 then s1 else qpTear s1 q)
    else if st = 1 then stepFree (after (execQpSetReady q (peerOf s1 q) s1) s1)
    else if (getQp s q).state = 2 then s1 else qpFail s1 q

/-- A store to DTCTL (R398, R400): EN and TENANT are written, then SWAP acts. -/
def trackerStore (s : State) (k i n v : Nat) : State :=
  let w := putField (trackerDword (getTracker s k) 0) i n v
  if trackerClash s k w then s
  else
    let s1 := trackerWrite s k 0 w
    if bitStored i n v 30 = some true then after (execDirtySwap k s1) s1 else s1

/-- A store of an agent to an address of the hub region, by a host hart or by firmware code (R248): what the register's own event
does where it has one. -/
def regStore (s : State) (pa n v : Nat) : State :=
  let i := pa % 8
  let queue := fun (q off : Nat) =>
    if off = 0x40 then (if 4 ≤ n then after (execDoorbell q (BitVec.ofNat 32 v) s) s else s)
    else if off / 8 = 12 then qctlWrite s q i n v else hubStore s pa n v
  match hubPageOf pa with
  | .queueSys q off => queue q off
  | .queueTenant q off => queue q off
  | .fctl f off => if off < 8 then fctlStore s f i n v else s
  | .msi k off =>
    let s1 := hubStore s pa n v
    if off / 8 = 1 ∧ bitStored i n v 32 = some false then after (execMsiUnmask k s1) s1 else s1
  | .watchdog off =>
    if 4 ≤ n ∧ off = 0 then after (execWatchdogControl (BitVec.ofNat 32 v) s) s
    else if 4 ≤ n ∧ off = 8 then after (execWatchdogKick (BitVec.ofNat 32 v) s) s else s
  | .receiver k off =>
    if off / 8 = 0 ∧ bitStored i n v 31 = some true then
      after (execReceiverEnable k (putField (receiverDword (getRecv s k) 0) i n v % 4096) s) s
    else hubStore s pa n v
  | .qp q off => if off < 8 then qpStore s q i n v else hubStore s pa n v
  | .tracker k off => if off < 8 then trackerStore s k i n v else hubStore s pa n v
  | _ =>
    match imsicFile pa with
    | some file => if n = 4 then setHub s (fun h => imsicSet h file v) else s
    | none => hubStore s pa n v

/-- REGISTER_WRITE (R297): a register of 64 bits, or the upper 32 of its doubleword. -/
def execRegisterWrite (pa : Nat) (value : Dword) (s : State) : Host.Outcome State Fault Refusal :=
  .next (regStore s pa (if pa % 8 = 0 then 8 else 4) (value.toNat % 256 ^ (if pa % 8 = 0 then 8 else 4)))

/-! ### Stores of 64 bytes -/

/-- A field of a 64-byte command, in bytes. -/
def byteField (p : List Byte) (i n : Nat) : Nat := bytesToNat ((p.drop i).take n)

/-- A management command as MCMD's 64 bytes give it (R413). An operation byte beside those that the manual names, or a reserved bit
that is not zero, is a bad operand (log 100, DESIGN CHOICE). -/
def mcmdStore (p : List Byte) (s : State) : Host.Outcome State Fault Refusal :=
  let op := byteField p 0 4 / 2 ^ 28
  let buf := byteField p 8 8
  if byteField p 0 4 % 2 ^ 28 ≠ 0 then execMcmdInvalid op s
  else if op = 1 then execMgLogrd buf (byteField p 16 4) (byteField p 20 4) s
  else if op = 2 then execMgStage buf (byteField p 16 4) s
  else if op = 3 then execMgActivate s
  else if op = 4 then execMgAttest buf ((p.drop 16).take 32) s
  else if op = 5 ∧ byteField p 16 1 < 2 then execMgStart (byteField p 16 1 == 1) s
  else if op = 6 ∧ byteField p 18 1 < 2 then execMgConfig (byteField p 16 2) (byteField p 18 1 == 1) s
  else if op = 7 then execMgLimit (byteField p 16 2) (BitVec.ofNat 32 (byteField p 20 4)) s
  else execMcmdInvalid op s

/-- A checkpoint command as CKCMD's 64 bytes give it (R401); one with a reserved bit that is not zero is refused as one that the manual
does not name (log 100, DESIGN CHOICE). -/
def ckcmdStore (p : List Byte) (s : State) : Host.Outcome State Fault Refusal :=
  let w := byteField p 0 4
  let op := w / 2 ^ 28
  let cmd : CkCmd := { tracker := w / 2 ^ 24 % 16, qp := byteField p 4 4 % 4096, status := byteField p 8 8 }
  if w % 2 ^ 24 ≠ 0 ∨ byteField p 4 4 / 4096 ≠ 0 ∨ (p.drop 16).any (· != 0) = true then execCkcmdInvalid op cmd s
  else if op = 1 then execCkRound cmd s
  else if op = 2 then execCkFinal cmd s
  else if op = 3 then execCkAbort cmd s
  else if op = 4 then execCkRollback cmd s
  else execCkcmdInvalid op cmd s

/-- One 64-byte write-combined store to a hub address (R301, R346, R401, R411): the command registers take it whole, and the journal,
like every other read-only page, ignores it; what else there is takes it as eight doublewords in ascending order (log 100, DESIGN
CHOICE). -/
def regStore64 (s : State) (pa : Nat) (p : List Byte) : State :=
  let each := (List.range 8).foldl (fun s i => regStore s (pa + 8 * i) 8 (byteField p (8 * i) 8)) s
  match hubPageOf pa with
  | .queueSys q 0 => after (execLaunchWrite q p s) s
  | .queueTenant q 0 => after (execLaunchWrite q p s) s
  | .preq _ => after (execPreemptRequest p s) s
  | .ckcmd _ => after (ckcmdStore p s) s
  | .management 0 => after (mcmdStore p s) s
  | _ => each

/-! ### Accesses to DRAM (R277, R372) -/

/-- All bytes lie in DRAM. -/
def allDram (pa n : Nat) : Bool := isDram pa && isDram (pa + n - 1) && decide (pa / 2 ^ 37 = (pa + n - 1) / 2 ^ 37)

/-- The physical address that the IOMMU gives a requester's access, by the requester's device context (R375); none where no window
that it has been granted covers the access. -/
def dmaTarget (s : State) (fn a n : Nat) (write : Bool) : Option Nat :=
  ((mget [] s.hub.windows fn).find? (fun w =>
    decide (w.base ≤ a) && decide (a + n ≤ w.base + w.size) && (if write then w.w else w.r))).map (fun w => w.pa + (a - w.base))

/-- PCIE_INBOUND_WRITE (R277, R375, R376): a posted write, visible when it arrives. It goes where the IOMMU says: to DRAM, or as an
interrupt message to an IMSIC file (log 61, DEDUCED). -/
def execPcieInboundWrite (fn pa : Nat) (data : List Byte) (s : State) : Host.Outcome State Fault Refusal :=
  match dmaTarget s fn pa data.length true with
  | none => .next s
  | some a =>
    if data.isEmpty then .next s
    else if allDram a data.length then .next (hubWrite s a data)
    else match imsicFile a with
      | some file => .next (if data.length = 4 then setHub s (fun h => imsicSet h file (bytesToNat data)) else s)
      | none => .next s

/-- An inbound read (R375): the value that the requester gets from DRAM; a poisoned sector gives none, as to a hart. -/
def inboundRead (s : State) (fn a n : Nat) : State :=
  match dmaTarget s fn a n false with
  | none => s
  | some pa =>
    if n = 0 || !allDram pa n then s
    else if poisoned s pa n then (if frameTagOf s (frameOf pa) = 0 then logEvent s 4 none else s)
    else setHub (l2Read s (pa / 64) (some 2) false) (fun h => { h with inbound := mset 0 h.inbound fn (readLE s.mem pa n) })

/-- What an ordered load of a hart tells the host (R277); its harts count as one agent, since their order among themselves is
their own (log 92, DESIGN CHOICE). -/
def hostLearns (s : State) (ordered : Bool) (m : SMap Nat) : State :=
  if ordered && !m.isEmpty then { s with hostSeen := joinSeen s.hostSeen m } else s

/-- A hart's store to DRAM: an ordered one is a release at system scope (R277). -/
def hartStore (s : State) (ordered : Bool) (pa : Nat) (bs : List Byte) : State :=
  let s1 := hubWrite s pa bs
  let e : Edge := { scope := 6, core := hostCore, at' := 0, knows := s.hostSeen }
  if ordered then { s1 with trails := trailWrite s1.trails false pa bs.length [e] false } else s1

/-- What an ordered load of the journal or of its head tells the host (R277, R392): what happens before the entry that it reads, or
before every entry below the head. -/
def journalTells (s : State) (pa : Nat) : SMap Nat :=
  match hubPageOf pa with
  | .journal i _ => mget [] s.hub.told i
  | .journalRegs 0 => s.hub.told.foldl (fun m q => joinSeen m q.2) []
  | _ => []

/-- A hart's load of DRAM at the home slice; a poisoned sector gives no value, and is logged where no tenant holds the
frame (R260, R396). -/
def hartLoad (s : State) (hart : Nat) (ordered : Bool) (pa size : Nat) : State :=
  if poisoned s pa size then (if frameTagOf s (frameOf pa) = 0 then logEvent s 4 none else s)
  else
    let s1 := hostLearns (l2Read s (pa / 64) (some 2) false) ordered (toldBy (trailRead s.trails false pa size) hostCore 6)
    setHub s1 (fun h => { h with hart := mset 0 h.hart hart (readLE s1.mem pa size) })

/-- HOST_HART_ACCESS: a hart loads or stores DRAM coherently, or a register of the hub region. -/
def execHostHartAccess (hart : Nat) (kind : HartAccess) (pa size : Nat) (data : List Byte) (s : State) : Host.Outcome State Fault Refusal :=
  if isDram pa then .next (if kind.store then hartStore s kind.ordered pa data else hartLoad s hart kind.ordered pa size)
  else if pa < 0x8000000000 then .next s
  else if kind.store then .next (regStore s pa data.length (bytesToNat data))
  else .next (hostLearns (setHub s (fun h => { h with hart := mset 0 h.hart hart (hubLoad s pa size) })) kind.ordered (journalTells s pa))

/-! ### The BARs of endpoint mode (R376) -/

/-- The hub address that an offset of a BAR reaches: of virtual function f the tenant pages of the queue slots that its tenant owns, of
the physical function the system pages of R297, R346 and R357, at their distance from the first of them (log 100, PRESUMED). -/
def barTarget (s : State) (vf : Option Nat) (off : Nat) : Option Nat :=
  match vf with
  | some f =>
    let t := (getFctl s f).tenant
    if off < 0x40000 ∧ t ≠ 0 ∧ (getQueue s (off / 0x1000)).owner = t then some (0x8000140000 + off) else none
  | none =>
    match hubPageOf (0x8000100000 + off) with
    | .queueSys _ _ => some (0x8000100000 + off)
    | .fctl _ _ => some (0x8000100000 + off)
    | .preq _ => some (0x8000100000 + off)
    | _ => none

/-- The upstream host accesses a BAR: a slot that the function's tenant does not own reads zero and ignores writes. -/
def barAccess (s : State) (vf : Option Nat) (off size : Nat) (store : Option Nat) : State :=
  let key := 65536 + (vf.map (· + 1)).getD 0
  let answer := fun (v : Nat) => setHub s (fun h => { h with inbound := mset 0 h.inbound key v })
  if !s.mgmt.ep || !(size ∈ [1, 2, 4, 8, 64]) || off % size != 0 then s
  else match barTarget s vf off, store with
    | some pa, some v => if size = 64 then regStore64 s pa (natToBytes 64 v) else regStore s pa size (v % 256 ^ size)
    | some pa, none => if size = 64 then s else answer (hubLoad s pa size)
    | none, some _ => s
    | none, none => answer 0

/-! ### What the outside does (log 100) -/

/-- What the outside does beside the events of the manual's table. -/
def outside (o : Outside) (s : State) : State :=
  match o with
  | .store64 pa bytes =>
    if bytes.length ≠ 64 ∨ pa % 64 ≠ 0 then s
    else if isDram pa then hartStore s false pa bytes
    else if pa < 0x8000000000 then s else regStore64 s pa bytes
  | .peerAbort k => setRecv s k { getRecv s k with sused := 0, staged := [] }
  | .peerImage t im => setImage s t im
  | .window fn none => setHub s (fun h => { h with windows := merase h.windows fn })
  | .window fn (some w) => setHub s (fun h => { h with windows := mset [] h.windows fn (mget [] h.windows fn ++ [w]) })
  | .pcieRead fn pa size => inboundRead s fn pa size
  | .claim file ident => setHub s (fun h => { h with imsic := mset false h.imsic (file * 256 + ident) false })
  | .bar vf off size store => barAccess s vf off size store

/-- A command to the management controller, which goes on while the module is not up (R411, R412). -/
def toManagement (o : Outside) : Bool :=
  match o with
  | .store64 pa _ => pa == 0x8000800000
  | _ => false

/-! ### Modules (R409) -/

/-- PORTS_DOWN: a module is declared down. Queue pairs to it have no usable port and enter ERROR; the domain's hosts are
interrupted through an entry that the manual does not name (log 61, DEDUCED). -/
def execPortsDown (modid : Nat) (s : State) : Host.Outcome State Fault Refusal :=
  if s.hub.down.contains modid then .next s
  else
    let s1 := setHub s (fun h => { h with down := h.down ++ [modid] })
    let s2 := (s1.hub.qps.filter (fun q => q.2.state == 1 && q.2.peerMod == modid)).foldl (fun s q => qpFail s q.1) s1
    .next (stepFree (raiseMsi s2 (freeNatAt s2 27 0 0 0 % 8)))

end Sys2Proof.Machine
end

