-- ==== Sys2Proof/Machine/Arrive.lean ====
section
/-! DEFINITION. What the memory system does with accesses after they have issued: loads and prefetches that come back (R157,
R160, R162, R163, R170), stores acknowledged and atomics performed (R161, R164, R165, R259, R267), walks that end (R262, R329,
R345), and soft errors (R395). -/

namespace Sys2Proof.Machine
open Sys2Proof

/-! ### Loads come back -/

/-- A write of the core behind which a load that misses waits (R161, R267): for a global load, a store of the core to the sector
and a write of its own group to it; for a scratchpad load, its own group's write to the bytes. -/
def missBehind (x : Nat) (r : LoadRec) (l : LdLane) (w : Flight) : Bool :=
  if scratch r.kind then w.ctx == x && w.item.spm && w.item.lanes.any (fun m => overlaps m.addr w.item.size l.addr r.piece)
  else !w.item.spm && (w.item.kind == .st || w.ctx == x) && w.item.lanes.any (fun m => m.addr / 64 == l.addr / 64)

/-- Whether an access of a load may take its value now: earlier loads of the group to its bytes have theirs (R265), and on a
miss no write holds it back (R267). -/
def laneReady (k : Core) (x : Nat) (r : LoadRec) (l : LdLane) : Bool :=
  let earlier := (k.group x).loads.takeWhile (fun q => q.id != r.id)
  let inOrder := earlier.all (fun q =>
    q.kind != r.kind || q.lanes.all (fun m => m.val.isSome || !overlaps m.addr q.piece l.addr r.piece))
  let hit := r.kind == .ld && (l1Sector k (l.addr / 64)).isSome
  inOrder && (hit || !k.flight.any (missBehind x r l))

/-- A sector may be installed in L1: it is of DRAM (R7), not dropped since it was asked for, and no write of the core to it is
under way. -/
def mayInstall (k : Core) (asked : Bool) (sec : Nat) : Bool :=
  asked && isDram (sec * 64) &&
  k.flight.all (fun q => q.item.spm || q.item.lanes.all (fun l => l.addr / 64 != sec)) &&
  k.groups.all (fun g => g.2.storeq.all (fun q => q.spm || q.kind == .st || q.lanes.all (fun l => l.addr / 64 != sec)))

/-- A sector is read at its home and filled into L2 and L1 by a hint (R160, R256, R258): what the access has brought. -/
def bringSector (s : State) (c : Nat) (b : Brought) (sec hint : Nat) (asked quiet : Bool) : State × Brought :=
  if b.secs.contains sec then (s, b)
  else
    let r := bringL2 s b sec (hintL2 hint) quiet
    let k := getCore r.1 c
    if poisoned s (sec * 64) 64 || !mayInstall k asked sec then r
    else
      (setCore r.1 c { l1Fill k sec (readLE r.1.mem (sec * 64) 64) hint (b.l1.contains (sec / 4)) with
        trails := trailFill k.trails r.1.trails sec },
       { r.2 with l1 := if (l1Find k (sec / 4)).isNone && (hintL1 hint).isSome then sec / 4 :: r.2.l1 else r.2.l1 })

/-- A hit in L1 re-references the line, once for each sector of an access and not where the access has allocated it (R256). -/
def hitSector (s : State) (c : Nat) (b : Brought) (sec : Nat) : State × Brought :=
  if b.secs.contains sec then (s, b)
  else (if b.l1.contains (sec / 4) then s else updCore s c (fun k => l1Touch k sec), { b with secs := sec :: b.secs })

/-- What one access of a load reads (R160): its value, and whether an error has struck it (R157, R395); with the caches as the
access leaves them. Firmware reaches registers of the hub region (R248) (log 17). -/
def readAccess (s : State) (c : Nat) (r : LoadRec) (l : LdLane) : State × Brought × Nat × Bool :=
  let n := r.piece
  let sec := l.addr / 64
  if scratch r.kind then (s, r.got, readLE s.spm l.addr n, struckSpm s l.addr n)
  else if !isDram l.addr then (s, r.got, hubLoad s l.addr n, false)
  else match l1Sector (getCore s c) sec with
    | some d =>
      let q := hitSector s c r.got sec
      (q.1, q.2, cutBytes d (sec * 64) l.addr n, l1Struck (getCore s c) l.addr n)
    | none =>
      let q := bringSector s c r.got sec r.f.hint.toNat (r.install.contains sec) false
      (q.1, q.2, readLE s.mem l.addr n, poisoned s l.addr n)

/-- What a load has brought counts for every member of its issue (R157). -/
def shareGot (s : State) (c share : Nat) (got : Brought) : State :=
  updCore s c (fun k => { k with groups := mmap {} (fun _ g => { g with loads := g.loads.map (fun q =>
    if q.share = share then { q with got := got } else q) }) k.groups })

/-- The edges of the write whose value an access of a load takes (R270): of the copy in L1, or at its home or bank. -/
def readEdges (s : State) (c : Nat) (r : LoadRec) (l : LdLane) : List Edge :=
  if scratch r.kind then trailRead s.trails true l.addr r.piece
  else if (l1Sector (getCore s c) (l.addr / 64)).isSome then trailRead (getCore s c).trails false l.addr r.piece
  else trailRead s.trails false l.addr r.piece

/-- One access of a load takes its value. -/
def captureLane (c x id : Nat) (s : State) (l : LdLane) : State :=
  match (getGroup s c x).loads.find? (fun q => q.id == id) with
  | none => s
  | some r =>
    match readAccess s c r l with
    | (s1, got, v, bad) => updGroup (shareGot s1 c r.share got) c x (fun g => { g with loads := g.loads.map (fun q =>
        if q.id = id then { q with lanes := q.lanes.map (fun m =>
          if m.lane = l.lane ∧ m.half = l.half then { m with val := some v, bad := bad, edges := readEdges s c r l } else m) }
        else q) })

/-- The cells of a returned load: its clean lanes' registers. -/
def loadCells (r : LoadRec) : List (Nat × Word) :=
  if r.f.d.toNat = vnull then []
  else (r.bases.filter (fun l => !laneStruck r l.lane)).flatMap (fun l =>
    (loadWords r.kind r.f r.size (laneTotal r l.lane)).zipIdx.map (fun q => (cellKey (r.f.d.toNat + q.2) l.lane, q.1)))

/-- The instruction of a load record. -/
def loadInstr (r : LoadRec) : Instr :=
  match r.kind with
  | .ld => .ld r.f
  | .lds => .lds r.f
  | .atom => .atom r.f
  | .atoms => .atoms r.f

/-- XM of struck lanes (R157, R280, R285): every member of the issue, the entry to replay with the struck lanes. -/
def struckTrap (i : Instr) (f : Fields) (pc : Dword) (kind x : Nat) (members : List Nat) (es : List MElem)
    (s : State) (c : Nat) : State :=
  match es with
  | [] => s
  | e :: _ =>
    raiseTrap { s with serial := s.serial + 1 } c
      { cls := clsXM, info := BitVec.ofNat 32 (e.lane * 16 + kind), addr := e.va, pc := pc, slots := withVacant (getCore s c) x f.scope members,
        origin := x, replay := elemReplays i f pc members es (some (x, e.lane)) s.serial none }

/-- The scope at which a load acquires (R163, R167); 0 for none. -/
def loadAcq (r : LoadRec) : Nat := match r.kind with
  | .ld => r.f.mod.toNat
  | .atom => atomAcq r.f
  | _ => 0

/-- What a returned load tells (R270): every member of its issue where it acquires, the groups of a later acquire fence, and its own
group's fences to come. -/
def tellEdges (c x : Nat) (r : LoadRec) (k : Core) : Core :=
  let es := r.lanes.foldl (fun es l => joinEdges es l.edges) []
  if es.isEmpty then k
  else
    let k1 := if loadAcq r = 0 then k else updSlots k r.member (learn (toldBy es c (loadAcq r)) r.id)
    let k2 := ((k1.group x).acquires.filter (fun a => decide (r.id < a.at'))).foldl
      (fun k a => updSlots k a.slots (learn (toldBy es c a.scope) a.at')) k1
    k2.withGroup x { k2.group x with loose := joinEdges (k2.group x).loose es }

/-- A poisoned sector of a frame with tag 0 that a load has read is logged (R396). -/
def logTag0 (r : LoadRec) (s : State) : State :=
  if !scratch r.kind && r.lanes.any (fun l => l.bad && poisoned s l.addr r.piece && frameTagOf s (frameOf l.addr) == 0)
  then logEvent s 4 none else s

/-- A load all of whose lanes have come back: clean lanes are written, the record goes, acquires are settled, and XM is
raised for struck lanes. The choice of entry is made again (R221). -/
def finishLoad (s : State) (c x : Nat) (r : LoadRec) : State :=
  let cells := loadCells r
  let s1 := updGroup s c x (fun g =>
    let g1 : Group := { g with
      loads := g.loads.filter (fun q => q.id != r.id)
      pend := g.pend.map (fun p => if p.id = r.id then { p with cells := cells, ready := true } else p) }
    match g1.pend.find? (fun p => p.id == r.id) with
    | some p => landPend g1 { p with cells := p.cells.map (fun q =>
        (q.1, keptValue s c x (q.1 / 64) (q.1 % 64) q.2)) }
    | none => g1)
  let s2 := updCore (remember s1 (tenantOf s c x) (cells.map (·.2))) c (fun k => settleAcqs (tellEdges c x r k) c)
  logTag0 r (struckTrap (loadInstr r) r.f r.pc (if r.kind = .ld ∨ r.kind = .lds then 1 else 3) x r.member
    ((r.bases.filter (fun l => laneStruck r l.lane)).map (fun l => ⟨x, l.lane, l.va, l.b, l.c⟩)) s2 c)

/-- The accesses that a LOAD_RETURN takes of those that may take their value: all of the listed lanes, but of two halves of a
lane one, and which of them is open (R162). -/
def returning (s : State) (x : Nat) (ls : List LdLane) : List LdLane :=
  ls.filter (fun l => !ls.any (fun m => m.lane == l.lane && m.half != l.half) || l.half == freeBitAt s 3 x 0 l.lane)

/-- A prefetch is over. -/
def dropPref (k : Core) (id : Nat) : Core := { k with prefs := k.prefs.filter (fun q => q.id != id) }

/-- A sector is valid in L2. -/
def l2Has (s : State) (sec : Nat) : Bool :=
  match l2Find s (sec / 4) with
  | none => false
  | some q => q.secs.getLsbD (sec % 4)

/-- A prefetched sector is brought into L2, and into L1 where it may still be installed and is absent (R170). A sector that L2 has
is no hit of a load (R258); one that L2 lacks in a line that it has sets the line's value to 0 (R65). -/
def fillPref (s : State) (c : Nat) (p : Pref) (sec : Nat) : State :=
  let k := getCore s c
  let r := bringSector s c p.got sec p.hint (p.install && (l1Sector k sec).isNone) (l2Has s sec)
  updCore r.1 c (fun k => dropPref { k with prefs := k.prefs.map (fun q =>
    if q.share = p.share then { q with got := r.2 } else q) } p.id)

/-- A prefetch is served once its address is translated; where that fails it is dropped (R170). -/
def servePref (s : State) (c : Nat) (p : Pref) : State :=
  match p.sector with
  | some sec => fillPref s c p sec
  | none => match checkGlobal s c (prefCtx (p.ctx % 64)) 1 1 p.va with
    | (s1, .pa a) => fillPref (useWalks s1 c (prefCtx (p.ctx % 64)) 1 [pageOf p.va]) c p (a / 64)
    | (s1, .fault _) => updCore (useWalks s1 c (prefCtx (p.ctx % 64)) 1 [pageOf p.va]) c (fun k => dropPref k p.id)
    | (s1, _) => s1

/-- LOAD_RETURN (R157, R160, R163, R165, R170): the listed lanes of a load that may take their value do so; once all
have one the load is over. -/
def execLoadReturn (core ctx id : Nat) (lanes : Mask) (s : State) : Host.Outcome State Fault Refusal :=
  let k := getCore s core
  match k.prefs.find? (fun p => p.id == id) with
  | some p => .next (servePref s core p)
  | none =>
    match (k.group ctx).loads.find? (fun r => r.id == id) with
    | none => .next s
    | some r =>
      let want := if r.kind = .atom ∨ r.kind = .atoms then [] else
        r.lanes.filter (fun l => lanes.getLsbD l.lane && l.val.isNone && laneReady k ctx r l)
      let s1 := (returning s ctx want).foldl (captureLane core ctx id) s
      match (getGroup s1 core ctx).loads.find? (fun q => q.id == id) with
      | none => .next s1
      | some q =>
        if q.lanes.all (fun l => l.val.isSome) then .next (stepFree (finishLoad s1 core ctx q))
        else .next (stepFree (updGroup s1 core ctx (fun g => showKnown g id)))

/-! ### Writes are acknowledged -/

/-- The write of a lane is over; a write with no lane left is acknowledged, and has performed at core scope (R267). -/
def ackLane (s : State) (c id lane : Nat) : State :=
  updCore s c (fun k0 =>
    let k := match k0.flight.find? (fun w => w.id == id) with
      | some w => if w.item.lanes.all (fun l => l.lane == lane) then notePerformed w.item k0 else k0
      | none => k0
    let less := k.flight.map (fun w =>
      if w.id = id then { w with item := { w.item with lanes := w.item.lanes.filter (fun l => l.lane != lane) } } else w)
    settleAcqs { k with flight := less.filter (fun w => !w.item.lanes.isEmpty) } c)

/-- A write under way, one of its lanes that none of the same bytes precedes. -/
def flightLane (k : Core) (id lane : Nat) : Option (Flight × QLane) :=
  match k.flight.find? (fun w => w.id == id) with
  | none => none
  | some w => match w.item.lanes.find? (fun l => l.lane == lane) with
    | none => none
    | some l =>
      if flightClear k id w.item.spm l w.item.size &&
          (w.item.lanes.takeWhile (fun m => m.lane != lane)).all (fun m => m.addr != l.addr) then some (w, l)
      else none

/-- A store of an instruction to a sector is still queued or under way. -/
def moreToCome (k : Core) (inst sec : Nat) : Bool :=
  let hits := fun (q : QItem) => q.inst == inst && q.kind == .st && !q.spm && q.lanes.any (fun l => l.addr / 64 == sec)
  k.groups.any (fun g => g.2.storeq.any hits) || k.flight.any (fun w => hits w.item)

/-- A sector that the stores of an instruction cover is poisoned no more once all of them have been written (R260). -/
def mendSector (s : State) (c : Nat) (q : QItem) (l : QLane) : State :=
  if q.covers.contains (l.addr / 64) && !moreToCome (getCore s c) q.inst (l.addr / 64) then unpoison s (l.addr / 64) else s

/-- A lane's bytes written where they belong: in a bank, at their home, or in a register of the hub region (R248, R259). -/
def landLane (s : State) (c : Nat) (w : Flight) (l : QLane) (bs : List Byte) : State :=
  if w.item.spm then bankWrite s c w.item { l with b := bytesToNat bs }
  else if isDram l.addr then markTrail (homeWrite s l.addr bs (some 2)) c w.item l
  else regStore s l.addr bs.length (bytesToNat bs)

/-- STORE_ACK (R161, R259, R267, R399): the home slice or bank takes one lane's bytes and acknowledges them. -/
def execStoreAck (core id lane : Nat) (s : State) : Host.Outcome State Fault Refusal :=
  match flightLane (getCore s core) id lane with
  | none => .next s
  | some (w, l) =>
    if w.item.kind ≠ .st then .next s
    else .next (stepFree (mendSector (ackLane (landLane s core w l (laneBytes w.item l)) core id lane) core w.item l))

/-! ### Atomics -/

/-- A value of `w` bits read as signed. -/
def asSigned (w v : Nat) : Int := (BitVec.ofNat w v).toInt

/-- The new value (R164). -/
def atomNew (op w old b c : Nat) : Nat :=
  if op = 0 then (old + b) % 2 ^ w
  else if op = 1 then (if asSigned w old ≤ asSigned w b then old else b)
  else if op = 2 then (if asSigned w old ≤ asSigned w b then b else old)
  else if op = 3 then min old b
  else if op = 4 then max old b
  else if op = 5 then old &&& b
  else if op = 6 then old ||| b
  else if op = 7 then old ^^^ b
  else if op = 8 then b
  else if op = 9 then (if old = b then c else old)
  else if op = 10 then (if b ≤ old then 0 else old + 1)
  else if op = 11 then (if old = 0 ∨ b < old then b else old - 1)
  else (finish fF32 .rne (addVal .rne (fdecode fF32 old) (fdecode fF32 b))).1

/-- An atomic's old value reaches its load record with the edges of its write; struck lanes are marked (R157). -/
def atomReply (s : State) (c x id lane old : Nat) (bad : Bool) (es : List Edge) : State :=
  updGroup s c x (fun g => showKnown { g with loads := g.loads.map (fun r =>
    if r.id = id then { r with lanes := r.lanes.map (fun l =>
      if l.lane = lane then { l with val := some old, bad := bad, edges := es } else l) } else r) } id)

/-- An atomic that leaves its location as it is makes no write (R164, R325): a `.cas` that finds another value. -/
def atomWrites (op old b : Nat) : Bool := op != 9 || old == b

/-- A reduction's struck lane stays with its item until the last lane is done; then XM is raised for all (R157), where its group
still has its slot (log 23, DESIGN CHOICE). -/
def redStruck (s : State) (c : Nat) (w : Flight) (l : QLane) (bad : Bool) : State :=
  let all := w.item.struck ++ (if bad then [l] else [])
  if 64 ≤ w.ctx then s
  else if w.item.lanes.length ≤ 1 then
    match w.item.src with
    | none => s
    | some (f, pc, xs) => struckTrap (.red f) f pc 4 w.ctx xs
        ((sortNat (·.lane) all).map (fun l => ⟨w.ctx, l.lane, l.va, l.b, l.c⟩)) s c
  else updCore s c (fun k => { k with flight := k.flight.map (fun v =>
    if v.id = w.id then { v with item := { v.item with struck := all } } else v) })

/-- What an atomic reads, and whether an error has struck it; its home slice allocates the line as for a read (R259). -/
def atomRead (s : State) (c : Nat) (w : Flight) (l : QLane) : State × Nat × Bool :=
  let q := w.item
  if q.spm then (s, readLE s.spm l.addr q.size, struckSpm s l.addr q.size)
  else if !isDram l.addr then (s, hubLoad s l.addr q.size, false)
  else
    let r := bringL2 s q.got (l.addr / 64) (some 2) false
    (updCore r.1 c (fun k => { k with flight := k.flight.map (fun v =>
        if v.item.inst = q.inst then { v with item := { v.item with got := r.2 } } else v) }),
     readLE s.mem l.addr q.size, poisoned s l.addr q.size)

/-- ATOMIC_PERFORM (R157, R164, R165, R259, R273): one lane's read-modify-write at its home or bank, indivisible. -/
def execAtomicPerform (core id lane : Nat) (s : State) : Host.Outcome State Fault Refusal :=
  match flightLane (getCore s core) id lane with
  | none => .next s
  | some (w, l) =>
    let q := w.item
    if q.kind ≠ .atom ∧ q.kind ≠ .red then .next s
    else
      let r := atomRead s core w l
      let old := r.2.1
      let bad := r.2.2
      let b := l.b % 256 ^ q.size
      let new := atomNew q.aop (8 * q.size) old b (l.c % 256 ^ q.size)
      let s1 := if bad then s
        else if atomWrites q.aop old b then landLane r.1 core w l (natToBytes q.size new) else r.1
      let s2 := if q.kind = .atom then atomReply s1 core w.ctx id lane old bad (trailRead s.trails q.spm l.addr q.size) else redStruck s1 core w l bad
      .next (stepFree (ackLane s2 core id lane))

/-! ### Walks -/

/-- PAGE_WALK (R262, R329, R345): the walk ends; a leaf that the access may use is filled into the tenant's chunks, the copies
that the waiting cores hold of the entry go, and the queue's entry passes to a waiting miss. -/
def execPageWalk (die id : Nat) (s : State) : Host.Outcome State Fault Refusal :=
  let ws := mget [] s.walks die
  match ws.find? (fun w => w.id == id && w.done.isNone) with
  | none => .next s
  | some w =>
    let va := BitVec.ofNat 64 (w.page * 65536)
    let d := walk s w.tenant va
    let s1 := match d with
      | .leaf f r wr x dd =>
        match walkResult s w.tenant w.need d with
        | .ok _ =>
          let s1 := xlatFill s w.tenant die { v := true, page := w.page, frame := f, x := x, w := wr && dd, r := r,
                                              tag := frameTagOf s f }
          (dedup (w.waiters.map (fun (v : Nat × Nat) => v.1))).foldl (fun s c => updCore s c (fun k => tlbDrop k w.tenant w.page)) s1
        | .error _ => s
      | .fault _ => s
    .next (grantMisses { s1 with
      walks := mset [] s1.walks die (updFirst (fun q => q.id == id) (fun q => { q with done := some d }) ws) } die)

/-! ### Soft errors (R395) -/

/-- A soft error arises (log 23, DESIGN CHOICE): the place is marked until it is written, and a corrected one is counted. -/
def strike (w : Strike) (s : State) : State :=
  match w with
  | .sector sec => if isDram (sec * 64) then { s with poison := mset false s.poison sec true } else s
  | .spm word => { s with badSpm := mset false s.badSpm word true }
  | .reg c x cell => updGroup s c x (fun g => if g.live && !g.bad.contains cell then { g with bad := g.bad ++ [cell] } else g)
  | .l1 c word => updCore s c (fun k => l1Upd k (word / 64) (fun q =>
      if (mget 0 q.secs (word % 64 / 16)) = 0 || q.bad.contains (word % 64) then q else { q with bad := q.bad ++ [word % 64] }))
  | .fetch c b => updCore s c (fun k => if k.ibad.contains b then k else { k with ibad := k.ibad ++ [b] })
  | .tlb c i => updCore s c (fun k => { k with tlb := k.tlb.modify i (fun e => { e with bad := true }) })
  | .xlat key => { s with xlat := if (mget {} s.xlat key).v then mset {} s.xlat key { mget {} s.xlat key with bad := true } else s.xlat }
  | .shadow c role => updCore s c (fun k => { k with regroups := k.regroups.map (fun r =>
      if r.role = role then { r with bad := true } else r) })
  | .journal i => requestStart (setHub s (fun h => { h with journal := (i.map (merase h.journal)).getD h.journal })) false
  | .corrected die kind => { s with corrected := mset 0 s.corrected (die * 8 + kind) (mget 0 s.corrected (die * 8 + kind) + 1) }

end Sys2Proof.Machine
end

