-- ==== Sys2Proof/Machine/Approx.lean ====
section
/-! DEFINITION. The approximated functions (R121, R122). The part's own result is an opaque function of the operand; it is
taken when it lies inside the bound, and the nearest value otherwise, so that nothing beyond the bound can be proved of it
(log 8). The exact result is known to far more bits than the bound needs. -/

namespace Sys2Proof.Machine
open Sys2Proof

/-- A nonzero number as sign and n x 2^e, known to within less than 2^e. -/
structure Near where
  neg : Bool
  n   : Nat
  e   : Int
deriving DecidableEq, Repr

/-- ln 2 x 2^128 and pi x 2^160. -/
def ln2Fix : Nat := 235865763225513294137944142764154484399
def piFix : Nat := 4591442807048218921384805199743311128454155024418

/-- Sum of x^k / k! from k on, in fixed point with `s` fraction bits. -/
def expSeries (s x : Nat) (term k : Nat) : Nat → Nat
  | 0 => 0
  | n + 1 => term + expSeries s x (term * x / 2 ^ s / k) (k + 1) n

/-- 2^f x 2^128 for a fraction f x 2^128. -/
def exp2Frac (f : Nat) : Nat := expSeries 128 (f * ln2Fix / 2 ^ 128) (2 ^ 128) 1 48

/-- sin x, x x 2^160, by its series: term, index, sign of the next term. -/
def sinSeries (x2 : Nat) (term k : Nat) (sub : Bool) : Nat → Int
  | 0 => 0
  | n + 1 =>
    (if sub then -(term : Int) else term) + sinSeries x2 (term * x2 / 2 ^ 160 / (k * (k + 1))) (k + 2) (!sub) n

/-- sin(pi t) x 2^160 for t x 2^160 in [0, 1/2]. -/
def sinPi (t : Nat) : Nat :=
  let x := t * piFix / 2 ^ 160
  (sinSeries (x * x / 2 ^ 160) x 2 false 30).toNat

/-- `n` binary digits of log2 of x x 2^-128, 1 <= x x 2^-128 < 2. -/
def log2Bits (x acc : Nat) : Nat → Nat
  | 0 => acc
  | n + 1 =>
    let y := x * x / 2 ^ 128
    if 2 ^ 129 ≤ y then log2Bits (y / 2) (2 * acc + 1) n else log2Bits y (2 * acc) n

/-- |c - y| <= 2^b for a code c of F32 and the number y. -/
def withinAbs (c : Word) (y : Near) (b : Int) : Bool :=
  match fdecode fF32 c.toNat with
  | .num neg m e =>
    let base := min (min e y.e) b
    let cv : Int := (m * 2 ^ (e - base).toNat : Nat)
    let yv : Int := (y.n * 2 ^ (y.e - base).toNat : Nat)
    let d := (if neg then -cv else cv) - (if y.neg then -yv else yv)
    decide (d.natAbs ≤ 2 ^ (b - base).toNat)
  | _ => false

/-- Exponent of a nonzero number. -/
def Near.expo (y : Near) : Int := y.e + bitLen y.n - 1

/-- Two units in the last place of y, as a power of two (R121). -/
def twoUlp (y : Near) : Int := max y.expo (-126) - 22

/-- Exceptions of an inexact approximated result (R121). -/
def approxExc (c : Word) : Exc :=
  let m := c.toNat % 2 ^ 31
  if m = infCode fF32 then excNX ||| excOF else if m < 2 ^ 23 then excNX ||| excUF else excNX

/-- The value written for an inexact exact result y: the part's value where it lies inside the bound (log 8, DEDUCED). -/
def pickApprox (fn : Nat) (x : Word) (flip : Bool) (y : Near) (b : Int) : Word × Exc :=
  let c := Config.approx fn x
  let v := if withinAbs c y b then c else BitVec.ofNat 32 (roundIeee fF32 .rne y.neg y.n y.e true).1
  (if flip then v ^^^ 0x80000000 else v, approxExc v)

/-- A faithful result: one of the two adjacent values (R121, R122). -/
def pickFaithful (fn : Nat) (x : Word) (neg : Bool) (q : Nat × Int × Bool) : Word × Exc :=
  let lo := roundIeee fF32 .rz neg q.1 q.2.1 q.2.2
  let hi := roundIeee fF32 (if neg then .rd else .ru) neg q.1 q.2.1 q.2.2
  if lo.1 = hi.1 then (BitVec.ofNat 32 lo.1, lo.2)
  else
    let v := BitVec.ofNat 32 (if Config.approx fn x = BitVec.ofNat 32 hi.1 then hi.1 else lo.1)
    (v, approxExc v)

def canonNan : Word := 0x7FC00000

def frcpF (x : Word) : Word × Exc :=
  match fdecode fF32 x.toNat with
  | .nan s => (canonNan, sigExc [.nan s])
  | .inf n => (BitVec.ofNat 32 (signCode fF32 n), 0)
  | .num n m e =>
    if m = 0 then (BitVec.ofNat 32 (infCode fF32 + signCode fF32 n), excDZ)
    else pickFaithful 0 x n (divMag 27 1 0 m e)

def frsqF (x : Word) : Word × Exc :=
  match fdecode fF32 x.toNat with
  | .nan s => (canonNan, sigExc [.nan s])
  | .inf n => if n then (canonNan, excNV) else (0, 0)
  | .num n m e =>
    if m = 0 then (BitVec.ofNat 32 (infCode fF32 + signCode fF32 n), excDZ)
    else if n then (canonNan, excNV)
    else
      -- 1/sqrt(m 2^e) = sqrt(2^-e / m), the quotient kept to 256 bits
      let q := divMag 256 1 0 m e
      let r := sqrtMag 64 q.1 q.2.1
      pickFaithful 1 x false (r.1, r.2.1, r.2.2 || q.2.2)

def fexp2F (x : Word) : Word × Exc :=
  match fdecode fF32 x.toNat with
  | .nan s => (canonNan, sigExc [.nan s])
  | .inf n => if n then (0, 0) else (0x7F800000, 0)
  | .num n m e =>
    let s : Int := (m * 2 ^ (e + 160).toNat : Nat)
    let a := if n then -s else s          -- a x 2^160, exact for every F32 above 2^-160
    if 128 * 2 ^ 160 ≤ a then (0x7F800000, excOF ||| excNX)
    else if a < -150 * 2 ^ 160 then (0, excUF ||| excNX)
    else
      let k := a / 2 ^ 160
      let fr := (a % 2 ^ 160).toNat
      if fr = 0 then
        let r := roundIeee fF32 .rne false 1 k false
        (if r.2 = 0 then (BitVec.ofNat 32 r.1, 0) else pickApprox 2 x false ⟨false, 2 ^ 128, k - 128⟩ (twoUlp ⟨false, 1, k⟩))
      else
        let y : Near := ⟨false, exp2Frac (fr / 2 ^ 32), k - 128⟩
        pickApprox 2 x false y (twoUlp y)

def flog2F (x : Word) : Word × Exc :=
  match fdecode fF32 x.toNat with
  | .nan s => (canonNan, sigExc [.nan s])
  | .inf n => if n then (canonNan, excNV) else (0x7F800000, 0)
  | .num n m e =>
    if m = 0 then (0xFF800000, excDZ)
    else if n then (canonNan, excNV)
    else
      let l := bitLen m
      let k := e + l - 1
      let g := m * 2 ^ (129 - l)           -- mantissa x 2^128
      if g = 2 ^ 128 then
        (if k = 0 then (0, 0) else (BitVec.ofNat 32 (roundIeee fF32 .rne (decide (k < 0)) k.natAbs 0 false).1, 0))
      else
        let v : Int := k * 2 ^ 64 + (log2Bits g 0 64 : Nat)
        let y : Near := ⟨decide (v < 0), v.natAbs, -64⟩
        -- [0.5, 2] is the codes 0x3F00_0000 to 0x4000_0000
        pickApprox 3 x false y (if 0x3F000000 ≤ x.toNat ∧ x.toNat ≤ 0x40000000 then -22 else twoUlp y)

/-- sin or cos of pi |a|; `flip` turns the sign of the result. -/
def sinCosF (fn : Nat) (x : Word) (cosine flip : Bool) (m : Nat) (e : Int) : Word × Exc :=
  -- |a| mod 2 x 2^160, for sine of |a| or of |a| + 1/2
  let a := (m * 2 ^ (e + 160).toNat + (if cosine then 2 ^ 159 else 0)) % 2 ^ 161
  let down := decide (2 ^ 160 ≤ a)
  let t := a % 2 ^ 160
  if t = 0 then ((if flip && !cosine then 0x80000000 else 0), 0)
  else if t = 2 ^ 159 then ((if down != flip then 0xBF800000 else 0x3F800000), 0)
  else
    let u := if 2 ^ 159 < t then 2 ^ 160 - t else t
    pickApprox fn x flip ⟨down, sinPi u, -160⟩ (-22)

def fsinF (x : Word) : Word × Exc :=
  match fdecode fF32 x.toNat with
  | .nan s => (canonNan, sigExc [.nan s])
  | .inf _ => (canonNan, excNV)
  | .num n m e => sinCosF 4 (x &&& 0x7FFFFFFF) false n m e

def fcosF (x : Word) : Word × Exc :=
  match fdecode fF32 x.toNat with
  | .nan s => (canonNan, sigExc [.nan s])
  | .inf _ => (canonNan, excNV)
  | .num _ m e => sinCosF 5 (x &&& 0x7FFFFFFF) true false m e

end Sys2Proof.Machine
end

