-- ==== Sys2Proof/Machine/Float.lean ====
section
/-! DEFINITION. Floating-point instructions, opcodes 0x080 to 0x090 and 0x0A0 to 0x0A5 (R114 to R123). -/

namespace Sys2Proof.Machine
open Sys2Proof

/-- Per-lane floating-point instructions (R114): words and exceptions of a lane; where an enabled exception is raised
the members are held until the results have landed and then trap (R28). -/
def perLaneFp (lat : Option Nat) (n : Nat) (val : State → Nat → Nat → Nat → List Word × Exc) (f : Fields) (pc : Dword)
    (ms : Members) (s : State) : Res :=
  let c := s.cur.1
  let r := postFp s c pc (nextPc pc f) ms (fpPends s c f ms lat n (fun t x l => val t c x l))
  if r.2 then .park true .hold r.1 else .ok r.1

/-- The value of an F32 word, with its sign flipped or cleared by MOD[2] (R114). -/
def f32 (a : Word) : FVal := fdecode fF32 a.toNat
def f32Neg (f : Fields) (a : Word) : FVal := if f.mod.getLsbD 2 then fneg (f32 a) else f32 a
def f32Abs (f : Fields) (a : Word) : FVal := if f.mod.getLsbD 2 then fabs (f32 a) else f32 a
def absBits (f : Fields) (a : Word) : Word := if f.mod.getLsbD 2 then a &&& 0x7FFFFFFF else a

/-- The rounding mode of MOD[1:0] (R59). -/
def rmOf (f : Fields) : RMode := rmodeOf (f.mod.toNat % 4)

def one32 (r : Nat × Exc) : List Word × Exc := ([BitVec.ofNat 32 r.1], r.2)
def oneWord (r : Word × Exc) : List Word × Exc := ([r.1], r.2)

/-- FADD, FSUB, FMUL, FFMA (R116). -/
def faddWord (f : Fields) (a b : Word) : Nat × Exc := finish fF32 (rmOf f) (addVal (rmOf f) (f32Neg f a) (f32 b))
def fsubWord (f : Fields) (a b : Word) : Nat × Exc := finish fF32 (rmOf f) (addVal (rmOf f) (f32Neg f a) (fneg (f32 b)))
def fmulWord (f : Fields) (a b : Word) : Nat × Exc := finish fF32 (rmOf f) (mulVal (f32Neg f a) (f32 b))
def ffmaWord (f : Fields) (a b c : Word) : Nat × Exc :=
  finish fF32 (rmOf f) (fmaVal (rmOf f) (f32Neg f a) (f32 b) (f32 c))

/-- FCMP's word (R119). -/
def fcmpWord (cond : Nat) (a b : Word) : Word × Exc :=
  let r := fcmpF cond (f32 a) (f32 b)
  (if r.1 then 1 else 0, r.2)

/-- Element k of a packed register, and two elements packed (R35, R123). -/
def half (a : Word) (k : Nat) : Nat := a.toNat / 2 ^ (16 * k) % 65536
def pack2 (r0 r1 : Nat × Exc) : List Word × Exc := ([BitVec.ofNat 32 (r0.1 + 65536 * r1.1)], r0.2 ||| r1.2)

/-- The packed format of MOD[2] (R114). -/
def pFmt (f : Fields) : Fmt := if f.mod.getLsbD 2 then fB16 else fF16
def pVal (f : Fields) (a : Word) (k : Nat) : FVal := fdecode (pFmt f) (half a k)

def paddElem (f : Fields) (a b : Word) (k : Nat) : Nat × Exc :=
  finish (pFmt f) (rmOf f) (addVal (rmOf f) (pVal f a k) (pVal f b k))
def pmulElem (f : Fields) (a b : Word) (k : Nat) : Nat × Exc :=
  finish (pFmt f) (rmOf f) (mulVal (pVal f a k) (pVal f b k))
def pfmaElem (f : Fields) (a b c : Word) (k : Nat) : Nat × Exc :=
  finish (pFmt f) (rmOf f) (fmaVal (rmOf f) (pVal f a k) (pVal f b k) (pVal f c k))
def pminmaxElem (f : Fields) (isMax : Bool) (a b : Word) (k : Nat) : Nat × Exc :=
  fminmax (pFmt f) isMax (f.mod.getLsbD 0) (half a k) (half b k)

/-- PDOT2 (R123): two exact products and a sum, rounded once to F32. With opposite infinities and a quiet NaN among the three terms
NV is raised where the infinities are the two products, which are added first (log 91, DESIGN CHOICE). -/
def pdotWord (f : Fields) (a b c : Word) : Nat × Exc :=
  let p0 := mulVal (pVal f a 0) (pVal f b 0)
  let p1 := mulVal (pVal f a 1) (pVal f b 1)
  let s := addVal (rmOf f) p0.1 p1.1
  let t := addVal (rmOf f) s.1 (f32 c)
  let r := packVal fF32 (rmOf f) t.1
  (r.1, p0.2 ||| p1.2 ||| s.2 ||| t.2 ||| sigExc [f32 c] ||| r.2)

/-- FADD (R116). -/
def performFadd (f : Fields) : Dword → Members → State → Res := perLaneFp (some 6) 1 (fun t c x l =>
  one32 (faddWord f (opA t c x f l) (opB t c x f l))) f
def execFadd (f : Fields) (s : State) : Host.Outcome State Fault Refusal := issue 0x080 f (performFadd f) s

/-- FSUB (R116). -/
def performFsub (f : Fields) : Dword → Members → State → Res := perLaneFp (some 6) 1 (fun t c x l =>
  one32 (fsubWord f (opA t c x f l) (opB t c x f l))) f
def execFsub (f : Fields) (s : State) : Host.Outcome State Fault Refusal := issue 0x081 f (performFsub f) s

/-- FMUL (R116). -/
def performFmul (f : Fields) : Dword → Members → State → Res := perLaneFp (some 6) 1 (fun t c x l =>
  one32 (fmulWord f (opA t c x f l) (opB t c x f l))) f
def execFmul (f : Fields) (s : State) : Host.Outcome State Fault Refusal := issue 0x082 f (performFmul f) s

/-- FFMA (R116). -/
def performFfma (f : Fields) : Dword → Members → State → Res := perLaneFp (some 6) 1 (fun t c x l =>
  one32 (ffmaWord f (opA t c x f l) (opB t c x f l) (opC t c x f l))) f
def execFfma (f : Fields) (s : State) : Host.Outcome State Fault Refusal := issue 0x083 f (performFfma f) s

/-- FMIN (R117). -/
def performFmin (f : Fields) : Dword → Members → State → Res := perLaneFp (some 6) 1 (fun t c x l =>
  one32 (fminmax fF32 false (f.mod.getLsbD 0) (opA t c x f l).toNat (opB t c x f l).toNat)) f
def execFmin (f : Fields) (s : State) : Host.Outcome State Fault Refusal := issue 0x084 f (performFmin f) s

/-- FMAX (R117). -/
def performFmax (f : Fields) : Dword → Members → State → Res := perLaneFp (some 6) 1 (fun t c x l =>
  one32 (fminmax fF32 true (f.mod.getLsbD 0) (opA t c x f l).toNat (opB t c x f l).toNat)) f
def execFmax (f : Fields) (s : State) : Host.Outcome State Fault Refusal := issue 0x085 f (performFmax f) s

/-- FCMP (R119). -/
def performFcmp (f : Fields) : Dword → Members → State → Res := perLaneFp (some 6) 1 (fun t c x l =>
  oneWord (fcmpWord f.mod.toNat (opA t c x f l) (opB t c x f l))) f
def execFcmp (f : Fields) (s : State) : Host.Outcome State Fault Refusal := issue 0x086 f (performFcmp f) s

/-- FRND (R118). -/
def performFrnd (f : Fields) : Dword → Members → State → Res := perLaneFp (some 6) 1 (fun t c x l =>
  one32 (frndF fF32 (rmOf f) (f32Abs f (opA t c x f l)))) f
def execFrnd (f : Fields) (s : State) : Host.Outcome State Fault Refusal := issue 0x087 f (performFrnd f) s

/-- FRCP (R121, R122). -/
def performFrcp (f : Fields) : Dword → Members → State → Res := perLaneFp none 1 (fun t c x l =>
  oneWord (frcpF (absBits f (opA t c x f l)))) f
def execFrcp (f : Fields) (s : State) : Host.Outcome State Fault Refusal := issue 0x088 f (performFrcp f) s

/-- FRSQ (R121, R122). -/
def performFrsq (f : Fields) : Dword → Members → State → Res := perLaneFp none 1 (fun t c x l =>
  oneWord (frsqF (absBits f (opA t c x f l)))) f
def execFrsq (f : Fields) (s : State) : Host.Outcome State Fault Refusal := issue 0x089 f (performFrsq f) s

/-- FSQRT (R116). -/
def performFsqrt (f : Fields) : Dword → Members → State → Res := perLaneFp none 1 (fun t c x l =>
  one32 (fsqrtF fF32 (rmOf f) (f32Abs f (opA t c x f l)))) f
def execFsqrt (f : Fields) (s : State) : Host.Outcome State Fault Refusal := issue 0x08A f (performFsqrt f) s

/-- FDIV (R116). -/
def performFdiv (f : Fields) : Dword → Members → State → Res := perLaneFp none 1 (fun t c x l =>
  one32 (fdivF fF32 (rmOf f) (f32Neg f (opA t c x f l)) (f32 (opB t c x f l)))) f
def execFdiv (f : Fields) (s : State) : Host.Outcome State Fault Refusal := issue 0x08B f (performFdiv f) s

/-- FEXP2 (R121, R122). -/
def performFexp2 (f : Fields) : Dword → Members → State → Res := perLaneFp none 1 (fun t c x l =>
  oneWord (fexp2F (absBits f (opA t c x f l)))) f
def execFexp2 (f : Fields) (s : State) : Host.Outcome State Fault Refusal := issue 0x08C f (performFexp2 f) s

/-- FLOG2 (R121, R122). -/
def performFlog2 (f : Fields) : Dword → Members → State → Res := perLaneFp none 1 (fun t c x l =>
  oneWord (flog2F (absBits f (opA t c x f l)))) f
def execFlog2 (f : Fields) (s : State) : Host.Outcome State Fault Refusal := issue 0x08D f (performFlog2 f) s

/-- FSIN (R121, R122). -/
def performFsin (f : Fields) : Dword → Members → State → Res := perLaneFp none 1 (fun t c x l =>
  oneWord (fsinF (absBits f (opA t c x f l)))) f
def execFsin (f : Fields) (s : State) : Host.Outcome State Fault Refusal := issue 0x08E f (performFsin f) s

/-- FCOS (R121, R122). -/
def performFcos (f : Fields) : Dword → Members → State → Res := perLaneFp none 1 (fun t c x l =>
  oneWord (fcosF (absBits f (opA t c x f l)))) f
def execFcos (f : Fields) (s : State) : Host.Outcome State Fault Refusal := issue 0x08F f (performFcos f) s

/-- FCLASS (R120). -/
def performFclass (f : Fields) : Dword → Members → State → Res := perLaneFp (some 6) 1 (fun t c x l =>
  ([BitVec.ofNat 32 (fclassF fF32 (opA t c x f l).toNat)], 0)) f
def execFclass (f : Fields) (s : State) : Host.Outcome State Fault Refusal := issue 0x090 f (performFclass f) s

/-- PADD2 (R123). -/
def performPadd2 (f : Fields) : Dword → Members → State → Res := perLaneFp (some 6) 1 (fun t c x l =>
  pack2 (paddElem f (opA t c x f l) (opB t c x f l) 0) (paddElem f (opA t c x f l) (opB t c x f l) 1)) f
def execPadd2 (f : Fields) (s : State) : Host.Outcome State Fault Refusal := issue 0x0A0 f (performPadd2 f) s

/-- PMUL2 (R123). -/
def performPmul2 (f : Fields) : Dword → Members → State → Res := perLaneFp (some 6) 1 (fun t c x l =>
  pack2 (pmulElem f (opA t c x f l) (opB t c x f l) 0) (pmulElem f (opA t c x f l) (opB t c x f l) 1)) f
def execPmul2 (f : Fields) (s : State) : Host.Outcome State Fault Refusal := issue 0x0A1 f (performPmul2 f) s

/-- PFMA2 (R123). -/
def performPfma2 (f : Fields) : Dword → Members → State → Res := perLaneFp (some 6) 1 (fun t c x l =>
  pack2 (pfmaElem f (opA t c x f l) (opB t c x f l) (opC t c x f l) 0) (pfmaElem f (opA t c x f l) (opB t c x f l) (opC t c x f l) 1)) f
def execPfma2 (f : Fields) (s : State) : Host.Outcome State Fault Refusal := issue 0x0A2 f (performPfma2 f) s

/-- PMIN2 (R123, R117). -/
def performPmin2 (f : Fields) : Dword → Members → State → Res := perLaneFp (some 6) 1 (fun t c x l =>
  pack2 (pminmaxElem f false (opA t c x f l) (opB t c x f l) 0) (pminmaxElem f false (opA t c x f l) (opB t c x f l) 1)) f
def execPmin2 (f : Fields) (s : State) : Host.Outcome State Fault Refusal := issue 0x0A3 f (performPmin2 f) s

/-- PMAX2 (R123, R117). -/
def performPmax2 (f : Fields) : Dword → Members → State → Res := perLaneFp (some 6) 1 (fun t c x l =>
  pack2 (pminmaxElem f true (opA t c x f l) (opB t c x f l) 0) (pminmaxElem f true (opA t c x f l) (opB t c x f l) 1)) f
def execPmax2 (f : Fields) (s : State) : Host.Outcome State Fault Refusal := issue 0x0A4 f (performPmax2 f) s

/-- PDOT2 (R123). -/
def performPdot2 (f : Fields) : Dword → Members → State → Res := perLaneFp (some 6) 1 (fun t c x l =>
  one32 (pdotWord f (opA t c x f l) (opB t c x f l) (opC t c x f l))) f
def execPdot2 (f : Fields) (s : State) : Host.Outcome State Fault Refusal := issue 0x0A5 f (performPdot2 f) s

end Sys2Proof.Machine
end

