-- ==== Sys2Proof/Machine/Convert.lean ====
section
/-! DEFINITION. Conversion, ternary packing and scaled accumulation, opcodes 0x100 to 0x106 (R124 to R132). -/

namespace Sys2Proof.Machine
open Sys2Proof

/-- Element k of a register in elements of `w` bits (R35). -/
def elemOf (a : Word) (w k : Nat) : Nat := a.toNat / 2 ^ (w * k) % 2 ^ w

/-- A result in the low bits of a register: sign-extended for an S target, zero-extended otherwise (R126). -/
def extendTo (dst r : Nat) : Word :=
  if isFloatCode dst || !isSignedCode dst then BitVec.ofNat 32 r else BitVec.ofInt 32 (intDecode dst r)

/-- CVT (R126). -/
def cvtWord (f : Fields) (a : Word) : List Word × Exc :=
  let dst := (f.imm.extractLsb' 0 4).toNat
  let src := (f.imm.extractLsb' 4 4).toNat
  let r := convert src dst (rmOf f) (f.mod.getLsbD 2) (elemOf a (fmtWidth src) (f.imm.extractLsb' 8 3).toNat)
  ([extendTo dst r.1], r.2)

def narrow (f : Fields) (x : Word) : Nat × Exc := convert 0 f.sub.toNat (rmOf f) (f.mod.getLsbD 2) x.toNat

/-- CVTPK (R127). -/
def cvtpkWord (f : Fields) (a b : Word) : List Word × Exc := pack2 (narrow f a) (narrow f b)

/-- CVTN (R128): four 8-bit elements, or four 4-bit elements above the upper half of c. -/
def cvtnWord (f : Fields) (a b : Dword) (c : Word) : List Word × Exc :=
  let rs := [narrow f (lo32 a), narrow f (hi32 a), narrow f (lo32 b), narrow f (hi32 b)]
  let w := fmtWidth f.sub.toNat
  let v := rs.foldr (fun r acc => r.1 + 2 ^ w * acc) 0
  ([if w = 8 then BitVec.ofNat 32 v else BitVec.ofNat 32 (v * 65536 + c.toNat / 65536)], orExc (rs.map (·.2)))

/-- CVTW (R129). -/
def cvtwPair (f : Fields) (a : Word) : List Word × Exc :=
  let src := f.sub.toNat
  let n := f.mod.toNat
  let r := fun k => convert src 0 .rne false (elemOf a (fmtWidth src) k)
  ([BitVec.ofNat 32 (r (2 * n)).1, BitVec.ofNat 32 (r (2 * n + 1)).1], (r (2 * n)).2 ||| (r (2 * n + 1)).2)

/-- The S8 element n of a run (R130): byte n mod 4 of register n div 4. -/
def s8Elem (run : Nat → Word) (n : Nat) : Int := intDecode 10 (elemOf (run (n / 4)) 8 (n % 4))

/-- TERPK (R130). -/
def terpkWord (run : Nat → Word) (t : Word) : Word :=
  let trit := fun n => let x := s8Elem run n; if t.toInt < x then 1 else if x < -t.toInt then 2 else 0
  let byte := fun j => (List.range 5).foldr (fun i acc => trit (5 * j + i) + 3 * acc) 0
  BitVec.ofNat 32 ((List.range 4).foldr (fun j acc => byte j + 256 * acc) 0)

/-- TERUNPK (R131): twenty elements in five registers; an invalid byte gives zeros and raises NV. -/
def terunpkRun (a : Word) : List Word × Exc :=
  let el := fun n => intCode 8 (terVal (terDigit (elemOf a 8 (n / 5)) (n % 5)))
  ((List.range 5).map (fun k => BitVec.ofNat 32 ((List.range 4).foldr (fun i acc => el (4 * k + i) + 256 * acc) 0)),
   if (List.range 4).any (fun j => decide (243 ≤ elemOf a 8 j)) then excNV else 0)

/-- SCACC (R132). -/
def scaccWord (f : Fields) (a b c : Word) : Nat × Exc :=
  let x := if f.sub = 0 then f32 a else intVal a.toInt
  finish fF32 (rmOf f) (fmaVal (rmOf f) x (f32 b) (f32 c))

/-- CVT (R126). -/
def performCvt (f : Fields) : Dword → Members → State → Res := perLaneFp (some 6) 1 (fun t c x l =>
  cvtWord f (opA t c x f l)) f
def execCvt (f : Fields) (s : State) : Host.Outcome State Fault Refusal := issue 0x100 f (performCvt f) s

/-- CVTPK (R127). -/
def performCvtpk (f : Fields) : Dword → Members → State → Res := perLaneFp (some 6) 1 (fun t c x l =>
  cvtpkWord f (opA t c x f l) (opB t c x f l)) f
def execCvtpk (f : Fields) (s : State) : Host.Outcome State Fault Refusal := issue 0x101 f (performCvtpk f) s

/-- CVTN (R128). -/
def performCvtn (f : Fields) : Dword → Members → State → Res := perLaneFp (some 6) 1 (fun t c x l =>
  cvtnWord f (pairA t c x f l) (pairB t c x f l) (opC t c x f l)) f
def execCvtn (f : Fields) (s : State) : Host.Outcome State Fault Refusal := issue 0x102 f (performCvtn f) s

/-- CVTW (R129). -/
def performCvtw (f : Fields) : Dword → Members → State → Res := perLaneFp (some 6) 2 (fun t c x l =>
  cvtwPair f (opA t c x f l)) f
def execCvtw (f : Fields) (s : State) : Host.Outcome State Fault Refusal := issue 0x103 f (performCvtw f) s

/-- TERPK (R130). -/
def performTerpk (f : Fields) : Dword → Members → State → Res := perLaneFp (some 6) 1 (fun t c x l =>
  ([terpkWord (fun k => runA t c x f k (srcLane f (widthOf t c x) false l)) (opC t c x f l)], 0)) f
def execTerpk (f : Fields) (s : State) : Host.Outcome State Fault Refusal := issue 0x104 f (performTerpk f) s

/-- TERUNPK (R131). -/
def performTerunpk (f : Fields) : Dword → Members → State → Res := perLaneFp (some 6) 5 (fun t c x l =>
  terunpkRun (opA t c x f l)) f
def execTerunpk (f : Fields) (s : State) : Host.Outcome State Fault Refusal := issue 0x105 f (performTerunpk f) s

/-- SCACC (R132). -/
def performScacc (f : Fields) : Dword → Members → State → Res := perLaneFp (some 6) 1 (fun t c x l =>
  one32 (scaccWord f (opA t c x f l) (opB t c x f l) (opC t c x f l))) f
def execScacc (f : Fields) (s : State) : Host.Outcome State Fault Refusal := issue 0x106 f (performScacc f) s

end Sys2Proof.Machine
end

