-- ==== Sys2Proof/Machine/Integer.lean ====
section
/-! DEFINITION. Integer and logic instructions, opcodes 0x000 to 0x026 (R89 to R103): a pure function of the operands of
a lane for each, and the instruction over it. -/

namespace Sys2Proof.Machine
open Sys2Proof

/-- Per-lane instructions (R89): each executing lane's result from its own operands, to `n` registers from D, with
latency `lat` (R68; none: variable). -/
def perLane (lat : Option Nat) (n : Nat) (val : State → Nat → Nat → Nat → List Word) (f : Fields) (_pc : Dword)
    (ms : Members) (s : State) : Res :=
  .ok (postResults s s.cur.1 f ms lat n (fun t x l => val t s.cur.1 x l))

/-- A saturating form: the exact value clamped (R91). -/
def satWord (x lo hi : Int) : Word := BitVec.ofInt 32 (satInt x lo hi)
def satDword (x lo hi : Int) : Dword := BitVec.ofInt 64 (satInt x lo hi)

/-- A carry or borrow bit. -/
def carryWord (x : Int) : Word := if x < 0 ∨ 2 ^ 32 ≤ x then 1 else 0

/-- IADD and ISUB (R91): modes none, `.sats`, `.satn` and `.co`. -/
def addWords (mod : Nat) (a b : Word) : List Word :=
  if mod = 0 then [a + b]
  else if mod = 1 then [satWord (a.toInt + b.toInt) minS32 maxS32]
  else if mod = 2 then [satWord ((a.toNat : Int) + b.toNat) 0 maxN32]
  else [a + b, carryWord ((a.toNat : Int) + b.toNat)]
def subWords (mod : Nat) (a b : Word) : List Word :=
  if mod = 0 then [a - b]
  else if mod = 1 then [satWord (a.toInt - b.toInt) minS32 maxS32]
  else if mod = 2 then [satWord ((a.toNat : Int) - b.toNat) 0 maxN32]
  else [a - b, carryWord ((a.toNat : Int) - b.toNat)]

/-- IADD64 and ISUB64 (R91). -/
def add64 (mod : Nat) (a b : Dword) : Dword :=
  if mod = 0 then a + b
  else if mod = 1 then satDword (a.toInt + b.toInt) (-(2 ^ 63)) (2 ^ 63 - 1)
  else satDword ((a.toNat : Int) + b.toNat) 0 (2 ^ 64 - 1)
def sub64 (mod : Nat) (a b : Dword) : Dword :=
  if mod = 0 then a - b
  else if mod = 1 then satDword (a.toInt - b.toInt) (-(2 ^ 63)) (2 ^ 63 - 1)
  else satDword ((a.toNat : Int) - b.toNat) 0 (2 ^ 64 - 1)

/-- The reading of a word under a signedness: `.s32` (MOD 000) or `.n32` (MOD 001) (R90). -/
def readAs (mod : Nat) (a : Word) : Int := if mod = 0 then a.toInt else a.toNat

/-- IMULH (R92): bits [63:32] of the exact product. -/
def mulHigh (mod : Nat) (a b : Word) : Word := hi32 (BitVec.ofInt 64 (readAs mod a * readAs mod b))
/-- IMADW (R92). -/
def madWide (mod : Nat) (a b : Word) (c : Dword) : Dword := BitVec.ofInt 64 (readAs mod a * readAs mod b) + c

/-- IMIN, IMAX (R93). -/
def minWord (mod : Nat) (a b : Word) : Word := if readAs mod a ≤ readAs mod b then a else b
def maxWord (mod : Nat) (a b : Word) : Word := if readAs mod a ≤ readAs mod b then b else a
/-- IABS (R93). -/
def absWord (mod : Nat) (a : Word) : Word :=
  if mod = 1 ∧ a = 0x80000000 then 0x7FFFFFFF else if a.toInt < 0 then 0 - a else a

/-- IDIV, IREM (R94): truncated toward zero; a zero divisor gives all ones and the dividend. -/
def divWord (mod : Nat) (a b : Word) : Word :=
  if b = 0 then 0xFFFFFFFF else BitVec.ofInt 32 ((readAs mod a).tdiv (readAs mod b))
def remWord (mod : Nat) (a b : Word) : Word :=
  if b = 0 then a else BitVec.ofInt 32 ((readAs mod a).tmod (readAs mod b))

/-- The conditions of R95. -/
def cmpHolds (mod : Nat) (a b : Word) : Bool :=
  if mod = 0 then a == b
  else if mod = 1 then a != b
  else if mod = 2 then decide (a.toInt < b.toInt)
  else if mod = 3 then decide (a.toInt ≤ b.toInt)
  else if mod = 4 then decide (a.toNat < b.toNat)
  else if mod = 5 then decide (a.toNat ≤ b.toNat)
  else if mod = 6 then decide (b.toInt < a.toInt)
  else decide (b.toNat < a.toNat)
def boolWord (p : Bool) : Word := if p then 1 else 0

/-- SEL (R96). -/
def selWord (a b c : Word) : Word := if c ≠ 0 then a else b

/-- LOP3 (R97): bit i is the bit of the table that the three source bits select. -/
def lop3Word (lut : Nat) (a b c : Word) : Word :=
  let pick := fun (sel : Nat) (x y z : Word) => if lut.testBit sel then x &&& y &&& z else 0
  pick 0 (~~~a) (~~~b) (~~~c) ||| pick 1 a (~~~b) (~~~c) ||| pick 2 (~~~a) b (~~~c) ||| pick 3 a b (~~~c) |||
  pick 4 (~~~a) (~~~b) c ||| pick 5 a (~~~b) c ||| pick 6 (~~~a) b c ||| pick 7 a b c

/-- SHL, SHR, SAR (R98): clamp (MOD 000) or `.wrap` (MOD 001). -/
def shiftCount (mod : Nat) (b : Word) : Nat := if mod = 1 then b.toNat % 32 else min b.toNat 32
def shlWord (mod : Nat) (a b : Word) : Word := a <<< shiftCount mod b
def shrWord (mod : Nat) (a b : Word) : Word := a >>> shiftCount mod b
def sarWord (mod : Nat) (a b : Word) : Word := a.sshiftRight (shiftCount mod b)
/-- SHF (R98) on the value with b in its high half. -/
def shfWord (mod : Nat) (a b c : Word) : Word :=
  let v : Dword := b ++ a
  let n := if 2 ≤ mod then c.toNat % 32 else min c.toNat 32
  if mod % 2 = 0 then hi32 (v <<< n) else lo32 (v >>> n)

/-- BFE (R99): `.n32` (MOD 000) or `.s32` (MOD 001). -/
def bfeWord (mod : Nat) (a b c : Word) : Word :=
  let p := min (b.toNat % 256) 32
  let k := min (c.toNat % 256) (32 - p)
  let v := a.toNat / 2 ^ p % 2 ^ k
  if mod = 1 ∧ k ≠ 0 ∧ v.testBit (k - 1) then BitVec.ofInt 32 ((v : Int) - 2 ^ k) else BitVec.ofNat 32 v
/-- BFI (R99). -/
def bfiWord (a b c : Word) : Word :=
  let p := min (c.toNat % 256) 32
  let k := min (c.toNat / 256 % 256) (32 - p)
  let m : Word := BitVec.ofNat 32 ((2 ^ k - 1) * 2 ^ p)
  (b &&& ~~~m) ||| ((a <<< p) &&& m)

/-- POPC, CLZ, BREV (R100). -/
def popcWord (a : Word) : Word := BitVec.ofNat 32 ((List.range 32).filter (fun i => a.getLsbD i)).length
def clzWord (a : Word) : Word := BitVec.ofNat 32 (if a = 0 then 32 else 31 - Nat.log2 a.toNat)
def brevWord (a : Word) : Word :=
  BitVec.ofNat 32 ((List.range 32).foldl (fun v i => if a.getLsbD i then v + 2 ^ (31 - i) else v) 0)

/-- LEA (R101): b extended, `.s32` (MOD 000) or `.n32` (MOD 001), shifted left by SUB. -/
def leaPair (mod k : Nat) (a : Dword) (b : Word) : Dword :=
  a + ((if mod = 0 then b.signExtend 64 else b.setWidth 64) <<< k)

/-- MOVI (R102): IMM32, sign-extended to a pair with `.64`. -/
def moviWords (mod : Nat) (imm : Word) : List Word :=
  if mod = 1 then pairWords (imm.signExtend 64) else [imm]

/-- NOP (R103). -/
def performNop (_f : Fields) (_pc : Dword) (_ms : Members) (s : State) : Res := .ok s
def execNop (f : Fields) (s : State) : Host.Outcome State Fault Refusal := issue 0x000 f (performNop f) s

/-- IADD (R91). -/
def performIadd (f : Fields) : Dword → Members → State → Res :=
  perLane (some 4) (if f.mod = 3 then 2 else 1) (fun t c x l => addWords f.mod.toNat (opA t c x f l) (opB t c x f l)) f
def execIadd (f : Fields) (s : State) : Host.Outcome State Fault Refusal := issue 0x001 f (performIadd f) s

/-- ISUB (R91). -/
def performIsub (f : Fields) : Dword → Members → State → Res :=
  perLane (some 4) (if f.mod = 3 then 2 else 1) (fun t c x l => subWords f.mod.toNat (opA t c x f l) (opB t c x f l)) f
def execIsub (f : Fields) (s : State) : Host.Outcome State Fault Refusal := issue 0x002 f (performIsub f) s

/-- IADD64 (R91). -/
def performIadd64 (f : Fields) : Dword → Members → State → Res :=
  perLane (some 4) 2 (fun t c x l => pairWords (add64 f.mod.toNat (pairA t c x f l) (pairB t c x f l))) f
def execIadd64 (f : Fields) (s : State) : Host.Outcome State Fault Refusal := issue 0x003 f (performIadd64 f) s

/-- ISUB64 (R91). -/
def performIsub64 (f : Fields) : Dword → Members → State → Res :=
  perLane (some 4) 2 (fun t c x l => pairWords (sub64 f.mod.toNat (pairA t c x f l) (pairB t c x f l))) f
def execIsub64 (f : Fields) (s : State) : Host.Outcome State Fault Refusal := issue 0x004 f (performIsub64 f) s

/-- IMUL (R92). -/
def performImul (f : Fields) : Dword → Members → State → Res :=
  perLane (some 6) 1 (fun t c x l => [opA t c x f l * opB t c x f l]) f
def execImul (f : Fields) (s : State) : Host.Outcome State Fault Refusal := issue 0x005 f (performImul f) s

/-- IMULH (R92). -/
def performImulh (f : Fields) : Dword → Members → State → Res :=
  perLane (some 6) 1 (fun t c x l => [mulHigh f.mod.toNat (opA t c x f l) (opB t c x f l)]) f
def execImulh (f : Fields) (s : State) : Host.Outcome State Fault Refusal := issue 0x006 f (performImulh f) s

/-- IMAD (R92). -/
def performImad (f : Fields) : Dword → Members → State → Res :=
  perLane (some 6) 1 (fun t c x l => [opA t c x f l * opB t c x f l + opC t c x f l]) f
def execImad (f : Fields) (s : State) : Host.Outcome State Fault Refusal := issue 0x007 f (performImad f) s

/-- IMADW (R92). -/
def performImadw (f : Fields) : Dword → Members → State → Res :=
  perLane (some 6) 2 (fun t c x l => pairWords (madWide f.mod.toNat (opA t c x f l) (opB t c x f l) (pairC t c x f l))) f
def execImadw (f : Fields) (s : State) : Host.Outcome State Fault Refusal := issue 0x008 f (performImadw f) s

/-- IMIN (R93). -/
def performImin (f : Fields) : Dword → Members → State → Res :=
  perLane (some 4) 1 (fun t c x l => [minWord f.mod.toNat (opA t c x f l) (opB t c x f l)]) f
def execImin (f : Fields) (s : State) : Host.Outcome State Fault Refusal := issue 0x009 f (performImin f) s

/-- IMAX (R93). -/
def performImax (f : Fields) : Dword → Members → State → Res :=
  perLane (some 4) 1 (fun t c x l => [maxWord f.mod.toNat (opA t c x f l) (opB t c x f l)]) f
def execImax (f : Fields) (s : State) : Host.Outcome State Fault Refusal := issue 0x00A f (performImax f) s

/-- IABS (R93). -/
def performIabs (f : Fields) : Dword → Members → State → Res :=
  perLane (some 4) 1 (fun t c x l => [absWord f.mod.toNat (opA t c x f l)]) f
def execIabs (f : Fields) (s : State) : Host.Outcome State Fault Refusal := issue 0x00B f (performIabs f) s

/-- IDIV (R94). -/
def performIdiv (f : Fields) : Dword → Members → State → Res :=
  perLane none 1 (fun t c x l => [divWord f.mod.toNat (opA t c x f l) (opB t c x f l)]) f
def execIdiv (f : Fields) (s : State) : Host.Outcome State Fault Refusal := issue 0x00C f (performIdiv f) s

/-- IREM (R94). -/
def performIrem (f : Fields) : Dword → Members → State → Res :=
  perLane none 1 (fun t c x l => [remWord f.mod.toNat (opA t c x f l) (opB t c x f l)]) f
def execIrem (f : Fields) (s : State) : Host.Outcome State Fault Refusal := issue 0x00D f (performIrem f) s

/-- ICMP (R95). -/
def performIcmp (f : Fields) : Dword → Members → State → Res :=
  perLane (some 4) 1 (fun t c x l => [boolWord (cmpHolds f.mod.toNat (opA t c x f l) (opB t c x f l))]) f
def execIcmp (f : Fields) (s : State) : Host.Outcome State Fault Refusal := issue 0x00E f (performIcmp f) s

/-- SEL (R96). -/
def performSel (f : Fields) : Dword → Members → State → Res :=
  perLane (some 4) 1 (fun t c x l => [selWord (opA t c x f l) (opB t c x f l) (opC t c x f l)]) f
def execSel (f : Fields) (s : State) : Host.Outcome State Fault Refusal := issue 0x00F f (performSel f) s

/-- AND (R97). -/
def performAnd (f : Fields) : Dword → Members → State → Res :=
  perLane (some 4) 1 (fun t c x l => [opA t c x f l &&& opB t c x f l]) f
def execAnd (f : Fields) (s : State) : Host.Outcome State Fault Refusal := issue 0x010 f (performAnd f) s

/-- OR (R97). -/
def performOr (f : Fields) : Dword → Members → State → Res :=
  perLane (some 4) 1 (fun t c x l => [opA t c x f l ||| opB t c x f l]) f
def execOr (f : Fields) (s : State) : Host.Outcome State Fault Refusal := issue 0x011 f (performOr f) s

/-- XOR (R97). -/
def performXor (f : Fields) : Dword → Members → State → Res :=
  perLane (some 4) 1 (fun t c x l => [opA t c x f l ^^^ opB t c x f l]) f
def execXor (f : Fields) (s : State) : Host.Outcome State Fault Refusal := issue 0x012 f (performXor f) s

/-- ANDN (R97). -/
def performAndn (f : Fields) : Dword → Members → State → Res :=
  perLane (some 4) 1 (fun t c x l => [opA t c x f l &&& ~~~ (opB t c x f l)]) f
def execAndn (f : Fields) (s : State) : Host.Outcome State Fault Refusal := issue 0x013 f (performAndn f) s

/-- NOT (R97). -/
def performNot (f : Fields) : Dword → Members → State → Res :=
  perLane (some 4) 1 (fun t c x l => [~~~ (opA t c x f l)]) f
def execNot (f : Fields) (s : State) : Host.Outcome State Fault Refusal := issue 0x014 f (performNot f) s

/-- LOP3 (R97). -/
def performLop3 (f : Fields) : Dword → Members → State → Res :=
  perLane (some 4) 1 (fun t c x l => [lop3Word f.imm.toNat (opA t c x f l) (opB t c x f l) (opC t c x f l)]) f
def execLop3 (f : Fields) (s : State) : Host.Outcome State Fault Refusal := issue 0x015 f (performLop3 f) s

/-- SHL (R98). -/
def performShl (f : Fields) : Dword → Members → State → Res :=
  perLane (some 4) 1 (fun t c x l => [shlWord f.mod.toNat (opA t c x f l) (opB t c x f l)]) f
def execShl (f : Fields) (s : State) : Host.Outcome State Fault Refusal := issue 0x016 f (performShl f) s

/-- SHR (R98). -/
def performShr (f : Fields) : Dword → Members → State → Res :=
  perLane (some 4) 1 (fun t c x l => [shrWord f.mod.toNat (opA t c x f l) (opB t c x f l)]) f
def execShr (f : Fields) (s : State) : Host.Outcome State Fault Refusal := issue 0x017 f (performShr f) s

/-- SAR (R98). -/
def performSar (f : Fields) : Dword → Members → State → Res :=
  perLane (some 4) 1 (fun t c x l => [sarWord f.mod.toNat (opA t c x f l) (opB t c x f l)]) f
def execSar (f : Fields) (s : State) : Host.Outcome State Fault Refusal := issue 0x018 f (performSar f) s

/-- SHF (R98). -/
def performShf (f : Fields) : Dword → Members → State → Res :=
  perLane (some 4) 1 (fun t c x l => [shfWord f.mod.toNat (opA t c x f l) (opB t c x f l) (opC t c x f l)]) f
def execShf (f : Fields) (s : State) : Host.Outcome State Fault Refusal := issue 0x019 f (performShf f) s

/-- BFE (R99). -/
def performBfe (f : Fields) : Dword → Members → State → Res :=
  perLane (some 4) 1 (fun t c x l => [bfeWord f.mod.toNat (opA t c x f l) (opB t c x f l) (opC t c x f l)]) f
def execBfe (f : Fields) (s : State) : Host.Outcome State Fault Refusal := issue 0x01A f (performBfe f) s

/-- BFI (R99). -/
def performBfi (f : Fields) : Dword → Members → State → Res :=
  perLane (some 4) 1 (fun t c x l => [bfiWord (opA t c x f l) (opB t c x f l) (opC t c x f l)]) f
def execBfi (f : Fields) (s : State) : Host.Outcome State Fault Refusal := issue 0x01B f (performBfi f) s

/-- POPC (R100). -/
def performPopc (f : Fields) : Dword → Members → State → Res :=
  perLane (some 6) 1 (fun t c x l => [popcWord (opA t c x f l)]) f
def execPopc (f : Fields) (s : State) : Host.Outcome State Fault Refusal := issue 0x01C f (performPopc f) s

/-- CLZ (R100). -/
def performClz (f : Fields) : Dword → Members → State → Res :=
  perLane (some 6) 1 (fun t c x l => [clzWord (opA t c x f l)]) f
def execClz (f : Fields) (s : State) : Host.Outcome State Fault Refusal := issue 0x01D f (performClz f) s

/-- BREV (R100). -/
def performBrev (f : Fields) : Dword → Members → State → Res :=
  perLane (some 6) 1 (fun t c x l => [brevWord (opA t c x f l)]) f
def execBrev (f : Fields) (s : State) : Host.Outcome State Fault Refusal := issue 0x01E f (performBrev f) s

/-- LEA (R101). -/
def performLea (f : Fields) : Dword → Members → State → Res :=
  perLane (some 4) 2 (fun t c x l => pairWords (leaPair f.mod.toNat f.sub.toNat (pairA t c x f l) (opB t c x f l))) f
def execLea (f : Fields) (s : State) : Host.Outcome State Fault Refusal := issue 0x01F f (performLea f) s

/-- MOV (R102). -/
def performMov (f : Fields) : Dword → Members → State → Res :=
  perLane (some 4) (if f.mod = 1 then 2 else 1) (fun t c x l => (if f.mod = 1 then pairWords (pairA t c x f l) else [opA t c x f l])) f
def execMov (f : Fields) (s : State) : Host.Outcome State Fault Refusal := issue 0x020 f (performMov f) s

/-- MOVI (R102). -/
def performMovi (f : Fields) : Dword → Members → State → Res :=
  perLane (some 4) (if f.mod = 1 then 2 else 1) (fun _ _ _ _ => moviWords f.mod.toNat f.imm) f
def execMovi (f : Fields) (s : State) : Host.Outcome State Fault Refusal := issue 0x021 f (performMovi f) s

/-- IADDI (R91). -/
def performIaddi (f : Fields) : Dword → Members → State → Res :=
  perLane (some 4) 1 (fun t c x l => addWords f.mod.toNat (opA t c x f l) f.imm) f
def execIaddi (f : Fields) (s : State) : Host.Outcome State Fault Refusal := issue 0x022 f (performIaddi f) s

/-- ICMPI (R95). -/
def performIcmpi (f : Fields) : Dword → Members → State → Res :=
  perLane (some 4) 1 (fun t c x l => [boolWord (cmpHolds f.mod.toNat (opA t c x f l) f.imm)]) f
def execIcmpi (f : Fields) (s : State) : Host.Outcome State Fault Refusal := issue 0x023 f (performIcmpi f) s

/-- ANDI (R97). -/
def performAndi (f : Fields) : Dword → Members → State → Res :=
  perLane (some 4) 1 (fun t c x l => [opA t c x f l &&& f.imm]) f
def execAndi (f : Fields) (s : State) : Host.Outcome State Fault Refusal := issue 0x024 f (performAndi f) s

/-- ORI (R97). -/
def performOri (f : Fields) : Dword → Members → State → Res :=
  perLane (some 4) 1 (fun t c x l => [opA t c x f l ||| f.imm]) f
def execOri (f : Fields) (s : State) : Host.Outcome State Fault Refusal := issue 0x025 f (performOri f) s

/-- XORI (R97). -/
def performXori (f : Fields) : Dword → Members → State → Res :=
  perLane (some 4) 1 (fun t c x l => [opA t c x f l ^^^ f.imm]) f
def execXori (f : Fields) (s : State) : Host.Outcome State Fault Refusal := issue 0x026 f (performXori f) s

end Sys2Proof.Machine
end

