-- ==== Sys2Proof/Machine/Lanes.lean ====
section
/-! DEFINITION. Lane movement and collectives, opcodes 0x040 to 0x047 (R104 to R113), and SREAD's values (R33). -/

namespace Sys2Proof.Machine
open Sys2Proof

/-- A source of element `e` of the elements `es`, before any PERM. -/
def rawA (s : State) (c : Nat) (f : Fields) (q : Elem) : Word := readReg s c q.slot fldA f.a q.lane

def elemAt (es : List Elem) (e : Nat) : Elem := es.getD e ⟨0, 0, false⟩

/-- The segment rule of PERM at set scope (R106), over E elements: the source of element `e` at distance `d`. -/
def permElem (cls z d total e : Nat) : Nat :=
  let s := min (2 ^ z) total
  let b0 := e - e % s
  let q := min s (total - b0)
  let dd := d % q
  if cls = 1 then b0 + (e - b0 + dd) % q
  else if cls = 2 then (let src := b0 + ((e - b0) ^^^ dd); if b0 + q ≤ src then e else src)
  else b0 + dd

/-- The distance of PERM (R106): fixed, or b[5:0] with `.var`. -/
def permDistOf (s : State) (c : Nat) (f : Fields) (q : Elem) : Nat :=
  if f.mod = 1 then (readReg s c q.slot fldB f.b q.lane).toNat % 64 else permDist f.perm

/-- PERM's word for element `e` (R106). -/
def permWord (s : State) (c : Nat) (f : Fields) (es : List Elem) (e : Nat) : Word :=
  let q := elemAt es e
  let d := permDistOf s c f q
  if f.scope = .set then rawA s c f (elemAt es (permElem (permClass f.perm) (permSeg f.perm) d es.length e))
  else readReg s c q.slot fldA f.a (permLane (permClass f.perm) (permSeg f.perm) d (widthOf s c q.slot) q.lane)

/-- PERM (R106). -/
def performPerm (f : Fields) (_pc : Dword) (ms : Members) (s : State) : Res :=
  let es := elemsOf s s.cur.1 ms
  .ok (postElems s s.cur.1 f ms (some 4) 1 (fun e => [permWord s s.cur.1 f es e]))
def execPerm (f : Fields) (s : State) : Host.Outcome State Fault Refusal := issue 0x040 f (performPerm f) s

/-- The source element of SHUF (R107), none where it is out of range and the own value is written. -/
def shufSource (mod b total e : Nat) : Option Nat :=
  if mod = 0 then some (b % total)
  else if mod = 1 then (if e < b then none else some (e - b))
  else if mod = 2 then (if total ≤ e + b then none else some (e + b))
  else (if total ≤ e ^^^ (b % 64) then none else some (e ^^^ (b % 64)))

def shufWord (s : State) (c : Nat) (f : Fields) (es : List Elem) (e : Nat) : Word :=
  let q := elemAt es e
  let src := elemAt es ((shufSource f.mod.toNat (opB s c q.slot f q.lane).toNat es.length e).getD e)
  opA s c src.slot f src.lane

/-- SHUF (R107). -/
def performShuf (f : Fields) (_pc : Dword) (ms : Members) (s : State) : Res :=
  let es := elemsOf s s.cur.1 ms
  .ok (postElems s s.cur.1 f ms none 1 (fun e => [shufWord s s.cur.1 f es e]))
def execShuf (f : Fields) (s : State) : Host.Outcome State Fault Refusal := issue 0x041 f (performShuf f) s

/-- The local cycle counter of a core (R10, R11) (log 27, DEDUCED). -/
def counterOf (s : State) (c : Nat) : Dword := BitVec.ofNat 64 (coreCount s c)

/-- The values of R33. The handler's and the firmware's slot are no group slot, block or role: 0x02 and 0x03 give 48 and 49, and
0x05 and 0x06 give 0 there, numbers that the manual does not name (log 87, DESIGN CHOICE). -/
def sreadWords (s : State) (c x id l : Nat) : List Word :=
  let k := getCore s c
  let g := k.group x
  let w := fun (n : Nat) => [BitVec.ofNat 32 n]
  let ms := setMembers k x
  match id with
  | 0x00 => w l
  | 0x01 => w g.width
  | 0x02 => w x
  | 0x03 => w (homeOf g x l).1
  | 0x04 => w (homeOf g x l).2
  | 0x05 => w g.block
  | 0x06 => w g.role
  | 0x07 => match g.setId with
    | some i => w i
    | none => [0xFFFFFFFF]
  | 0x08 => if g.setId.isSome then w (ms.idxOf x) else [0xFFFFFFFF]
  | 0x09 => w ms.length
  | 0x0A => w c
  | 0x0B => w (clusterOf c)
  | 0x0C => w (dieOf c)
  | 0x0D => w (tenantOf s c x)
  | 0x0E => w g.allotment
  | 0x0F => w g.handles.length
  | _ => pairWords (counterOf s c)

/-- SREAD (R108, R33). -/
def performSread (f : Fields) (_pc : Dword) (ms : Members) (s : State) : Res :=
  .ok (postResults s s.cur.1 f ms none (if f.a = 0x10 then 2 else 1) (fun t x l => sreadWords t s.cur.1 x f.a.toNat l))
def execSread (f : Fields) (s : State) : Host.Outcome State Fault Refusal := issue 0x042 f (performSread f) s

/-- Numbers of the executing elements, ascending (R104). -/
def execIndexes (es : List Elem) : List Nat := (List.range es.length).filter (fun e => (elemAt es e).exec)

/-- The mask of the elements of `ns` that lie in the window of element `e` (R111). -/
def windowMask (ns : List Nat) (e : Nat) : Dword :=
  (ns.filter (fun n => n / 64 == e / 64)).foldl (fun m n => m ||| (1#64 <<< (n % 64))) 0

/-- VOTE's words for element `e` (R109); `vals` are the A values of the executing elements. -/
def voteWords (mod : Nat) (vals : List (Nat × Word)) (e : Nat) : List Word :=
  let yes := vals.filter (fun q => q.2 != 0)
  if mod = 0 then [boolWord (yes.length == vals.length)]
  else if mod = 1 then [boolWord (!yes.isEmpty)]
  else if mod = 2 then [boolWord (vals.all (fun q => vals.all (fun r => q.2 == r.2)))]
  else if mod = 3 then pairWords (windowMask (yes.map (·.1)) e)
  else [BitVec.ofNat 32 yes.length]

/-- VOTE (R109, R111). -/
def performVote (f : Fields) (_pc : Dword) (ms : Members) (s : State) : Res :=
  let es := elemsOf s s.cur.1 ms
  let vals := (execIndexes es).map (fun e => (e, rawA s s.cur.1 f (elemAt es e)))
  .ok (postElems s s.cur.1 f ms none (if f.mod = 3 then 2 else 1) (fun e => voteWords f.mod.toNat vals e))
def execVote (f : Fields) (s : State) : Host.Outcome State Fault Refusal := issue 0x043 f (performVote f) s

/-- ELECT (R110). -/
def performElect (f : Fields) (_pc : Dword) (ms : Members) (s : State) : Res :=
  let first := (execIndexes (elemsOf s s.cur.1 ms)).head?
  .ok (postElems s s.cur.1 f ms none 1 (fun e => [boolWord (first == some e)]))
def execElect (f : Fields) (s : State) : Host.Outcome State Fault Refusal := issue 0x044 f (performElect f) s

/-- The integer operations of REDUCE and SCAN (R112), SUB 0 to 7: combination and identity. -/
def combine (sub : Nat) (a b : Word) : Word :=
  if sub = 0 then a + b
  else if sub = 1 then minWord 0 a b
  else if sub = 2 then maxWord 0 a b
  else if sub = 3 then minWord 1 a b
  else if sub = 4 then maxWord 1 a b
  else if sub = 5 then a &&& b
  else if sub = 6 then a ||| b
  else a ^^^ b
def identityOf (sub : Nat) : Word :=
  if sub = 1 then 0x7FFFFFFF else if sub = 2 then 0x80000000 else if sub = 3 ∨ sub = 5 then 0xFFFFFFFF else 0

/-- One level of the tree of R52: neighbours combined, an odd last one carried. -/
def treeLevel {α : Type} (add : α → α → α) : List α → List α
  | a :: b :: t => add a b :: treeLevel add t
  | t => t
def tree {α : Type} (add : α → α → α) : Nat → List α → List α
  | 0, xs => xs
  | n + 1, xs => if xs.length ≤ 1 then xs else tree add n (treeLevel add xs)

/-- REDUCE `.fadd`, `.fmin` and `.fmax` (R113) of the words in element order: result and exceptions. -/
def reduceFloat (sub : Nat) (md : RMode) (xs : List Word) : Nat × Exc :=
  let add := fun (p q : Nat × Exc) =>
    let r := if sub = 8 then finish fF32 md (addVal md (fdecode fF32 p.1) (fdecode fF32 q.1))
      else fminmax fF32 (sub == 10) false p.1 q.1
    (r.1, p.2 ||| q.2 ||| r.2)
  match xs with
  | [x] => packVal fF32 md (f32 x)
  | _ => (tree add xs.length (xs.map (fun x => (x.toNat, 0)))).headD (0, 0)

/-- REDUCE (R112, R113). The exceptions go to every member with an executing element. -/
def performReduce (f : Fields) (pc : Dword) (ms : Members) (s : State) : Res :=
  let c := s.cur.1
  let es := elemsOf s c ms
  let xs := (execIndexes es).map (fun e => rawA s c f (elemAt es e))
  let sub := f.sub.toNat
  if sub ≤ 7 then
    .ok (postElems s c f ms none 1 (fun _ => [xs.foldl (combine sub) (identityOf sub)]))
  else
    perLaneFp none 1 (fun _ _ _ _ => one32 (reduceFloat sub (rmOf f) xs)) f pc ms s
def execReduce (f : Fields) (s : State) : Host.Outcome State Fault Refusal := issue 0x045 f (performReduce f) s

/-- SCAN's word for element `e` (R112): over the executing elements up to `e`, or below `e` with `.excl`. -/
def scanWord (f : Fields) (vals : List (Nat × Word)) (e : Nat) : Word :=
  ((vals.filter (fun q => decide (q.1 < e) || (f.mod != 4 && q.1 == e))).map (·.2)).foldl (combine f.sub.toNat)
    (identityOf f.sub.toNat)

/-- SCAN (R112). -/
def performScan (f : Fields) (_pc : Dword) (ms : Members) (s : State) : Res :=
  let es := elemsOf s s.cur.1 ms
  let vals := (execIndexes es).map (fun e => (e, rawA s s.cur.1 f (elemAt es e)))
  .ok (postElems s s.cur.1 f ms none 1 (fun e => [scanWord f vals e]))
def execScan (f : Fields) (s : State) : Host.Outcome State Fault Refusal := issue 0x046 f (performScan f) s

/-- MATCH (R111): the executing elements of the window whose A value, of 32 or 64 bits, equals the own. -/
def performMatchMask (f : Fields) (_pc : Dword) (ms : Members) (s : State) : Res :=
  let c := s.cur.1
  let es := elemsOf s c ms
  let val := fun e => let q := elemAt es e
    if f.mod = 1 then readPair s c q.slot fldA f.a q.lane else (rawA s c f q).setWidth 64
  let vals := (execIndexes es).map (fun e => (e, val e))
  .ok (postElems s c f ms none 2 (fun e =>
    pairWords (windowMask ((vals.filter (fun q => q.2 == val e)).map (·.1)) e)))
def execMatchMask (f : Fields) (s : State) : Host.Outcome State Fault Refusal := issue 0x047 f (performMatchMask f) s

end Sys2Proof.Machine
end

