-- ==== Sys2Proof/Machine/Perform.lean ====
section
/-! DEFINITION. The effects of the encoded instructions by instruction, for an instruction that issues when a rendezvous
completes without an arrival (R232, R237, R239), and the core's step that does so. -/

namespace Sys2Proof.Machine
open Sys2Proof

/-- The effect of an encoded instruction; an event has none. -/
def performOf (i : Instr) : Option (Dword → Members → State → Res) :=
  match i with
  | .nop f => some (performNop f)
  | .iadd f => some (performIadd f)
  | .isub f => some (performIsub f)
  | .iadd64 f => some (performIadd64 f)
  | .isub64 f => some (performIsub64 f)
  | .imul f => some (performImul f)
  | .imulh f => some (performImulh f)
  | .imad f => some (performImad f)
  | .imadw f => some (performImadw f)
  | .imin f => some (performImin f)
  | .imax f => some (performImax f)
  | .iabs f => some (performIabs f)
  | .idiv f => some (performIdiv f)
  | .irem f => some (performIrem f)
  | .icmp f => some (performIcmp f)
  | .sel f => some (performSel f)
  | .and f => some (performAnd f)
  | .or f => some (performOr f)
  | .xor f => some (performXor f)
  | .andn f => some (performAndn f)
  | .not f => some (performNot f)
  | .lop3 f => some (performLop3 f)
  | .shl f => some (performShl f)
  | .shr f => some (performShr f)
  | .sar f => some (performSar f)
  | .shf f => some (performShf f)
  | .bfe f => some (performBfe f)
  | .bfi f => some (performBfi f)
  | .popc f => some (performPopc f)
  | .clz f => some (performClz f)
  | .brev f => some (performBrev f)
  | .lea f => some (performLea f)
  | .mov f => some (performMov f)
  | .movi f => some (performMovi f)
  | .iaddi f => some (performIaddi f)
  | .icmpi f => some (performIcmpi f)
  | .andi f => some (performAndi f)
  | .ori f => some (performOri f)
  | .xori f => some (performXori f)
  | .perm f => some (performPerm f)
  | .shuf f => some (performShuf f)
  | .sread f => some (performSread f)
  | .vote f => some (performVote f)
  | .elect f => some (performElect f)
  | .reduce f => some (performReduce f)
  | .scan f => some (performScan f)
  | .matchMask f => some (performMatchMask f)
  | .fadd f => some (performFadd f)
  | .fsub f => some (performFsub f)
  | .fmul f => some (performFmul f)
  | .ffma f => some (performFfma f)
  | .fmin f => some (performFmin f)
  | .fmax f => some (performFmax f)
  | .fcmp f => some (performFcmp f)
  | .frnd f => some (performFrnd f)
  | .frcp f => some (performFrcp f)
  | .frsq f => some (performFrsq f)
  | .fsqrt f => some (performFsqrt f)
  | .fdiv f => some (performFdiv f)
  | .fexp2 f => some (performFexp2 f)
  | .flog2 f => some (performFlog2 f)
  | .fsin f => some (performFsin f)
  | .fcos f => some (performFcos f)
  | .fclass f => some (performFclass f)
  | .padd2 f => some (performPadd2 f)
  | .pmul2 f => some (performPmul2 f)
  | .pfma2 f => some (performPfma2 f)
  | .pmin2 f => some (performPmin2 f)
  | .pmax2 f => some (performPmax2 f)
  | .pdot2 f => some (performPdot2 f)
  | .cvt f => some (performCvt f)
  | .cvtpk f => some (performCvtpk f)
  | .cvtn f => some (performCvtn f)
  | .cvtw f => some (performCvtw f)
  | .terpk f => some (performTerpk f)
  | .terunpk f => some (performTerunpk f)
  | .scacc f => some (performScacc f)
  | .bra f => some (performBra f)
  | .brx f => some (performBrx f)
  | .call f => some (performCall f)
  | .callx f => some (performCallx f)
  | .ret f => some (performRet f)
  | .exit f => some (performExit f)
  | .yield f => some (performYield f)
  | .bkpt f => some (performBkpt f)
  | .sync f => some (performSync f)
  | .setjoin f => some (performSetjoin f)
  | .setleave f => some (performSetleave f)
  | .regroup f => some (performRegroup f)
  | .rghome f => some (performRghome f)
  | .grow f => some (performGrow f)
  | .shrink f => some (performShrink f)
  | .ld f => some (performLd f)
  | .st f => some (performSt f)
  | .lds f => some (performLds f)
  | .sts f => some (performSts f)
  | .atom f => some (performAtom f)
  | .atoms f => some (performAtoms f)
  | .red f => some (performRed f)
  | .fence f => some (performFence f)
  | .cctl f => some (performCctl f)
  | .pref f => some (performPref f)
  | .mma f => some (performMma f)
  | .mmas f => some (performMmas f)
  | .mmat f => some (performMmat f)
  | .oprdy f => some (performOprdy f)
  | .actld f => some (performActld f)
  | .xvset f => some (performXvset f)
  | .xvsetRd f => some (performXvsetRd f)
  | .mxstat f => some (performMxstat f)
  | .cpy f => some (performCpy f)
  | .cpyg f => some (performCpyg f)
  | .cpys f => some (performCpys f)
  | .htest f => some (performHtest f)
  | .hmov f => some (performHmov f)
  | .hcancel f => some (performHcancel f)
  | .hwait f => some (performHwait f)
  | .tfetch f => some (performTfetch f)
  | .tret f => some (performTret f)
  | .lpost f => some (performLpost f)
  | .trap f => some (performTrap f)
  | .eret f => some (performEret f)
  | .winrd f => some (performWinrd f)
  | .winwr f => some (performWinwr f)
  | .rqrd f => some (performRqrd f)
  | .rqwr f => some (performRqwr f)
  | .csrrd f => some (performCsrrd f)
  | .csrwr f => some (performCsrwr f)
  | .ifence f => some (performIfence f)
  | .xbld f => some (performXbld f)
  | .xbinv f => some (performXbinv f)
  | .xbrd f => some (performXbrd f)
  | .cede f => some (performCede f)
  | .fwcall f => some (performFwcall f)
  | .gstop f => some (performGstop f)
  | .nwait f => some (performNwait f)
  | _ => none

/-- The instruction at an address for a context (R62, R278). -/
inductive Look where
  | found (i : Instr) (s : State)
  | other (s : State)
deriving Repr

def lookAt (s : State) (c x : Nat) (e : Entry) : Look :=
  match checkGlobal s c x 4 0 e.pc with
  | (s1, .wait) => .other s1
  | (s1, .full) => .other s1
  | (s1, .fault cls) => .other (fetchTrap (useWalks s1 c x 0 [pageOf e.pc]) c x cls e.pc)
  | (s1, .pa pa) =>
    match fetchBlock (useWalks s1 c x 0 [pageOf e.pc]) c pa with
    | (s2, none) => .other (fetchTrap s2 c x clsXM e.pc)
    | (s2, some block) =>
      let bs := block.drop (pa % 32)
      match decode (privOf (getGroup s c x) x) (pa % 32) bs with
      | .ok i => .found i s2
      | .error err => .other (illegal s2 c x e e.pc err bs)

/-- The members of a rendezvous, or of one whose instruction had issued and trapped, all stand at it and none is stopped. -/
def rdvReady (k : Core) (e : Entry) (op : Nat) (f : Fields) (g : Group) (xs : List Nat) : Bool :=
  match e.park with
  | .rdv _ _ _ => e.park == rdvOf g op f && rdvComplete k xs e.pc e.park
  | .trapped sc => sc == f.scope && xs.all (fun y => decide ((k.group y).stop = .run))
  | _ => false

/-- Whether the rendezvous of a parked entry can have completed. -/
def mayComplete (k : Core) (x : Nat) (e : Entry) : Bool :=
  match e.park with
  | .rdv sc _ br => rdvComplete k (membersAt k x sc br) e.pc e.park
  | .trapped _ => true
  | _ => false

/-- RENDEZVOUS_COMPLETE (R231, R232, R237): the instruction of a rendezvous that has completed issues for all members, once
what its members wait for has come (R70 to R72, R222) and its slot may issue (R226). -/
def execRendezvousComplete (core ctx : Nat) (pc : Dword) (s : State) : Host.Outcome State Fault Refusal :=
  let g := getGroup s core ctx
  match g.frontier.find? (fun e => e.pc == pc && isParked e.park) with
  | none => .next s
  | some e =>
    if g.stop ≠ .run ∨ mayComplete (getCore s core) ctx e = false then .next s
    else match lookAt s core ctx e with
      | .other s1 => .next (stepFree s1)
      | .found i s1 =>
        match opcodeOf i, fieldsOf i, performOf i with
        | some op, some f, some body =>
          let k := getCore s1 core
          let xs := membersAt k ctx f.scope (byRoleOp op f)
          if rdvReady k e op f g xs && rdvFree s1 core op f pc xs then .next (issueNow op f body { s1 with cur := (core, ctx) } core pc true xs)
          else .next s1
        | _, _, _ => .next s1

end Sys2Proof.Machine
end

