-- ==== Sys2Proof/Machine/Dispatch.lean ====
section
/-! DEFINITION. What each instruction and event does: one direct call of its meaning (log 1, 2). -/

namespace Sys2Proof.Machine
open Sys2Proof

/-- The outcome of an instruction or event in a state. -/
def exec (i : Instr) (s : State) : Host.Outcome State Fault Refusal :=
  match i with
  | .nop f => Sys2Proof.Machine.execNop f s
  | .iadd f => Sys2Proof.Machine.execIadd f s
  | .isub f => Sys2Proof.Machine.execIsub f s
  | .iadd64 f => Sys2Proof.Machine.execIadd64 f s
  | .isub64 f => Sys2Proof.Machine.execIsub64 f s
  | .imul f => Sys2Proof.Machine.execImul f s
  | .imulh f => Sys2Proof.Machine.execImulh f s
  | .imad f => Sys2Proof.Machine.execImad f s
  | .imadw f => Sys2Proof.Machine.execImadw f s
  | .imin f => Sys2Proof.Machine.execImin f s
  | .imax f => Sys2Proof.Machine.execImax f s
  | .iabs f => Sys2Proof.Machine.execIabs f s
  | .idiv f => Sys2Proof.Machine.execIdiv f s
  | .irem f => Sys2Proof.Machine.execIrem f s
  | .icmp f => Sys2Proof.Machine.execIcmp f s
  | .sel f => Sys2Proof.Machine.execSel f s
  | .and f => Sys2Proof.Machine.execAnd f s
  | .or f => Sys2Proof.Machine.execOr f s
  | .xor f => Sys2Proof.Machine.execXor f s
  | .andn f => Sys2Proof.Machine.execAndn f s
  | .not f => Sys2Proof.Machine.execNot f s
  | .lop3 f => Sys2Proof.Machine.execLop3 f s
  | .shl f => Sys2Proof.Machine.execShl f s
  | .shr f => Sys2Proof.Machine.execShr f s
  | .sar f => Sys2Proof.Machine.execSar f s
  | .shf f => Sys2Proof.Machine.execShf f s
  | .bfe f => Sys2Proof.Machine.execBfe f s
  | .bfi f => Sys2Proof.Machine.execBfi f s
  | .popc f => Sys2Proof.Machine.execPopc f s
  | .clz f => Sys2Proof.Machine.execClz f s
  | .brev f => Sys2Proof.Machine.execBrev f s
  | .lea f => Sys2Proof.Machine.execLea f s
  | .mov f => Sys2Proof.Machine.execMov f s
  | .movi f => Sys2Proof.Machine.execMovi f s
  | .iaddi f => Sys2Proof.Machine.execIaddi f s
  | .icmpi f => Sys2Proof.Machine.execIcmpi f s
  | .andi f => Sys2Proof.Machine.execAndi f s
  | .ori f => Sys2Proof.Machine.execOri f s
  | .xori f => Sys2Proof.Machine.execXori f s
  | .perm f => Sys2Proof.Machine.execPerm f s
  | .shuf f => Sys2Proof.Machine.execShuf f s
  | .sread f => Sys2Proof.Machine.execSread f s
  | .vote f => Sys2Proof.Machine.execVote f s
  | .elect f => Sys2Proof.Machine.execElect f s
  | .reduce f => Sys2Proof.Machine.execReduce f s
  | .scan f => Sys2Proof.Machine.execScan f s
  | .matchMask f => Sys2Proof.Machine.execMatchMask f s
  | .fadd f => Sys2Proof.Machine.execFadd f s
  | .fsub f => Sys2Proof.Machine.execFsub f s
  | .fmul f => Sys2Proof.Machine.execFmul f s
  | .ffma f => Sys2Proof.Machine.execFfma f s
  | .fmin f => Sys2Proof.Machine.execFmin f s
  | .fmax f => Sys2Proof.Machine.execFmax f s
  | .fcmp f => Sys2Proof.Machine.execFcmp f s
  | .frnd f => Sys2Proof.Machine.execFrnd f s
  | .frcp f => Sys2Proof.Machine.execFrcp f s
  | .frsq f => Sys2Proof.Machine.execFrsq f s
  | .fsqrt f => Sys2Proof.Machine.execFsqrt f s
  | .fdiv f => Sys2Proof.Machine.execFdiv f s
  | .fexp2 f => Sys2Proof.Machine.execFexp2 f s
  | .flog2 f => Sys2Proof.Machine.execFlog2 f s
  | .fsin f => Sys2Proof.Machine.execFsin f s
  | .fcos f => Sys2Proof.Machine.execFcos f s
  | .fclass f => Sys2Proof.Machine.execFclass f s
  | .padd2 f => Sys2Proof.Machine.execPadd2 f s
  | .pmul2 f => Sys2Proof.Machine.execPmul2 f s
  | .pfma2 f => Sys2Proof.Machine.execPfma2 f s
  | .pmin2 f => Sys2Proof.Machine.execPmin2 f s
  | .pmax2 f => Sys2Proof.Machine.execPmax2 f s
  | .pdot2 f => Sys2Proof.Machine.execPdot2 f s
  | .cvt f => Sys2Proof.Machine.execCvt f s
  | .cvtpk f => Sys2Proof.Machine.execCvtpk f s
  | .cvtn f => Sys2Proof.Machine.execCvtn f s
  | .cvtw f => Sys2Proof.Machine.execCvtw f s
  | .terpk f => Sys2Proof.Machine.execTerpk f s
  | .terunpk f => Sys2Proof.Machine.execTerunpk f s
  | .scacc f => Sys2Proof.Machine.execScacc f s
  | .bra f => Sys2Proof.Machine.execBra f s
  | .brx f => Sys2Proof.Machine.execBrx f s
  | .call f => Sys2Proof.Machine.execCall f s
  | .callx f => Sys2Proof.Machine.execCallx f s
  | .ret f => Sys2Proof.Machine.execRet f s
  | .exit f => Sys2Proof.Machine.execExit f s
  | .yield f => Sys2Proof.Machine.execYield f s
  | .bkpt f => Sys2Proof.Machine.execBkpt f s
  | .sync f => Sys2Proof.Machine.execSync f s
  | .setjoin f => Sys2Proof.Machine.execSetjoin f s
  | .setleave f => Sys2Proof.Machine.execSetleave f s
  | .regroup f => Sys2Proof.Machine.execRegroup f s
  | .rghome f => Sys2Proof.Machine.execRghome f s
  | .regroupCommit core block role => Sys2Proof.Machine.execRegroupCommit core block role s
  | .regroupPreemptTimeout core block role => Sys2Proof.Machine.execRegroupPreemptTimeout core block role s
  | .grow f => Sys2Proof.Machine.execGrow f s
  | .growGrant core => Sys2Proof.Machine.execGrowGrant core s
  | .shrink f => Sys2Proof.Machine.execShrink f s
  | .compaction core => Sys2Proof.Machine.execCompaction core s
  | .rendezvousComplete core ctx pc => Sys2Proof.Machine.execRendezvousComplete core ctx pc s
  | .ld f => Sys2Proof.Machine.execLd f s
  | .st f => Sys2Proof.Machine.execSt f s
  | .lds f => Sys2Proof.Machine.execLds f s
  | .sts f => Sys2Proof.Machine.execSts f s
  | .atom f => Sys2Proof.Machine.execAtom f s
  | .atoms f => Sys2Proof.Machine.execAtoms f s
  | .red f => Sys2Proof.Machine.execRed f s
  | .fence f => Sys2Proof.Machine.execFence f s
  | .cctl f => Sys2Proof.Machine.execCctl f s
  | .pref f => Sys2Proof.Machine.execPref f s
  | .loadReturn core ctx id lanes => Sys2Proof.Machine.execLoadReturn core ctx id lanes s
  | .storeLeaveQueue core ctx => Sys2Proof.Machine.execStoreLeaveQueue core ctx s
  | .storeAck core id lane => Sys2Proof.Machine.execStoreAck core id lane s
  | .atomicPerform core id lane => Sys2Proof.Machine.execAtomicPerform core id lane s
  | .pageWalk die id => Sys2Proof.Machine.execPageWalk die id s
  | .mma f => Sys2Proof.Machine.execMma f s
  | .mmas f => Sys2Proof.Machine.execMmas f s
  | .mmat f => Sys2Proof.Machine.execMmat f s
  | .matrixGrant cluster => Sys2Proof.Machine.execMatrixGrant cluster s
  | .matrixComplete id => Sys2Proof.Machine.execMatrixComplete id s
  | .oprdy f => Sys2Proof.Machine.execOprdy f s
  | .actld f => Sys2Proof.Machine.execActld f s
  | .xvset f => Sys2Proof.Machine.execXvset f s
  | .xvsetRd f => Sys2Proof.Machine.execXvsetRd f s
  | .mxstat f => Sys2Proof.Machine.execMxstat f s
  | .cpy f => Sys2Proof.Machine.execCpy f s
  | .cpyg f => Sys2Proof.Machine.execCpyg f s
  | .cpys f => Sys2Proof.Machine.execCpys f s
  | .copyChunk id => Sys2Proof.Machine.execCopyChunk id s
  | .copyComplete id => Sys2Proof.Machine.execCopyComplete id s
  | .budgetRefill die => Sys2Proof.Machine.execBudgetRefill die s
  | .htest f => Sys2Proof.Machine.execHtest f s
  | .hmov f => Sys2Proof.Machine.execHmov f s
  | .hcancel f => Sys2Proof.Machine.execHcancel f s
  | .hwait f => Sys2Proof.Machine.execHwait f s
  | .tfetch f => Sys2Proof.Machine.execTfetch f s
  | .tret f => Sys2Proof.Machine.execTret f s
  | .lpost f => Sys2Proof.Machine.execLpost f s
  | .linkTransmit id => Sys2Proof.Machine.execLinkTransmit id s
  | .linkRequestArrive req => Sys2Proof.Machine.execLinkRequestArrive req s
  | .linkResponse id cause chunks data => Sys2Proof.Machine.execLinkResponse id cause chunks data s
  | .flitTimeout lane => Sys2Proof.Machine.execFlitTimeout lane s
  | .laneRetrainFail lane => Sys2Proof.Machine.execLaneRetrainFail lane s
  | .qpError qp peerDown => Sys2Proof.Machine.execQpError qp peerDown s
  | .trap f => Sys2Proof.Machine.execTrap f s
  | .trapTake core id => Sys2Proof.Machine.execTrapTake core id s
  | .frameDeliver core firmware => Sys2Proof.Machine.execFrameDeliver core firmware s
  | .eret f => Sys2Proof.Machine.execEret f s
  | .winrd f => Sys2Proof.Machine.execWinrd f s
  | .winwr f => Sys2Proof.Machine.execWinwr f s
  | .rqrd f => Sys2Proof.Machine.execRqrd f s
  | .rqwr f => Sys2Proof.Machine.execRqwr f s
  | .csrrd f => Sys2Proof.Machine.execCsrrd f s
  | .csrwr f => Sys2Proof.Machine.execCsrwr f s
  | .tNoticeWrite core ctx => Sys2Proof.Machine.execTNoticeWrite core ctx s
  | .tXlatWrite core ctx => Sys2Proof.Machine.execTXlatWrite core ctx s
  | .ifence f => Sys2Proof.Machine.execIfence f s
  | .xbld f => Sys2Proof.Machine.execXbld f s
  | .xbinv f => Sys2Proof.Machine.execXbinv f s
  | .xbrd f => Sys2Proof.Machine.execXbrd f s
  | .cede f => Sys2Proof.Machine.execCede f s
  | .cedeArrival id => Sys2Proof.Machine.execCedeArrival id s
  | .fwcall f => Sys2Proof.Machine.execFwcall f s
  | .gstop f => Sys2Proof.Machine.execGstop f s
  | .nwait f => Sys2Proof.Machine.execNwait f s
  | .slotRelease core ctx => Sys2Proof.Machine.execSlotRelease core ctx s
  | .launchWrite q bytes => Sys2Proof.Machine.execLaunchWrite q bytes s
  | .doorbell q v => Sys2Proof.Machine.execDoorbell q v s
  | .queueEnable q => Sys2Proof.Machine.execQueueEnable q s
  | .queueDisable q => Sys2Proof.Machine.execQueueDisable q s
  | .queueStopped q => Sys2Proof.Machine.execQueueStopped q s
  | .queueReset q restart => Sys2Proof.Machine.execQueueReset q restart s
  | .packetClaim q => Sys2Proof.Machine.execPacketClaim q s
  | .packetSlotReread q pos => Sys2Proof.Machine.execPacketSlotReread q pos s
  | .packetCheck q pos => Sys2Proof.Machine.execPacketCheck q pos s
  | .blockPlace launch core => Sys2Proof.Machine.execBlockPlace launch core s
  | .launchComplete launch => Sys2Proof.Machine.execLaunchComplete launch s
  | .gangMigrate core block target => Sys2Proof.Machine.execGangMigrate core block target s
  | .firmwareEndLaunch launch => Sys2Proof.Machine.execFirmwareEndLaunch launch s
  | .noticePost tenant kind count deadline cands newTag => Sys2Proof.Machine.execNoticePost tenant kind count deadline cands newTag s
  | .noticeDeadline tenant kind => Sys2Proof.Machine.execNoticeDeadline tenant kind s
  | .skidderSeize tenant kind => Sys2Proof.Machine.execSkidderSeize tenant kind s
  | .preemptRequest bytes => Sys2Proof.Machine.execPreemptRequest bytes s
  | .preemptDrainDeadline req cluster => Sys2Proof.Machine.execPreemptDrainDeadline req cluster s
  | .preemptSave req core => Sys2Proof.Machine.execPreemptSave req core s
  | .preemptDiscard req core => Sys2Proof.Machine.execPreemptDiscard req core s
  | .preemptClusterDone req cluster => Sys2Proof.Machine.execPreemptClusterDone req cluster s
  | .blockResume id core => Sys2Proof.Machine.execBlockResume id core s
  | .functionLevelReset f => Sys2Proof.Machine.execFunctionLevelReset f s
  | .flrDrained f => Sys2Proof.Machine.execFlrDrained f s
  | .functionPause f => Sys2Proof.Machine.execFunctionPause f s
  | .functionPaused f => Sys2Proof.Machine.execFunctionPaused f s
  | .functionUnpause f => Sys2Proof.Machine.execFunctionUnpause f s
  | .qpSetReady qp peer => Sys2Proof.Machine.execQpSetReady qp peer s
  | .qpTeardown qp => Sys2Proof.Machine.execQpTeardown qp s
  | .msiUnmask k => Sys2Proof.Machine.execMsiUnmask k s
  | .pcieInboundWrite fn pa data => Sys2Proof.Machine.execPcieInboundWrite fn pa data s
  | .watchdogControl v => Sys2Proof.Machine.execWatchdogControl v s
  | .watchdogKick v => Sys2Proof.Machine.execWatchdogKick v s
  | .watchdogExpire => Sys2Proof.Machine.execWatchdogExpire s
  | .powerOn => Sys2Proof.Machine.execPowerOn s
  | .coldStart failStep => Sys2Proof.Machine.execColdStart failStep s
  | .warmStart failStep deadDies => Sys2Proof.Machine.execWarmStart failStep deadDies s
  | .dirtySwap k => Sys2Proof.Machine.execDirtySwap k s
  | .ckRound cmd => Sys2Proof.Machine.execCkRound cmd s
  | .ckFinal cmd => Sys2Proof.Machine.execCkFinal cmd s
  | .ckAbort cmd => Sys2Proof.Machine.execCkAbort cmd s
  | .ckRollback cmd => Sys2Proof.Machine.execCkRollback cmd s
  | .ckcmdInvalid op cmd => Sys2Proof.Machine.execCkcmdInvalid op cmd s
  | .checkpointOpDone id reason => Sys2Proof.Machine.execCheckpointOpDone id reason s
  | .receiverEnable k qp => Sys2Proof.Machine.execReceiverEnable k qp s
  | .stageRecord k kind frame swapSeq data => Sys2Proof.Machine.execStageRecord k kind frame swapSeq data s
  | .commitApply k tenant swapSeq => Sys2Proof.Machine.execCommitApply k tenant swapSeq s
  | .portsDown modid => Sys2Proof.Machine.execPortsDown modid s
  | .mgLogrd buf first count => Sys2Proof.Machine.execMgLogrd buf first count s
  | .mgStage buf len => Sys2Proof.Machine.execMgStage buf len s
  | .mgActivate => Sys2Proof.Machine.execMgActivate s
  | .mgAttest buf nonce => Sys2Proof.Machine.execMgAttest buf nonce s
  | .mgStart cold => Sys2Proof.Machine.execMgStart cold s
  | .mgConfig modid ep => Sys2Proof.Machine.execMgConfig modid ep s
  | .mgLimit sensor value => Sys2Proof.Machine.execMgLimit sensor value s
  | .mcmdInvalid op => Sys2Proof.Machine.execMcmdInvalid op s
  | .mgmtCommandDone => Sys2Proof.Machine.execMgmtCommandDone s
  | .sensorSample thermal rails => Sys2Proof.Machine.execSensorSample thermal rails s
  | .registerWrite pa value => Sys2Proof.Machine.execRegisterWrite pa value s
  | .resultWriteback core ctx id => Sys2Proof.Machine.execResultWriteback core ctx id s
  | .hostHartAccess hart store pa size data => Sys2Proof.Machine.execHostHartAccess hart store pa size data s

end Sys2Proof.Machine
end

