-- ==== Sys2Proof/Machine/Placing.lean ====
section
/-! DEFINITION. An instruction placed where the next step fetches it: what the allocator, the loader and the crew would have
set up for it (log 10). -/

namespace Sys2Proof.Machine
open Sys2Proof

/-- The tenant, the page, and the address of the placed code. -/
def placedTenant : Nat := 1
def placedPc : Dword := 0x10000

/-- Instructions that only the handler slot may issue (R206 to R208). -/
def handlerOnly (op : Nat) : Bool := decide (0x341 ≤ op) && decide (op ≤ 0x345)

/-- A group of width 64 at the placed address. -/
def placedGroup (allot : List Nat) : Group :=
  { live := true, wd := 3, tlevel := true, allot := allot, homes := laneMask 64, running := some placedPc,
    frontier := [{ pc := placedPc, mask := laneMask 64 }] }

/-- A frame of one member, slot 0, for the handler slot to hold. -/
def placedFrame : Frame :=
  { id := 0, cls := 9, info := 0, addr := 0, pc := placedPc, origin := 0, part := 0, parts := 1,
    members := [⟨0, List.replicate 64 { state := 1, prio := 255, pc := placedPc }, [], 0⟩] }

/-- The core that issues: bound to the tenant, with one group, or with the handler's context and a frame. -/
def placedCore (k : Core) (op : Nat) : Core :=
  let k1 := { k with fTenant := BitVec.ofNat 32 (2 ^ 31 + placedTenant), ibuf := [], tlb := [] }
  if handlerOnly op then
    { (k1.withGroup handlerCtx (placedGroup [128])).withGroup 0 { placedGroup [512, 128] with stop := .trap 0 } with curH := some placedFrame }
  else (k1.withGroup 0 (placedGroup [512, 128]))

/-- The instruction's bytes at physical address 0, mapped executable for the tenant, and its issue next. -/
def placeWord (s : State) (nbits w : Nat) : State :=
  let bytes := natToBytes 16 (w % 2 ^ nbits)
  let op := opOfWord (BitVec.ofNat 128 (w % 2 ^ nbits))
  let s1 := setCore s 0 (placedCore (getCore s 0) op)
  let entry : XEntry := { v := true, page := placedPc.toNat / 65536, frame := 0, x := true, r := true, w := true, tag := placedTenant }
  let s2 := setHub s1 (fun h => { h with held := false, starting := none })
  { s2 with
    mem := writeBytes s2.mem 0 bytes, frameTag := mset 0 s2.frameTag 0 placedTenant, chunkTag := mset 0 s2.chunkTag 0 placedTenant,
    xlat := mset {} s2.xlat 0 entry, agenda := .issue 0 (if handlerOnly op then handlerCtx else 0) :: s2.agenda }

end Sys2Proof.Machine
end

