-- ==== Sys2Proof/Machine/Agenda.lean ====
section
/-! DEFINITION. One move of the machine: a context issues, an event happens, or cycles pass (log 1, 2, 3); whose turn an
issue slot's is (R226, R227, R140); and the choice of the running entries (R220, R221). -/

namespace Sys2Proof.Machine
open Sys2Proof

/-- A context fetches its running entry's next instruction and executes it. -/
def issueOnce (c x : Nat) (s : State) : Host.Outcome State Fault Refusal :=
  match fetchNext s c x with
  | .idle s1 => .next s1
  | .run i s1 => exec i s1

/-! ### The choice of the running entry (R220, R221) -/

/-- Why an entry waits (R220): what its next instruction, were it to issue now, would wait for. A STALL count, a result of fixed
latency and an issue slot that another group has taken are no such reason, and neither is a translation (log 15). -/
def waitOf (s : State) (c x : Nat) (e : Entry) : Wait :=
  let alone := updGroup (updCore s c (fun k => { k with slots := [] })) c x (fun g => { g with
    running := some e.pc, lastIssue := 0
    frontier := g.frontier.map (fun q => if q.pc = e.pc ∧ q.park = .none then { q with wait := .none, notBefore := 0 } else q) })
  match issueOnce c x alone with
  | .next t => ((freeEntryAt (getGroup t c x) e.pc).map (·.wait)).getD .none
  | _ => .none

/-- A group with the state of each of its entries, and its choice where it has no ready running entry: the running entry
has become waiting or parked, or a choice point has passed (R221). A stopped group chooses when it resumes. -/
def chosen (s : State) (c x : Nat) (g : Group) : Group :=
  if !g.live || g.stop != .run || g.frontier.isEmpty then g
  else
    let g1 := { g with frontier := g.frontier.map (fun e => if isParked e.park then e else { e with wait := waitOf s c x e }) }
    match runningEntry g1 with
    | some e => if entryReady e then g1 else pickEntry g1
    | none => pickEntry g1

/-- Every group of the module has chosen. -/
def chooseAll (s : State) : State :=
  { s with cores := mmap {} (fun c k => { k with groups := mmap {} (fun x g => chosen s c x g) k.groups }) s.cores }

/-- After a move, idle copy engines take their next chunks (R344) and groups choose. -/
def thenChoose : Host.Outcome State Fault Refusal → Host.Outcome State Fault Refusal
  | .next s => .next (chooseAll (feedEngines s))
  | o => o

/-! ### The choice of an issue slot (R226) -/

/-- The issue slots of a core that a move has used. -/
def slotsTaken (s t : State) (c : Nat) : List Nat :=
  (List.range 4).filter (fun p => decide ((mget {} (getCore s c).slots p).cycle ≤ now s c) &&
    decide ((mget {} (getCore t c).slots p).cycle = now s c + 1))

/-- The context for which a move has issued: the lowest of those that it counts an issue of (R231). -/
def issuedFor (s t : State) (c : Nat) : Option Nat :=
  (List.range 50).find? (fun z => decide ((getGroup t c z).lastIssue = now s c + 1) &&
    decide ((getGroup s c z).lastIssue ≠ now s c + 1))

/-- Context `z` goes before context `y` in a slot (R226): firmware, the handler, then the group whose last issue is the
oldest; a group that has just issued YIELD comes behind one that has not (R140). -/
def goesBefore (s : State) (c z y : Nat) : Bool :=
  if y = firmwareCtx then false
  else if z = firmwareCtx then true
  else if y = handlerCtx then false
  else if z = handlerCtx then true
  else
    let gz := getGroup s c z
    let gy := getGroup s c y
    decide (gz.lastIssue < gy.lastIssue) || (gz.lastIssue == gy.lastIssue && gy.gave && !gz.gave)

/-- The states that a context could bring about by issuing now: by its running entry, or by a completed rendezvous at which
it stands. -/
def issuesOf (s : State) (c y : Nat) : List State :=
  let parked := (getGroup s c y).frontier.filter (fun e => isParked e.park)
  ((issueOnce c y s) :: parked.map (fun e => execRendezvousComplete c y e.pc s)).filterMap
    (fun o => match o with | .next t => some t | _ => none)

/-- A move that issues on core `c` has its turn (R226): no context that goes before would use an issue slot that it uses. A
move that uses no slot of its own, which arrives, waits or shares an issue (R227), is not held up. -/
def hasTurn (s t : State) (c : Nat) : Bool :=
  match issuedFor s t c with
  | none => true
  | some y =>
    let ps := slotsTaken s t c
    ps.isEmpty || ((getCore s c).groups.map (·.1)).all (fun z => z == y || (issuesOf s c z).all (fun u =>
      match issuedFor s u c with
      | none => true
      | some w => !(goesBefore s c w y && (slotsTaken s u c).any ps.contains)))

/-- A move on core `c` from `s`, if it has its turn. -/
def inTurn (s : State) (c : Nat) : Host.Outcome State Fault Refusal → Host.Outcome State Fault Refusal
  | .next t => if hasTurn s t c then .next t else .next s
  | o => o

/-! ### Moves -/

/-- An encoded instruction is no event: it acts only when it is fetched. -/
def isEvent (i : Instr) : Bool := (opcodeOf i).isNone

/-- The core on which an event issues an instruction. -/
def issuingCore (i : Instr) : Option Nat :=
  match i with
  | .rendezvousComplete core _ _ => some core
  | _ => none

/-- An event happens, unless it needs the module up and the module is not. -/
def runEvent (i : Instr) (s : State) : Host.Outcome State Fault Refusal :=
  if !isEvent i || !wellFormed i then .fault .illFormed
  else if !moduleUp s && !runsAlways i then .next s
  else match issuingCore i with
    | some c => inTurn s c (exec i s)
    | none => exec i s

/-- A context issues its next instruction, if it has one and its slot's turn. -/
def runIssue (c x : Nat) (s : State) : Host.Outcome State Fault Refusal :=
  if !moduleUp s then .next s
  else
    let s1 := updGroup s c x (chosen s c x)
    inTurn s1 c (issueOnce c x s1)

/-- Cycles of a die's arithmetic clock pass (R10, R12). -/
def elapseDieBy (d n : Nat) (s : State) : State :=
  setDie s d { getDie s d with cycle := (getDie s d).cycle + n }

/-- The handler's or the firmware's context, which may issue in any slot, is to issue in another (R225). -/
def runTurn (c x p : Nat) (s : State) : State :=
  if x < handlerCtx then s else updGroup s c x (fun g => { g with slot := p % 4 })

/-- One move, after which idle engines take chunks and every group that is to choose an entry chooses. -/
def runAgent (a : Agent) (s : State) : Host.Outcome State Fault Refusal :=
  thenChoose (match a with
    | .issue c x => runIssue c x s
    | .turn c x p => .next (runTurn c x p s)
    | .event i => runEvent i s
    | .strike w => .next (strike w s)
    | .outside o => .next (if moduleUp s || toManagement o then outside o s else s)
    | .elapseDie d n => .next (elapseDieBy d n s)
    | .elapseHub n => .next (elapseHubBy s n))

/-- The next move: the head of the agenda, or, where the agenda is empty, one that nothing fixes (log 1). -/
def nextMove (s : State) : Agent × State :=
  match s.agenda with
  | a :: rest => (a, { s with agenda := rest })
  | [] => (Config.nextAgent s.free, { s with free := s.free + 1 })

end Sys2Proof.Machine
end

