-- ==== Sys2Proof/Machine/Step.lean ====
section
/-! DEFINITION. The step, and an instruction placed where the next step fetches it. -/

namespace Sys2Proof.Machine
open Sys2Proof

/-- One step: the next agent moves (log 1). -/
def step (s : State) : Host.Outcome State Fault Refusal := runAgent (nextMove s).1 (nextMove s).2

/-- The state in which the next step fetches and runs the instruction whose words are `w` (log 10). -/
def State.withFetchWord (s : State) (nbits w : Nat) : State := placeWord s nbits w

end Sys2Proof.Machine
end

