-- ==== Sys2Proof/Safety.lean ====
section
/-! DEFINITION. The terms in which claims speak: an instruction that can issue, the state after it has, what an
instruction over registers alone leaves as it was, a safe step, and the invariant of the tables that hold memory. -/

namespace Sys2Proof.Safety
open Sys2Proof Sys2Proof.Machine

/-! ### An instruction that issues -/

/-- A state whose `cur` names a context, the entry that runs there, the state in which the instruction takes effect (the
same, or with the entry arrived at the rendezvous that it completes), the slots that it acts for, and its opcode. -/
structure Issue where
  s  : State
  e  : Entry
  s1 : State
  xs : List Nat
  op : Nat

/-- The core of an issue. -/
def Issue.core (q : Issue) : Nat := q.s.cur.1
/-- The context of an issue. -/
def Issue.ctx (q : Issue) : Nat := q.s.cur.2

/-- Whether an instruction acts for more than the issuing entry (R229). -/
def wideOf (f : Fields) : Bool := f.scope != .lane

/-- The slots that hold an entry at the instruction. -/
def Issue.present (q : Issue) (f : Fields) : List Nat :=
  q.xs.filter (fun x => (issuingEntry (getGroup q.s1 q.core x) (wideOf f) q.e.pc).isSome)

/-- The members with their lanes (R15, R231). -/
def Issue.members (q : Issue) (f : Fields) : Members := q.xs.map (memberOf q.s1 q.core f q.e.pc (wideOf f))

/-- An instruction of lane scope takes effect in the state in which it issues, for its own slot alone. -/
def Issue.alone (q : Issue) : Prop := q.s1 = q.s ∧ q.xs = [q.ctx]

/-- An instruction of a wider scope takes effect once its entry's arrival completes the rendezvous (R229 to R233). -/
def Issue.joined (q : Issue) (op : Nat) (f : Fields) : Prop :=
  let k := getCore q.s q.core
  let p := rdvOf (k.group q.ctx) op f
  (f.scope = .set → (k.group q.ctx).setId ≠ none) ∧
  q.xs = membersAt k q.ctx f.scope (byRoleOp op f) ∧
  findConflict k q.ctx q.e.pc p q.xs = none ∧
  q.s1 = updGroup q.s q.core q.ctx (fun g => arrive g q.e.pc p) ∧
  rdvComplete (getCore q.s1 q.core) q.xs q.e.pc p = true ∧
  q.xs.all (memberFree q.s1 q.core op f q.e.pc) = true

/-- The issue slot that the instruction uses, and its use (R226, R227, R231). -/
def Issue.use (q : Issue) (f : Fields) : Option (Nat × SlotUse) := slotUse q.s1 q.core f q.e.pc (q.members f)

/-- A state in which the slot has issued for the members that hold an entry. -/
def Issue.used (q : Issue) (f : Fields) (t : State) : State := takeSlot t q.core (q.use f) (q.present f)

/-- An instruction of opcode `op` issues in this state and takes effect: an entry runs, nothing it depends on is
outstanding (R67 to R72), its rendezvous completes with nothing for its members to wait for (R222), its issue slot has not
issued in this cycle (R226), it names no register outside the allotment of a member (R18), and reads none that an
uncorrectable error has struck (R395). -/
structure Ready (op : Nat) (f : Fields) (q : Issue) : Prop where
  same    : q.op = op
  running : runningEntry (getGroup q.s q.core q.ctx) = some q.e
  free    : depCheck q.s q.core q.ctx op f q.e = .go
  gathers : if f.scope = .lane then q.alone else q.joined op f
  slot    : (q.use f).isSome = true
  bound   : rbOf (getCore q.s1 q.core) op f q.xs = none
  clean   : struckOf (getCore q.s1 q.core) op f (q.members f) = none

/-- The state after an instruction whose entries go on at the next one (R67). -/
def Issue.onward (q : Issue) (f : Fields) (t : State) : State :=
  stepFree (retire (q.used f t) q.core q.op f q.e.pc (wideOf f) (q.present f))

/-- The state after an instruction that has placed its entries itself. -/
def Issue.moved (q : Issue) (f : Fields) (t : State) : State :=
  stepFree (updCore (q.used f t) q.core (fun k => updSlots k (q.present f) (markIssued q.s1 q.core q.op f)))

/-- The state after an instruction whose entries are parked, at the next instruction or at this one. -/
def Issue.parked (q : Issue) (f : Fields) (next : Bool) (p : Park) (t : State) : State :=
  stepFree (parkAll (q.used f t) q.core q.op f q.e.pc (wideOf f) next p (q.present f))

/-- The state after an instruction that has trapped: step 1 of R281. -/
def Issue.trapped (q : Issue) (f : Fields) (next : Bool) (r : TrapReq) (t : State) : State :=
  stepFree (raiseTrap (stopLanes (q.used f t) q.core q.op f q.e.pc (wideOf f) next (q.present f)) q.core r)

/-- The state after an instruction that has to wait: nothing has happened but what its walks found. -/
def Issue.waits (q : Issue) (f : Fields) (t : State) : State :=
  stepFree (if wideOf f then t else
    updCore t q.core (fun k => updSlots k (q.present f) (fun g => waitEntry g q.e.pc .other)))

/-- Some lane of some member executes. -/
def Issue.executes (q : Issue) (f : Fields) : Prop := noExec (q.members f) = false

/-- The slot and the lane that give the scalar operands (R191). -/
def Issue.scalar (q : Issue) (f : Fields) (x l : Nat) : Prop := scalarLane (q.members f) = some (x, l)

/-- Operands of a lane as an instruction's fields name them: words and pairs from A, B and C, A and B after PERM. -/
structure Operands where
  a  : Word
  b  : Word
  c  : Word
  aa : Dword
  bb : Dword
  cc : Dword

/-- The operands of lane `l` of slot `x` of core `c`. -/
def operandsOf (s : State) (c : Nat) (f : Fields) (x l : Nat) : Operands :=
  ⟨opA s c x f l, opB s c x f l, opC s c x f l, pairA s c x f l, pairB s c x f l, pairC s c x f l⟩

/-- The state after an instruction whose only effect is that `n` registers from D get, in each executing lane, the words
`val` of that lane's operands, with latency `lat` (none: variable) (R68, R89). -/
def Issue.computes (q : Issue) (f : Fields) (lat : Option Nat) (n : Nat) (val : Operands → List Word) : State :=
  q.onward f (postResults q.s1 q.core f (q.members f) lat n (fun t x l => val (operandsOf t q.core f x l)))

/-- The results of a floating-point instruction in every member: words and exceptions of each executing lane (R27). -/
def Issue.floats (q : Issue) (f : Fields) (lat : Option Nat) (n : Nat) (val : Operands → List Word × Exc) :
    List (Member × Pend) :=
  fpPends q.s1 q.core f (q.members f) lat n (fun t x l => val (operandsOf t q.core f x l))

/-- The state after a floating-point instruction: where an enabled exception is raised the members are parked until the
results have landed and then trap, else they go on (R27, R28). -/
def Issue.computesFp (q : Issue) (f : Fields) (lat : Option Nat) (n : Nat) (val : Operands → List Word × Exc) : State :=
  let r := postFp q.s1 q.core q.e.pc (nextPc q.e.pc f) (q.members f) (q.floats f lat n val)
  if r.2 then q.parked f true .hold r.1 else q.onward f r.1

/-- Elements of the members in the order of R104, the A value of one, and whether it counts: it exists and executes. -/
def Issue.elems (q : Issue) (f : Fields) : List Elem := elemsOf q.s1 q.core (q.members f)
def Issue.a (q : Issue) (f : Fields) (e : Nat) : Word := rawA q.s1 q.core f (elemAt (q.elems f) e)
def Issue.takes (q : Issue) (f : Fields) (e : Nat) : Prop :=
  e < (q.elems f).length ∧ (elemAt (q.elems f) e).exec = true
/-- The A values of the executing elements below `m`, in order. -/
def Issue.values (q : Issue) (f : Fields) (m : Nat) : List Word :=
  ((List.range (min m (q.elems f).length)).filter (fun e => (elemAt (q.elems f) e).exec)).map (q.a f)

/-- The state after an instruction whose only effect is that the executing elements get the words `val e`, e their
numbers (R104, R105). -/
def Issue.computesElems (q : Issue) (f : Fields) (lat : Option Nat) (n : Nat) (val : Nat → List Word) : State :=
  q.onward f (postElems q.s1 q.core f (q.members f) lat n val)

/-! ### Frames -/

/-- Everything outside the register files and frontiers of one core is as it was; what the step counts may differ, and so
may the marks of pending matrix instructions whose registers were written (R183) and the record of values that a tenant's
registers have held (R21). -/
def onlyCore (c : Nat) (s t : State) : Prop :=
  t = { s with cores := t.cores, serial := t.serial, free := t.free, mxOps := t.mxOps, wrote := t.wrote } ∧
  ∀ d, d ≠ c → getCore t d = getCore s d

/-- Memory and everything that stands outside the cores is as it was. -/
def sameMemory (s t : State) : Prop :=
  t.mem = s.mem ∧ t.dram = s.dram ∧ t.spm = s.spm ∧ t.poison = s.poison ∧ t.l2 = s.l2

/-- The registers and flags of a group are as they were, but that results already visible may have been written. -/
def keepsValues (n : Nat) (g h : Group) : Prop :=
  (h.regs = g.regs ∧ h.fpflags = g.fpflags) ∨
  (h.regs = (landDue n g).regs ∧ h.fpflags = (landDue n g).fpflags)

/-- What a group keeps while it computes: width, role, block, level, mode, priority, allotment, homes, matrix flags, extra
values, notice and set. -/
def keepsPlace (g h : Group) : Prop :=
  h.wd = g.wd ∧ h.role = g.role ∧ h.block = g.block ∧ h.tlevel = g.tlevel ∧ h.il = g.il ∧ h.prio = g.prio ∧
  h.allot = g.allot ∧ h.home = g.home ∧ h.homes = g.homes ∧ h.mx = g.mx ∧ h.xv = g.xv ∧ h.notice = g.notice ∧
  h.setId = g.setId ∧ h.handles = g.handles ∧ h.storeq = g.storeq ∧ h.loads = g.loads

/-! ### Writes to DRAM -/

/-- A byte of a dirty tracker's current buffer that a write of `n` bytes at `pa` sets a bit of (R399). -/
def trackedAt (s : State) (pa n a : Nat) : Prop :=
  ∃ t ∈ s.hub.trackers, ∃ fr, pa / 65536 ≤ fr ∧ fr ≤ (pa + n - 1) / 65536 ∧ t.2.en = true ∧ t.2.tenant = mget 0 s.frameTag fr ∧
    a = (if t.2.cur then t.2.buf1 else t.2.buf0) + (fr / 2097152 % 4 * 1572864 + fr % 2097152) / 8

/-- Bytes written at `pa` read back, and every other byte of memory is as it was, bits of dirty trackers apart. -/
def wrote (s t : State) (pa : Nat) (bs : List Byte) : Prop :=
  (∀ a, a < pa ∨ pa + bs.length ≤ a → ¬ trackedAt s pa bs.length a → readByte t.mem a = readByte s.mem a) ∧
  (∀ i, i < bs.length → ¬ trackedAt s pa bs.length (pa + i) → readByte t.mem (pa + i) = bs.getD i 0)

/-! ### Safe steps -/

/-- A step that neither faults nor is refused. -/
def Safe (s : State) : Prop := ∃ t, step s = .next t

/-! ### The invariant of memory -/

/-- Memory, the stored values of DRAM and the scratchpads are in canonical form. -/
def MemoryCanonical (s : State) : Prop :=
  Memory.wf s.mem = true ∧ Memory.wf s.dram = true ∧ Memory.wf s.spm = true

end Sys2Proof.Safety
end

