-- ==== Sys2Proof/Certificates/Slice0/Obligations.lean ====
section
/-! DEFINITION. The statements for the provers, each with the rules of the manual that it formalises. -/

open Sys2Proof Sys2Proof.Machine Sys2Proof.Safety

/-! ### Encoding -/

/-- Words of the manual's worked encodings decode to the instructions they stand for (R56 to R58, R97, R203). -/
def Obligations.decode_words : Prop :=
  decodeTableWord 128 0x000000D8_00000003_03FF00801028_1502 = some (.lop3
    { len := .w128, scope := .lane, stall := 0, sw := false, d := 10, a := 1, b := 2, p := 1023, pn := false, ra := false,
      rb := false, mod := 0, c := 3, perm := 0, hint := 0, sub := 0, rsvi := 0, imm := 0xD8 }) ∧
  decodeTableWord 128 0x00000005_00000010_03FF028080A30242 = some (.lpost
    { len := .w128, scope := .group, stall := 0, sw := false, d := 40, a := 8, b := 10, p := 1023, pn := false,
      ra := false, rb := false, mod := 0, c := 16, perm := 0, hint := 0, sub := 0, rsvi := 0, imm := 5 }) ∧
  decodeTableWord 128 0x00001003_00000000_03FF000000534602 = some (.csrrd
    { len := .w128, scope := .lane, stall := 0, sw := false, d := 20, a := 0, b := 0, p := 1023, pn := false,
      ra := false, rb := false, mod := 0, c := 0, perm := 0, hint := 0, sub := 0, rsvi := 0, imm := 0x1003 }) ∧
  decodeTableWord 128 0x00010000_08000000_03FF030140020102 = some (.st
    { len := .w128, scope := .lane, stall := 0, sw := false, d := 0, a := 20, b := 12, p := 1023, pn := false,
      ra := false, rb := false, mod := 0, c := 0, perm := 0, hint := 0, sub := 4, rsvi := 0, imm := 0x10000 }) ∧
  decodeTableWord 8 0x03 = none

/-- Decoding the bytes of a well-formed instruction, wherever they stand in a fetch block that holds them whole, gives the
instruction back, whatever follows them; and every instruction with an opcode has bytes (R55 to R60, R76). -/
def Obligations.decode_encode : Prop :=
  ∀ i : Instr, wellFormed i = true →
    (opcodeOf i ≠ none → encode i ≠ none) ∧
    ∀ (bs rest : List Byte) (off : Nat), encode i = some bs → off + bs.length ≤ 32 →
      decode topPriv off (bs ++ rest) = .ok i

/-- What decodes is well-formed, its bytes are those that were fetched, and it lies in one fetch block (R60, R76). -/
def Obligations.encode_decode : Prop :=
  ∀ (pv : Priv) (off : Nat) (bs : List Byte) (i : Instr), decode pv off bs = .ok i →
    wellFormed i = true ∧
    ∃ cs, encode i = some cs ∧ off + cs.length ≤ 32 ∧ (cs.length ≤ bs.length → bs.take cs.length = cs)

/-- The front end refuses an instruction that crosses a fetch block with cause 2, whatever its other fields are; one of
64 bits may start at offsets 0 to 24, one of 96 at 0 to 20, one of 128 at 0 to 16 (R60).
An instruction of a level above the code's is refused with cause 6 once its length and scope pass, and the
instructions of the handler slot are refused elsewhere, but for the firmware's ERET (R24, R74, R76, R279). -/
def Obligations.front_end_refusals : Prop :=
  (∀ (pv : Priv) (off : Nat) (bs : List Byte) (len : Len),
     lenOfBits (BitVec.ofNat 2 (bytesToNat (bs.take 1))) = some len →
     (32 < off + lenBytes len → decode pv off bs = .error .crossesBlock ∧ DecodeError.crossesBlock.cause = 2) ∧
     (off + lenBytes len ≤ 32 ↔ off ≤ (match len with | .w64 => 24 | .w96 => 20 | .w128 => 16))) ∧
  (∀ (pv : Priv) (len : Len) (w : BitVec 128) (r : OpRow) (i : Instr),
     opRow (opOfWord w) = some r → buildInstr (opOfWord w) (fieldsOfWord len w) = some i →
     lenRank r.min ≤ lenRank len → scopeOk r (fieldsOfWord len w).scope = true →
     (pv.level < r.level ∨ (r.handlerOnly = true ∧ pv.handler = false ∧ ¬ (pv.level = 3 ∧ opOfWord w = 0x341))) →
       decodeWord pv len w = .error .badLevel ∧ DecodeError.badLevel.cause = 6)

/-! ### Steps -/

/-- Where a context is the next to move, and the running entry that its group has chosen may issue, its program counter is
aligned and translates, and the bytes there, those of the buffered fetch block or of memory, decode to an instruction, a step
is exactly that instruction's execution with `cur` naming the context, after which idle copy engines take their next chunks
and every group that is to choose an entry chooses; it happens unless the issue slot is another context's in this cycle, which
in a core with no other context it never is (R60, R62, R76, R221, R226, R344; the agenda is the model's, log 1). -/
def Obligations.step_runs_decoded : Prop :=
  ∀ (s s2 : State) (c x : Nat) (rest : List Agent) (e : Entry) (pa : Nat) (block : List Byte) (i : Instr),
    let s1 := { s with agenda := rest }
    let s0 := updGroup s1 c x (chosen s1 c x)
    let g := getGroup s0 c x
    let u := useWalks s2 c x 0 [pageOf e.pc]
    let r := fetchBlock u c pa
    s.agenda = .issue c x :: rest → moduleUp s = true →
    g.live = true → g.stop = .run → runningEntry g = some e → e.notBefore ≤ now s0 c → g.lastIssue ≤ now s0 c →
    e.pc.toNat % 4 = 0 → signExtended e.pc = true → translate s0 c x e.pc 0 = (s2, .pa pa) →
    r.2 = some block → decode (privOf g x) (pa % 32) (block.drop (pa % 32)) = .ok i →
      let v := { r.1 with cur := (c, x) }
      step s = thenChoose (inTurn s0 c (exec i v)) ∧
      (∀ t, exec i v = .next t → (hasTurn s0 t c = true → step s = .next (chooseAll (feedEngines t))) ∧
        (slotsTaken s0 t c = [] → hasTurn s0 t c = true) ∧
        ((∀ z h, (z, h) ∈ (getCore s0 c).groups → some z = issuedFor s0 t c) → hasTurn s0 t c = true)) ∧
      (mget [] (getCore u c).ibuf (pa / 32) = [] → block = readBytes u.mem (pa / 32 * 32) 32)

/-- A running entry whose program counter is not a multiple of 4 traps with class AL at that address, and one outside the
virtual address space with class TP, before any instruction is fetched (R55, R62, R158, R280). -/
def Obligations.fetch_alignment : Prop :=
  ∀ (s : State) (c x : Nat) (rest : List Agent) (e : Entry),
    let s1 := { s with agenda := rest }
    let s0 := updGroup s1 c x (chosen s1 c x)
    let g := getGroup s0 c x
    s.agenda = .issue c x :: rest → moduleUp s = true →
    g.live = true → g.stop = .run → runningEntry g = some e → e.notBefore ≤ now s0 c → g.lastIssue ≤ now s0 c →
      (e.pc.toNat % 4 ≠ 0 → step s = .next (chooseAll (feedEngines (raiseTrap s0 c
        { cls := 7, info := 0, addr := e.pc, pc := e.pc, slots := [x], origin := x })))) ∧
      (e.pc.toNat % 4 = 0 → signExtended e.pc = false → step s = .next (chooseAll (feedEngines (raiseTrap s0 c
        { cls := 5, info := 0, addr := e.pc, pc := e.pc, slots := [x], origin := x }))))

/-- A well-formed event at the head of the agenda happens, and then idle copy engines take their next chunks and every group
that is to choose an entry chooses; the issue
that a completed rendezvous brings happens in its slot's turn; a term that is no event, or whose operands name no unit, is a
fault of its own (R221, R226, R344; the agenda is the model's, log 1, log 2). -/
def Obligations.step_runs_event : Prop :=
  ∀ (s : State) (i : Instr) (rest : List Agent), s.agenda = .event i :: rest →
    (isEvent i = true → wellFormed i = true → (moduleUp s = true ∨ runsAlways i = true) →
      ((∀ c x pc, i ≠ .rendezvousComplete c x pc) → step s = thenChoose (exec i { s with agenda := rest })) ∧
      (∀ c x pc, i = .rendezvousComplete c x pc →
        step s = thenChoose (inTurn { s with agenda := rest } c (exec i { s with agenda := rest })))) ∧
    ((isEvent i = false ∨ wellFormed i = false) → step s = .fault .illFormed)

/-- What reset leaves: DRAM reads zero, no frame, bank, chunk or lane has a tenant, every core is unbound and at cycle 0
with t.handler 0, every queue slot is disabled, every message-signalled interrupt is masked, WDCTL is 0x0000_03E8 and
WDLEFT 0, XV registers and registers of a slot have their launch values, and memory is in canonical form (R30, R32,
R189, R260, R297, R326, R373, R387, R389). -/
def Obligations.reset_values : Prop :=
  (∀ a, readByte State.reset.mem a = 0) ∧
  (∀ k, frameTagOf State.reset k = 0) ∧ (∀ c b, bankTagOf State.reset c b = 0) ∧
  (∀ d c, chunkTagOf State.reset d c = 0) ∧ (∀ l, laneTagOf State.reset l = 0) ∧
  (∀ c, (getCore State.reset c).fTenant = 0 ∧ (getCore State.reset c).tHandler = 0 ∧ now State.reset c = 0) ∧
  (∀ c x r l, regAt (getGroup State.reset c x) r l = 0 ∧ (getGroup State.reset c x).fpflags = 0 ∧
    (getGroup State.reset c x).xv = List.replicate 8 0x8000 ∧ (getGroup State.reset c x).live = false) ∧
  (∀ q, (getQueue State.reset q).en = false ∧ (getQueue State.reset q).state = 0 ∧ (getQueue State.reset q).r = 0) ∧
  (∀ i, (mget {} State.reset.hub.msi i).mask = true ∧ (mget {} State.reset.hub.msi i).pend = false) ∧
  State.reset.hub.wdctl = 0x3E8 ∧ State.reset.hub.wdleft = 0 ∧
  (∀ t, (getTenant State.reset t).xlat = 0)

/-- The state after reset is one in which memory is in canonical form. -/
def Obligations.reset_memory_canonical : Prop := MemoryCanonical State.reset

/-! ### Registers and issue -/

/-- Register number 1023 reads zero, alone and as a pair, and a result for it goes nowhere; the predicate holds where P is
1023, else where the register's value is nonzero, or with PN zero (R13, R14, R15).
Results of one group: where a lane executes and D is not 1023, one result goes into flight for the executing lanes and
registers D to D + n - 1, readable `lat` cycles later, which holds for each lane the words of that lane's operands; the
value of a register that a pending matrix instruction uses is open instead (R68, R89, R183). Nothing else is sent.
A result that is due lands: a register of a lane that it alone touches reads its value, and its exceptions are in
k.fpflags (R27, R68). -/
def Obligations.registers_and_results : Prop :=
  ((∀ (s : State) (c x field l : Nat), readReg s c x field 1023 l = 0 ∧ readPair s c x field 1023 l = 0) ∧
   (∀ (s : State) (c : Nat) (f : Fields) (ms : Members) (lat : Option Nat) (n : Nat) (val : State → Nat → Nat → List Word),
     f.d = 1023 → postResults s c f ms lat n val = s) ∧
   (∀ (s : State) (c x : Nat) (f : Fields) (m : Mask) (l : Nat), l < 64 →
     (execMask s c x f m).getLsbD l =
       (m.getLsbD l && (f.p == 1023 || (if f.pn then readReg s c x fldP f.p l == 0 else readReg s c x fldP f.p l != 0))))) ∧
  (∀ (s : State) (c : Nat) (f : Fields) (m : Member) (lat : Option Nat) (n : Nat) (val : State → Nat → Nat → List Word),
     let t := postResults s c f [m] lat n val
     (f.d ≠ 1023 → m.exec ≠ 0 → ∃ p ∈ (getGroup t c m.slot).pend,
       p.id = s.serial ∧ p.lanes = m.exec ∧ p.regs = (List.range n).map (f.d.toNat + ·) ∧
       p.due = lat.map (now s c + ·) ∧ p.ready = true ∧ p.held = none ∧
       ∀ l k, l < 64 → m.exec.getLsbD l = true → k < n →
         mget 0 p.cells (cellKey (f.d.toNat + k) l) =
           keptValue s c m.slot (f.d.toNat + k) l ((val s m.slot l).getD k 0)) ∧
     ((f.d = 1023 ∨ m.exec = 0) → t = s)) ∧
  (∀ (g : Group) (p : Pend) (r l : Nat),
     ((landPend g p).fpflags = g.fpflags ||| p.exc.setWidth 32) ∧
     (cellKey r l ∉ p.skip → (∃ v, (cellKey r l, v) ∈ p.cells) →
       (cellKey r l, regAt (landPend g p) r l) ∈ p.cells) ∧
     ((∀ v, (cellKey r l, v) ∉ p.cells) ∨ cellKey r l ∈ p.skip → regAt (landPend g p) r l = regAt g r l) ∧
     (∀ q ∈ (landPend g p).pend, q ∈ g.pend ∧ q.id ≠ p.id))

/-- An entry alone at its address goes on at the next instruction, as many bytes further as the instruction has, and it
issues again no earlier than the STALL count allows (R55, R67).
A register named at or beyond the allotment raises RB with the lowest such number, before any effect, once the
instruction's slot may issue; the group stops and resumes at the instruction (R18, R226, R279, R281). -/
def Obligations.going_on_and_bounds : Prop :=
  (∀ (g : Group) (pc next : Dword) (e : Entry) (nb : Nat), g.frontier = [e] → e.pc = pc → e.park = .none → next ≠ pc →
     (advance g false pc next nb).frontier =
       [{ e with pc := next, park := .none, wait := .none, settle := false, notBefore := nb }] ∧
     (advance g false pc next nb).running = some next ∧
     ∀ (s : State) (c x : Nat) (f : Fields), (getGroup s c x).il = false → x < handlerCtx →
       nextCycle s c x f = now s c + 1 + f.stall.toNat) ∧
  (∀ (op : Nat) (f : Fields) (body : Dword → Members → State → Res) (s : State) (e : Entry) (r : Nat),
     f.scope = .lane → runningEntry (getGroup s s.cur.1 s.cur.2) = some e →
     depCheck s s.cur.1 s.cur.2 op f e = .go → outOfBound (getGroup s s.cur.1 s.cur.2) op f = some r →
     (issuingEntry (getGroup s s.cur.1 s.cur.2) false e.pc).isSome = true →
     (slotUse s s.cur.1 f e.pc [memberOf s s.cur.1 f e.pc false s.cur.2]).isSome = true →
       issue op f body s = .next (raiseTrap s s.cur.1
         { cls := 2, info := BitVec.ofNat 32 r, pc := e.pc, slots := [s.cur.2], origin := s.cur.2 }))

/-! ### Integer instructions -/

/-- The reading of a word under MOD's signedness (R90). -/
def signedBy (mod : BitVec 3) (a : Word) : Int := if mod = 0 then a.toInt else (a.toNat : Int)

/-- `sat(x, lo, hi)` of R3. -/
def clampTo (lo hi x : Int) : Int := max lo (min hi x)

/-- The words of IADD and ISUB, IADD64 and ISUB64 (R91): the exact sum or difference of the signed readings, and of the
unsigned ones. -/
def sumWords (mod : BitVec 3) (signed unsigned : Int) : List Word :=
  if mod = 0 then [BitVec.ofInt 32 unsigned]
  else if mod = 1 then [BitVec.ofInt 32 (clampTo (-(2 ^ 31)) (2 ^ 31 - 1) signed)]
  else if mod = 2 then [BitVec.ofInt 32 (clampTo 0 (2 ^ 32 - 1) unsigned)]
  else [BitVec.ofInt 32 unsigned, if unsigned < 0 ∨ 2 ^ 32 ≤ unsigned then 1 else 0]
def sumPair (mod : BitVec 3) (signed unsigned : Int) : List Word :=
  pairWords (if mod = 0 then BitVec.ofInt 64 unsigned
    else if mod = 1 then BitVec.ofInt 64 (clampTo (-(2 ^ 63)) (2 ^ 63 - 1) signed)
    else BitVec.ofInt 64 (clampTo 0 (2 ^ 64 - 1) unsigned))

/-- IMIN, IMAX and IABS complete and write the words of R93. -/
def Obligations.minimum_maximum_absolute : Prop :=
  ∀ (f : Fields) (q : Issue),
    (Ready 0x009 f q → exec (.imin f) q.s = .next (q.computes f (some 4) 1
      (fun o => [if signedBy f.mod o.b < signedBy f.mod o.a then o.b else o.a]))) ∧
    (Ready 0x00A f q → exec (.imax f) q.s = .next (q.computes f (some 4) 1
      (fun o => [if signedBy f.mod o.a < signedBy f.mod o.b then o.b else o.a]))) ∧
    (Ready 0x00B f q → exec (.iabs f) q.s = .next (q.computes f (some 4) 1
      (fun o => [BitVec.ofNat 32 (if f.mod = 1 then min (2 ^ 31 - 1) o.a.toInt.natAbs else o.a.toInt.natAbs)])))

/-- Addition and subtraction complete and write the sums of R91 with the latency of R68: modulo the width, saturated, or
with the carry or borrow in the next register.
Multiplication completes and writes the words of R92.
IDIV and IREM complete, without a fault for any operands, with variable latency. For a divisor other than zero there
are exact q and r with a = q b + r, |r| < |b|, r of the sign of the dividend or zero, of which they write the low words;
for a zero divisor they write 0xFFFF_FFFF and a (R94). -/
def Obligations.integer_arithmetic : Prop :=
  (∀ (f : Fields) (q : Issue),
     (Ready 0x001 f q → exec (.iadd f) q.s = .next (q.computes f (some 4) (if f.mod = 3 then 2 else 1)
       (fun o => sumWords f.mod (o.a.toInt + o.b.toInt) (o.a.toNat + o.b.toNat)))) ∧
     (Ready 0x002 f q → exec (.isub f) q.s = .next (q.computes f (some 4) (if f.mod = 3 then 2 else 1)
       (fun o => sumWords f.mod (o.a.toInt - o.b.toInt) ((o.a.toNat : Int) - o.b.toNat)))) ∧
     (Ready 0x003 f q → exec (.iadd64 f) q.s = .next (q.computes f (some 4) 2
       (fun o => sumPair f.mod (o.aa.toInt + o.bb.toInt) (o.aa.toNat + o.bb.toNat)))) ∧
     (Ready 0x004 f q → exec (.isub64 f) q.s = .next (q.computes f (some 4) 2
       (fun o => sumPair f.mod (o.aa.toInt - o.bb.toInt) ((o.aa.toNat : Int) - o.bb.toNat)))) ∧
     (Ready 0x022 f q → exec (.iaddi f) q.s = .next (q.computes f (some 4) 1
       (fun o => sumWords f.mod (o.a.toInt + f.imm.toInt) (o.a.toNat + f.imm.toNat))))) ∧
  (∀ (f : Fields) (q : Issue),
     (Ready 0x005 f q → exec (.imul f) q.s = .next (q.computes f (some 6) 1
       (fun o => [BitVec.ofNat 32 (o.a.toNat * o.b.toNat)]))) ∧
     (Ready 0x006 f q → exec (.imulh f) q.s = .next (q.computes f (some 6) 1
       (fun o => [BitVec.ofInt 32 (signedBy f.mod o.a * signedBy f.mod o.b / 2 ^ 32)]))) ∧
     (Ready 0x007 f q → exec (.imad f) q.s = .next (q.computes f (some 6) 1
       (fun o => [BitVec.ofNat 32 (o.a.toNat * o.b.toNat + o.c.toNat)]))) ∧
     (Ready 0x008 f q → exec (.imadw f) q.s = .next (q.computes f (some 6) 2
       (fun o => pairWords (BitVec.ofInt 64 (signedBy f.mod o.a * signedBy f.mod o.b + o.cc.toInt)))))) ∧
  (∀ (f : Fields) (q : Issue), ∃ quo rem : Operands → Word,
     (Ready 0x00C f q → exec (.idiv f) q.s = .next (q.computes f none 1 (fun o => [quo o]))) ∧
     (Ready 0x00D f q → exec (.irem f) q.s = .next (q.computes f none 1 (fun o => [rem o]))) ∧
     ∀ o, (o.b = 0 → quo o = 0xFFFFFFFF ∧ rem o = o.a) ∧
       (o.b ≠ 0 → ∃ x r : Int, signedBy f.mod o.a = x * signedBy f.mod o.b + r ∧ r.natAbs < (signedBy f.mod o.b).natAbs ∧
         (0 ≤ signedBy f.mod o.a → 0 ≤ r) ∧ (signedBy f.mod o.a ≤ 0 → r ≤ 0) ∧
         quo o = BitVec.ofInt 32 x ∧ rem o = BitVec.ofInt 32 r))

/-- The conditions of R95. -/
def conditionOf (mod : BitVec 3) (a b : Word) : Prop :=
  if mod = 0 then a = b else if mod = 1 then a ≠ b
  else if mod = 2 then a.toInt < b.toInt else if mod = 3 then a.toInt ≤ b.toInt
  else if mod = 4 then a.toNat < b.toNat else if mod = 5 then a.toNat ≤ b.toNat
  else if mod = 6 then b.toInt < a.toInt else b.toNat < a.toNat

/-- ICMP and ICMPI complete and write 1 where the condition of R95 holds and 0 where it does not; SEL completes and writes
a where c is not zero and b where it is (R95, R96).
The logic instructions complete and act on every bit as R97 says; the bit of LOP3's table is selected by
a[i] + 2 b[i] + 4 c[i]. -/
def Obligations.comparison_selection_logic : Prop :=
  (∀ (f : Fields) (q : Issue), ∃ val vali : Operands → Word,
     (Ready 0x00E f q → exec (.icmp f) q.s = .next (q.computes f (some 4) 1 (fun o => [val o]))) ∧
     (Ready 0x023 f q → exec (.icmpi f) q.s = .next (q.computes f (some 4) 1 (fun o => [vali o]))) ∧
     (Ready 0x00F f q → exec (.sel f) q.s = .next (q.computes f (some 4) 1 (fun o => [if o.c = 0 then o.b else o.a]))) ∧
     ∀ o, (conditionOf f.mod o.a o.b → val o = 1) ∧ (¬ conditionOf f.mod o.a o.b → val o = 0) ∧
       (conditionOf f.mod o.a f.imm → vali o = 1) ∧ (¬ conditionOf f.mod o.a f.imm → vali o = 0)) ∧
  (∀ (f : Fields) (q : Issue), ∃ lop : Operands → Word,
     (Ready 0x010 f q → exec (.and f) q.s = .next (q.computes f (some 4) 1 (fun o => [o.a &&& o.b]))) ∧
     (Ready 0x011 f q → exec (.or f) q.s = .next (q.computes f (some 4) 1 (fun o => [o.a ||| o.b]))) ∧
     (Ready 0x012 f q → exec (.xor f) q.s = .next (q.computes f (some 4) 1 (fun o => [o.a ^^^ o.b]))) ∧
     (Ready 0x013 f q → exec (.andn f) q.s = .next (q.computes f (some 4) 1 (fun o => [o.a &&& ~~~o.b]))) ∧
     (Ready 0x014 f q → exec (.not f) q.s = .next (q.computes f (some 4) 1 (fun o => [~~~o.a]))) ∧
     (Ready 0x024 f q → exec (.andi f) q.s = .next (q.computes f (some 4) 1 (fun o => [o.a &&& f.imm]))) ∧
     (Ready 0x025 f q → exec (.ori f) q.s = .next (q.computes f (some 4) 1 (fun o => [o.a ||| f.imm]))) ∧
     (Ready 0x026 f q → exec (.xori f) q.s = .next (q.computes f (some 4) 1 (fun o => [o.a ^^^ f.imm]))) ∧
     (Ready 0x015 f q → exec (.lop3 f) q.s = .next (q.computes f (some 4) 1 (fun o => [lop o]))) ∧
     ∀ o i, i < 32 → (lop o).getLsbD i =
       f.imm.getLsbD ((o.a.getLsbD i).toNat + 2 * (o.b.getLsbD i).toNat + 4 * (o.c.getLsbD i).toNat))

/-- SHL, SHR, SAR and SHF complete and shift as R98 says, with all 32 bits of the count in the clamp forms and n mod 32 in
the `.wrap` forms. -/
def Obligations.shifts : Prop :=
  ∀ (f : Fields) (q : Issue),
    (Ready 0x016 f q → exec (.shl f) q.s = .next (q.computes f (some 4) 1 (fun o =>
      [if f.mod = 1 then o.a <<< (o.b.toNat % 32) else if 32 ≤ o.b.toNat then 0 else o.a <<< o.b.toNat]))) ∧
    (Ready 0x017 f q → exec (.shr f) q.s = .next (q.computes f (some 4) 1 (fun o =>
      [if f.mod = 1 then o.a >>> (o.b.toNat % 32) else if 32 ≤ o.b.toNat then 0 else o.a >>> o.b.toNat]))) ∧
    (Ready 0x018 f q → exec (.sar f) q.s = .next (q.computes f (some 4) 1 (fun o =>
      [if f.mod = 1 then o.a.sshiftRight (o.b.toNat % 32)
       else if 32 ≤ o.b.toNat then (if o.a.msb then 0xFFFFFFFF else 0) else o.a.sshiftRight o.b.toNat]))) ∧
    (f.mod.toNat < 4 → Ready 0x019 f q → exec (.shf f) q.s = .next (q.computes f (some 4) 1 (fun o =>
      let n := if f.mod = 2 ∨ f.mod = 3 then o.c.toNat % 32 else min o.c.toNat 32
      let v := o.b.toNat * 2 ^ 32 + o.a.toNat
      [if f.mod = 0 ∨ f.mod = 2 then BitVec.ofNat 32 (v * 2 ^ n % 2 ^ 64 / 2 ^ 32) else BitVec.ofNat 32 (v / 2 ^ n)])))

/-- BFE, BFI, POPC, CLZ and BREV complete and write what R99 and R100 say, bit by bit: a field of a, zero- or sign-extended;
b with a field replaced by the low bits of a; the number of one bits; the number of leading zeros; the bits reversed.
LEA, MOV, MOVI and NOP complete and write what R101, R102 and R103 say: nothing, for NOP. -/
def Obligations.bit_fields_addresses_moves : Prop :=
  (∀ (f : Fields) (q : Issue), ∃ ext ins pop clz rev : Operands → Word,
     (Ready 0x01A f q → exec (.bfe f) q.s = .next (q.computes f (some 4) 1 (fun o => [ext o]))) ∧
     (Ready 0x01B f q → exec (.bfi f) q.s = .next (q.computes f (some 4) 1 (fun o => [ins o]))) ∧
     (Ready 0x01C f q → exec (.popc f) q.s = .next (q.computes f (some 6) 1 (fun o => [pop o]))) ∧
     (Ready 0x01D f q → exec (.clz f) q.s = .next (q.computes f (some 6) 1 (fun o => [clz o]))) ∧
     (Ready 0x01E f q → exec (.brev f) q.s = .next (q.computes f (some 6) 1 (fun o => [rev o]))) ∧
     ∀ o i, i < 32 →
       (let p := min (o.b.toNat % 256) 32
        let k := min (o.c.toNat % 256) (32 - p)
        (ext o).getLsbD i = if i < k then o.a.getLsbD (p + i) else (f.mod == 1 && decide (0 < k) && o.a.getLsbD (p + k - 1))) ∧
       (let p := min (o.c.toNat % 256) 32
        let k := min (o.c.toNat / 256 % 256) (32 - p)
        (ins o).getLsbD i = if p ≤ i ∧ i < p + k then o.a.getLsbD (i - p) else o.b.getLsbD i) ∧
       (pop o).toNat = ((List.range 32).filter (fun j => o.a.getLsbD j)).length ∧
       ((clz o).toNat ≤ 32 ∧ (∀ j, j < (clz o).toNat → o.a.getLsbD (31 - j) = false) ∧
         ((clz o).toNat < 32 → o.a.getLsbD (31 - (clz o).toNat) = true)) ∧
       (rev o).getLsbD i = o.a.getLsbD (31 - i)) ∧
  (∀ (f : Fields) (q : Issue),
     (Ready 0x01F f q → exec (.lea f) q.s = .next (q.computes f (some 4) 2 (fun o =>
       pairWords (BitVec.ofInt 64 (o.aa.toNat + signedBy f.mod o.b * 2 ^ f.sub.toNat))))) ∧
     (Ready 0x020 f q → exec (.mov f) q.s = .next (q.computes f (some 4) (if f.mod = 1 then 2 else 1) (fun o =>
       if f.mod = 1 then [lo32 o.aa, hi32 o.aa] else [o.a]))) ∧
     (Ready 0x021 f q → exec (.movi f) q.s = .next (q.computes f (some 4) (if f.mod = 1 then 2 else 1) (fun _ =>
       if f.mod = 1 then [f.imm, if f.imm.msb then 0xFFFFFFFF else 0] else [f.imm]))) ∧
     (Ready 0x000 f q → exec (.nop f) q.s = .next (q.onward f q.s1)))

/-! ### Lanes -/

/-- 1 where something holds and 0 where it does not. -/
def truthOf (p : Prop) (w : Word) : Prop := (p → w = 1) ∧ (¬ p → w = 0)

/-- PERM, SHUF and SREAD complete. PERM writes the A value of the lane, or at set scope of the element, that R63 and R106
name; SHUF that of the element that the mode and the lane's b name, or the own value where there is none (R107); SREAD
the value of its identifier (R33, R108; what 0x02, 0x03, 0x05 and 0x06 give in the handler and firmware slots is the model's
choice, log 87). -/
def Obligations.lane_movement : Prop :=
  ∀ (f : Fields) (q : Issue), ∃ (perm shuf : Nat → Word) (own : Nat → Nat → List Word),
    (Ready 0x040 f q → exec (.perm f) q.s = .next (q.computesElems f (some 4) 1 (fun e => [perm e]))) ∧
    (Ready 0x041 f q → exec (.shuf f) q.s = .next (q.computesElems f none 1 (fun e => [shuf e]))) ∧
    (Ready 0x042 f q → exec (.sread f) q.s = .next (q.onward f (postResults q.s1 q.core f (q.members f) none
      (if f.a = 0x10 then 2 else 1) (fun _ => own)))) ∧
    (∀ e,
      let m := elemAt (q.elems f) e
      let d := if f.mod = 1 then (readReg q.s1 q.core m.slot fldB f.b m.lane).toNat % 64 else permDist f.perm
      let cls := permClass f.perm
      (f.scope ≠ .set →
        let sg := min (2 ^ permSeg f.perm) (widthOf q.s1 q.core m.slot)
        let i := m.lane % sg
        perm e = readReg q.s1 q.core m.slot fldA f.a (m.lane - i +
          (if cls = 1 then (i + d % sg) % sg else if cls = 2 then i ^^^ (d % sg) else d % sg))) ∧
      (f.scope = .set →
        let total := (q.elems f).length
        let sg := min (2 ^ permSeg f.perm) total
        let b0 := e - e % sg
        let n := min sg (total - b0)
        perm e = q.a f (if cls = 1 then b0 + (e - b0 + d % n) % n
          else if cls = 2 then (if b0 + ((e - b0) ^^^ (d % n)) < b0 + n then b0 + ((e - b0) ^^^ (d % n)) else e)
          else b0 + d % n))) ∧
    (∀ e,
      let word := fun k => (operandsOf q.s1 q.core f (elemAt (q.elems f) k).slot (elemAt (q.elems f) k).lane).a
      let b := (operandsOf q.s1 q.core f (elemAt (q.elems f) e).slot (elemAt (q.elems f) e).lane).b.toNat
      let total := (q.elems f).length
      (f.mod = 0 → shuf e = word (b % total)) ∧
      (f.mod = 1 → shuf e = word (if b ≤ e then e - b else e)) ∧
      (f.mod = 2 → shuf e = word (if e + b < total then e + b else e)) ∧
      (f.mod = 3 → shuf e = word (if e ^^^ (b % 64) < total then e ^^^ (b % 64) else e))) ∧
    (∀ x l,
      let g := getGroup q.s1 q.core x
      (f.a = 0x00 → own x l = [BitVec.ofNat 32 l]) ∧ (f.a = 0x01 → own x l = [BitVec.ofNat 32 g.width]) ∧
      (f.a = 0x02 → own x l = [BitVec.ofNat 32 x]) ∧
      (f.a = 0x03 → own x l = [BitVec.ofNat 32 (homeOf g x l).1]) ∧
      (f.a = 0x04 → own x l = [BitVec.ofNat 32 (homeOf g x l).2]) ∧
      (f.a = 0x05 → own x l = [BitVec.ofNat 32 g.block]) ∧ (f.a = 0x06 → own x l = [BitVec.ofNat 32 g.role]) ∧
      (f.a = 0x07 → own x l = [match g.setId with | some i => BitVec.ofNat 32 i | none => 0xFFFFFFFF]) ∧
      (f.a = 0x08 → own x l = [match g.setId with
        | some _ => BitVec.ofNat 32 ((setMembers (getCore q.s1 q.core) x).idxOf x) | none => 0xFFFFFFFF]) ∧
      (f.a = 0x09 → own x l = [BitVec.ofNat 32 (setMembers (getCore q.s1 q.core) x).length]) ∧
      (f.a = 0x0A → own x l = [BitVec.ofNat 32 q.core]) ∧ (f.a = 0x0B → own x l = [BitVec.ofNat 32 (q.core / 4)]) ∧
      (f.a = 0x0C → own x l = [BitVec.ofNat 32 (q.core / 192)]) ∧
      (f.a = 0x0D → own x l = [BitVec.ofNat 32 (tenantOf q.s1 q.core x)]) ∧
      (f.a = 0x0E → own x l = [BitVec.ofNat 32 g.allotment]) ∧
      (f.a = 0x0F → own x l = [BitVec.ofNat 32 g.handles.length]) ∧
      (f.a = 0x10 → own x l = pairWords (BitVec.ofNat 64 (coreCount q.s1 q.core))))

/-- What SUB selects in REDUCE and SCAN over a list of words (R112). -/
def combinedTo (sub : Nat) (xs : List Word) (w : Word) : Prop :=
  let pick := fun (id : Word) (below : Word → Word → Prop) =>
    (xs = [] → w = id) ∧ (xs ≠ [] → w ∈ xs ∧ ∀ x ∈ xs, below w x)
  if sub = 0 then w = BitVec.ofNat 32 ((xs.map (·.toNat)).foldl (· + ·) 0)
  else if sub = 1 then pick 0x7FFFFFFF (fun a b => a.toInt ≤ b.toInt)
  else if sub = 2 then pick 0x80000000 (fun a b => b.toInt ≤ a.toInt)
  else if sub = 3 then pick 0xFFFFFFFF (fun a b => a.toNat ≤ b.toNat)
  else if sub = 4 then pick 0 (fun a b => b.toNat ≤ a.toNat)
  else if sub = 5 then ∀ i, i < 32 → w.getLsbD i = xs.all (fun x => x.getLsbD i)
  else if sub = 6 then ∀ i, i < 32 → w.getLsbD i = xs.any (fun x => x.getLsbD i)
  else ∀ i, i < 32 → w.getLsbD i = (((xs.filter (fun x => x.getLsbD i)).length % 2) == 1)

/-- The number that a decoded finite element stands for. -/
def ratOf : FVal → ℚ
  | .num n m e => (if n then -(m : ℚ) else m) * (2 : ℚ) ^ e
  | _ => 0

/-- A code that stands for a number. -/
def finiteCode (f : Fmt) (k : Nat) : Prop := isNan (fdecode f k) = false ∧ isInf (fdecode f k) = false

/-- The exponent of a format's largest finite value and of its smallest normal one (R36 to R40). -/
def topExpo (f : Fmt) : Int := (2 ^ f.ew : Int) - (if f.kind = .ieee then 2 else 1) - f.bias
def lowExpo (f : Fmt) : Int := 1 - (f.bias : Int)

/-- A mode moves a number of this sign away from zero, or toward it. -/
def awayFrom (md : RMode) (neg : Bool) : Prop := (md = .rd ∧ neg = true) ∨ (md = .ru ∧ neg = false)

/-- Rounded with an unbounded exponent, x lies beyond the largest finite value of the format (R43, R44). -/
def overflows (f : Fmt) (md : RMode) (neg : Bool) (x : ℝ) : Prop :=
  (md = .rne → ((2 : ℝ) ^ (f.fw + 2) - 1) * (2 : ℝ) ^ (topExpo f - f.fw - 1) ≤ |x|) ∧
  (md ≠ .rne → awayFrom md neg → ((2 : ℝ) ^ (f.fw + 1) - 1) * (2 : ℝ) ^ (topExpo f - f.fw) < |x|) ∧
  (md ≠ .rne → ¬ awayFrom md neg → (2 : ℝ) ^ (topExpo f + 1) ≤ |x|)

/-- Rounded with an unbounded exponent, x lies below the smallest normal value of the format (R43, R44). -/
def tinyAfter (f : Fmt) (md : RMode) (neg : Bool) (x : ℝ) : Prop :=
  (md = .rne → |x| < (2 : ℝ) ^ lowExpo f - (2 : ℝ) ^ (lowExpo f - f.fw - 2)) ∧
  (md ≠ .rne → awayFrom md neg → |x| ≤ (2 : ℝ) ^ lowExpo f - (2 : ℝ) ^ (lowExpo f - f.fw - 1)) ∧
  (md ≠ .rne → ¬ awayFrom md neg → |x| < (2 : ℝ) ^ lowExpo f)

/-- Code r stands for the finite value of the format that the mode takes for x: the nearest, ties to the even code; the
nearest toward zero; the greatest not above; the least not below (R43). -/
def nearestCode (f : Fmt) (md : RMode) (x : ℝ) (r : Nat) : Prop :=
  let y := fun (k : Nat) => ((ratOf (fdecode f k) : ℚ) : ℝ)
  finiteCode f r ∧ ∀ k, finiteCode f k →
    (md = .rne → |y r - x| ≤ |y k - x| ∧ (|y r - x| = |y k - x| → y k ≠ y r → r % 2 = 0)) ∧
    (md = .rz → |y r| ≤ |x| ∧ 0 ≤ y r * x ∧ (|y k| ≤ |x| → 0 ≤ y k * x → |y k| ≤ |y r|)) ∧
    (md = .rd → y r ≤ x ∧ (y k ≤ x → y k ≤ y r)) ∧
    (md = .ru → x ≤ y r ∧ (x ≤ y k → y r ≤ y k))

/-- The exceptions of a rounding that does not overflow: NX where the value changed, UF too where it is tiny (R44, R46). -/
def roundExc (f : Fmt) (md : RMode) (neg : Bool) (x : ℝ) (r : Nat × Exc) : Prop :=
  let same := ((ratOf (fdecode f r.1) : ℚ) : ℝ) = x
  (same → r.2 = 0) ∧ (¬ same → tinyAfter f md neg x → r.2 = excUF ||| excNX) ∧
    (¬ same → ¬ tinyAfter f md neg x → r.2 = excNX)

/-- Code and exceptions are the number x, not zero and of this sign, rounded to an IEEE format (R43, R44, R46). -/
def roundedTo (f : Fmt) (md : RMode) (neg : Bool) (x : ℝ) (r : Nat × Exc) : Prop :=
  (overflows f md neg x →
    r.1 = signCode f neg + (if md = .rne ∨ (md = .rd ∧ neg = true) ∨ (md = .ru ∧ neg = false) then infCode f else maxCode f) ∧
    r.2 = excOF ||| excNX) ∧
  (¬ overflows f md neg x → nearestCode f md x r.1 ∧ signOf (fdecode f r.1) = neg ∧ roundExc f md neg x r)

/-- The integer that the mode takes for x (R43). -/
def integerFor (md : RMode) (x : ℚ) (i : Int) : Prop :=
  (md = .rd → i = ⌊x⌋) ∧ (md = .ru → i = ⌈x⌉) ∧ (md = .rz → i = if x < 0 then ⌈x⌉ else ⌊x⌋) ∧
  (md = .rne → |(i : ℚ) - x| ≤ 1 / 2 ∧ (|(i : ℚ) - x| = 1 / 2 → i % 2 = 0))

/-- One level of the tree of R52: neighbours are combined, the last of an odd number is carried. -/
def treeStep {α : Type} (add : α → α → α) (d : α) (xs ys : List α) : Prop :=
  ys.length = (xs.length + 1) / 2 ∧
  (∀ i, i < xs.length / 2 → ys.getD i d = add (xs.getD (2 * i) d) (xs.getD (2 * i + 1) d)) ∧
  (xs.length % 2 = 1 → ys.getD (xs.length / 2) d = xs.getD (xs.length - 1) d)

/-- The tree of R52 over a list, in at most `n` levels, gives `r`. -/
def treeGives {α : Type} (add : α → α → α) (d : α) : Nat → List α → α → Prop
  | 0, xs, r => xs = [r]
  | n + 1, xs, r => xs = [r] ∨ (2 ≤ xs.length ∧ ∃ ys, treeStep add d xs ys ∧ treeGives add d n ys r)

/-- VOTE, ELECT and MATCH complete and combine the executing elements alone: all, any, equal, a mask of the element's
window of 64, a count; the first of them; the mask of those of the window with an equal value (R109, R110, R111).
REDUCE and SCAN complete: REDUCE with the combination of the executing elements in every one of them, for `.fadd`,
`.fmin` and `.fmax` the word and the exceptions of the tree of R52 over them, neighbours first and an odd last one carried,
each addition rounded once, a single element as an operation on it gives it; SCAN with that of the executing elements up
to, or with `.excl` below, each (R112, R113). -/
def Obligations.votes_and_reductions : Prop :=
  (∀ (f : Fields) (q : Issue), ∃ (vote : Nat → List Word) (elect : Nat → Word) (mask same : Nat → Dword),
     (Ready 0x043 f q → exec (.vote f) q.s = .next (q.computesElems f none (if f.mod = 3 then 2 else 1) vote)) ∧
     (Ready 0x044 f q → exec (.elect f) q.s = .next (q.computesElems f none 1 (fun e => [elect e]))) ∧
     (Ready 0x047 f q → exec (.matchMask f) q.s = .next (q.computesElems f none 2 (fun e => pairWords (same e)))) ∧
     ∀ e,
       (f.mod = 0 → ∃ w, vote e = [w] ∧ truthOf (∀ k, q.takes f k → q.a f k ≠ 0) w) ∧
       (f.mod = 1 → ∃ w, vote e = [w] ∧ truthOf (∃ k, q.takes f k ∧ q.a f k ≠ 0) w) ∧
       (f.mod = 2 → ∃ w, vote e = [w] ∧ truthOf (∀ j k, q.takes f j → q.takes f k → q.a f j = q.a f k) w) ∧
       (f.mod = 3 → vote e = pairWords (mask e) ∧
         ∀ i, i < 64 → ((mask e).getLsbD i = true ↔ q.takes f (e / 64 * 64 + i) ∧ q.a f (e / 64 * 64 + i) ≠ 0)) ∧
       (f.mod = 4 → vote e =
         [BitVec.ofNat 32 ((q.values f (q.elems f).length).filter (fun a => a != 0)).length]) ∧
       truthOf (q.takes f e ∧ ∀ k, k < e → ¬ q.takes f k) (elect e) ∧
       (∀ i, i < 64 → ((same e).getLsbD i = true ↔ q.takes f (e / 64 * 64 + i) ∧
         (let val := fun k => let m := elemAt (q.elems f) k
            if f.mod = 1 then readPair q.s1 q.core m.slot fldA f.a m.lane else (q.a f k).setWidth 64
          val (e / 64 * 64 + i) = val e)))) ∧
  (∀ (f : Fields) (q : Issue), ∃ (red : Word) (scan : Nat → Word),
     (f.sub.toNat ≤ 7 → Ready 0x045 f q → exec (.reduce f) q.s = .next (q.computesElems f none 1 (fun _ => [red]))) ∧
     (7 < f.sub.toNat → Ready 0x045 f q → exec (.reduce f) q.s = .next (q.computesFp f none 1
       (fun _ => let r := reduceFloat f.sub.toNat (rmOf f) (q.values f (q.elems f).length)
         ([BitVec.ofNat 32 r.1], r.2)))) ∧
     (Ready 0x046 f q → exec (.scan f) q.s = .next (q.computesElems f none 1 (fun e => [scan e]))) ∧
     (f.sub.toNat ≤ 7 → combinedTo f.sub.toNat (q.values f (q.elems f).length) red ∧
       ∀ e, combinedTo f.sub.toNat (q.values f (if f.mod = 4 then e else e + 1)) (scan e))) ∧
  (∀ (sub : Nat) (md : RMode) (xs : List Word),
     let add := fun (p q : Nat × Exc) =>
       let r := if sub = 8 then finish fF32 md (addVal md (fdecode fF32 p.1) (fdecode fF32 q.1))
         else fminmax fF32 (sub == 10) false p.1 q.1
       (r.1, p.2 ||| q.2 ||| r.2)
     (2 ≤ xs.length → treeGives add (0, 0) xs.length (xs.map (fun x => (x.toNat, 0))) (reduceFloat sub md xs)) ∧
     (∀ x : Word, (isNan (f32 x) = false → reduceFloat sub md [x] = (x.toNat, 0)) ∧
       (isNan (f32 x) = true → reduceFloat sub md [x] = (0x7FC00000, if isSig (f32 x) then excNV else 0))))

/-! ### Floating point -/

/-- FADD, FSUB, FMUL, FFMA, FDIV, FSQRT, FMIN, FMAX, FCMP, FRND and FCLASS complete; where an exception is raised whose trap
is enabled, the group is held until the result has landed, else it goes on (R28). Their words and exceptions are the exact
values rounded once in the mode of MOD (R43 to R46, R114, R116): the value of the format that the mode takes for the exact
sum, product, fused sum, quotient or root, with overflow, tininess after rounding and NX; FRND's is the integer that the mode
takes, with the sign of a and no exception (R118). A NaN operand gives the canonical NaN, and NV where it is
signalling; infinities of opposite sign, 0 times infinity, 0 / 0 and infinity / infinity give it with NV; a nonzero number
by zero gives infinity with DZ; an exact zero sum of unlike signs is +0, and -0 under `.rd`.
FMIN, FMAX, FCMP and FCLASS complete. The result of FMIN and FMAX is an operand's bits where neither is a NaN, that of
the other where one is (without `.nan`), the canonical NaN otherwise, with NV for a signalling NaN alone; FCMP writes 1
where its condition holds; FCLASS writes a word with exactly one bit set and raises nothing (R117, R119, R120). -/
def Obligations.float_arithmetic : Prop :=
  (∀ (f : Fields) (q : Issue),
     let one := fun (r : Nat × Exc) => ([BitVec.ofNat 32 r.1], r.2)
     let rnd := fun (v : FVal × Exc) => one (finish fF32 (rmOf f) v)
     let a := fun (o : Operands) => if f.mod.getLsbD 2 then fneg (f32 o.a) else f32 o.a
     let a1 := fun (o : Operands) => if f.mod.getLsbD 2 then fabs (f32 o.a) else f32 o.a
     (Ready 0x080 f q → exec (.fadd f) q.s = .next (q.computesFp f (some 6) 1 (fun o => rnd (addVal (rmOf f) (a o) (f32 o.b))))) ∧
     (Ready 0x081 f q → exec (.fsub f) q.s = .next (q.computesFp f (some 6) 1 (fun o =>
       rnd (addVal (rmOf f) (a o) (fneg (f32 o.b)))))) ∧
     (Ready 0x082 f q → exec (.fmul f) q.s = .next (q.computesFp f (some 6) 1 (fun o => rnd (mulVal (a o) (f32 o.b))))) ∧
     (Ready 0x083 f q → exec (.ffma f) q.s = .next (q.computesFp f (some 6) 1 (fun o =>
       rnd (fmaVal (rmOf f) (a o) (f32 o.b) (f32 o.c))))) ∧
     (Ready 0x08B f q → exec (.fdiv f) q.s = .next (q.computesFp f none 1 (fun o => one (fdivF fF32 (rmOf f) (a o) (f32 o.b))))) ∧
     (Ready 0x08A f q → exec (.fsqrt f) q.s = .next (q.computesFp f none 1 (fun o => one (fsqrtF fF32 (rmOf f) (a1 o))))) ∧
     (Ready 0x087 f q → exec (.frnd f) q.s = .next (q.computesFp f (some 6) 1 (fun o => one (frndF fF32 (rmOf f) (a1 o))))) ∧
     (∀ (md : RMode) (x y z : FVal),
       (isNan x = true ∨ isNan y = true →
         (finish fF32 md (addVal md x y)).1 = 0x7FC00000 ∧ (finish fF32 md (mulVal x y)).1 = 0x7FC00000 ∧
         (fdivF fF32 md x y).1 = 0x7FC00000 ∧
         ((isSig x || isSig y) = true ↔ (finish fF32 md (addVal md x y)).2 = excNV)) ∧
       (∀ n : Bool, finish fF32 md (addVal md (.inf n) (.inf (!n))) = (0x7FC00000, excNV)) ∧
       (∀ (n k : Bool) (e : Int), finish fF32 md (fmaVal md (.inf n) (.num k 0 e) z) = (0x7FC00000, excNV)) ∧
       (∀ (n k : Bool) (e d : Int), fdivF fF32 md (.num n 0 e) (.num k 0 d) = (0x7FC00000, excNV) ∧
         fdivF fF32 md (.inf n) (.inf k) = (0x7FC00000, excNV)) ∧
       (∀ (n k : Bool) (m : Nat) (e d : Int), m ≠ 0 →
         fdivF fF32 md (.num n m e) (.num k 0 d) = ((if n ≠ k then 0xFF800000 else 0x7F800000), excDZ)) ∧
       (∀ (n : Bool) (m : Nat) (e : Int), m ≠ 0 →
         finish fF32 md (addVal md (.num n m e) (.num (!n) m e)) = ((if md = .rd then 0x80000000 else 0), 0)) ∧
       (∀ e : Int, fsqrtF fF32 md (.num true 0 e) = (0x80000000, 0)))) ∧
  (∀ (md : RMode) (n k j : Bool) (m w z : Nat) (e d b : Int),
     let x := FVal.num n m e
     let y := FVal.num k w d
     let v := FVal.num j z b
     (ratOf (addVal md x y).1 = ratOf x + ratOf y ∧ (addVal md x y).2 = 0 ∧
       ratOf (mulVal x y).1 = ratOf x * ratOf y ∧ (mulVal x y).2 = 0 ∧ signOf (mulVal x y).1 = (n != k) ∧
       ratOf (fmaVal md x y v).1 = ratOf x * ratOf y + ratOf v ∧ (fmaVal md x y v).2 = 0) ∧
     (∀ f ∈ [fF32, fF16, fB16], (m = 0 → finish f md (x, 0) = (signCode f n, 0)) ∧
       (m ≠ 0 → roundedTo f md n ((ratOf x : ℚ) : ℝ) (finish f md (x, 0)))) ∧
     (m ≠ 0 → w ≠ 0 → roundedTo fF32 md (n != k) ((ratOf x / ratOf y : ℚ) : ℝ) (fdivF fF32 md x y)) ∧
     (m ≠ 0 → n = false → roundedTo fF32 md false (Real.sqrt ((ratOf x : ℚ) : ℝ)) (fsqrtF fF32 md x)) ∧
     (∀ a : Word, f32 a = x →
       let r := frndF fF32 md x
       let q := ratOf (fdecode fF32 r.1)
       r.2 = 0 ∧ signOf (fdecode fF32 r.1) = n ∧ finiteCode fF32 r.1 ∧
       ∃ i : Int, q = i ∧ integerFor md (ratOf x) i)) ∧
  (∀ (f : Fields) (q : Issue), ∃ (lo hi cmp : Operands → Nat × Exc) (cls : Operands → Nat),
     (Ready 0x084 f q → exec (.fmin f) q.s = .next (q.computesFp f (some 6) 1 (fun o => ([BitVec.ofNat 32 (lo o).1], (lo o).2)))) ∧
     (Ready 0x085 f q → exec (.fmax f) q.s = .next (q.computesFp f (some 6) 1 (fun o => ([BitVec.ofNat 32 (hi o).1], (hi o).2)))) ∧
     (Ready 0x086 f q → exec (.fcmp f) q.s = .next (q.computesFp f (some 6) 1 (fun o => ([BitVec.ofNat 32 (cmp o).1], (cmp o).2)))) ∧
     (Ready 0x090 f q → exec (.fclass f) q.s = .next (q.computesFp f (some 6) 1 (fun o => ([BitVec.ofNat 32 (cls o)], 0)))) ∧
     ∀ o,
       let x := f32 o.a
       let y := f32 o.b
       let un := (isNan x || isNan y) = true
       let sig := (isSig x || isSig y) = true
       let less := fltVal x y = true
       let more := fltVal y x = true
       (sig → (lo o).2 = excNV ∧ (hi o).2 = excNV) ∧ (¬ sig → (lo o).2 = 0 ∧ (hi o).2 = 0) ∧
       (¬ un → ((lo o).1 = o.a.toNat ∨ (lo o).1 = o.b.toNat) ∧ ((hi o).1 = o.a.toNat ∨ (hi o).1 = o.b.toNat) ∧
         fltVal x (f32 (BitVec.ofNat 32 (lo o).1)) = false ∧ fltVal y (f32 (BitVec.ofNat 32 (lo o).1)) = false ∧
         fltVal (f32 (BitVec.ofNat 32 (hi o).1)) x = false ∧ fltVal (f32 (BitVec.ofNat 32 (hi o).1)) y = false) ∧
       (isNan x = true → isNan y = true ∨ f.mod.getLsbD 0 = true → (lo o).1 = 0x7FC00000 ∧ (hi o).1 = 0x7FC00000) ∧
       (isNan x = true → isNan y = false → f.mod.getLsbD 0 = false → (lo o).1 = o.b.toNat ∧ (hi o).1 = o.b.toNat) ∧
       (isNan x = false → isNan y = true → f.mod.getLsbD 0 = false → (lo o).1 = o.a.toNat ∧ (hi o).1 = o.a.toNat) ∧
       (let holds := if f.mod = 0 then ¬ un ∧ ¬ less ∧ ¬ more else if f.mod = 1 then un ∨ less ∨ more
          else if f.mod = 2 then less else if f.mod = 3 then ¬ un ∧ ¬ more else if f.mod = 4 then more
          else if f.mod = 5 then ¬ un ∧ ¬ less else if f.mod = 6 then un else ¬ un
        let raises := if f.mod = 2 ∨ f.mod = 3 ∨ f.mod = 4 ∨ f.mod = 5 then un else sig
        (holds → (cmp o).1 = 1) ∧ (¬ holds → (cmp o).1 = 0) ∧ (raises → (cmp o).2 = excNV) ∧ (¬ raises → (cmp o).2 = 0)) ∧
       (∃ k, k ≤ 9 ∧ cls o = 2 ^ k ∧ (8 ≤ k ↔ isNan x = true) ∧ (k = 8 ↔ isSig x = true) ∧
         (k = 0 ∨ k = 7 ↔ isInf x = true) ∧ (k = 3 ∨ k = 4 ↔ isZero x = true) ∧ (k ≤ 3 ↔ isNan x = false ∧ signOf x = true) ∧
         (k = 2 ∨ k = 5 ↔ 0 < o.a.toNat % 2 ^ 31 ∧ o.a.toNat % 2 ^ 31 < 2 ^ 23) ∧
         (k = 1 ∨ k = 6 ↔ 2 ^ 23 ≤ o.a.toNat % 2 ^ 31 ∧ o.a.toNat % 2 ^ 31 < 0x7F800000)))

/-- The value of a word is one of the two adjacent to the positive or negative number x, with the exceptions of R121. -/
def faithfulTo (neg : Bool) (x : ℝ) (r : Word × Exc) : Prop :=
  (∃ ex, roundedTo fF32 .rd neg x (r.1.toNat, ex) ∨ roundedTo fF32 .ru neg x (r.1.toNat, ex)) ∧
  (((ratOf (f32 r.1) : ℚ) : ℝ) = x → r.2 = 0) ∧
  (((ratOf (f32 r.1) : ℚ) : ℝ) ≠ x → isInf (f32 r.1) = true → r.2 = excNX ||| excOF) ∧
  (((ratOf (f32 r.1) : ℚ) : ℝ) ≠ x → isInf (f32 r.1) = false →
    r.2 = if r.1.toNat % 2 ^ 31 < 2 ^ 23 then excNX ||| excUF else excNX)

/-- The value of a word is finite and within 2^b of y, with the exceptions of an inexact result (R121). -/
def inBound (y : ℚ) (b : Int) (r : Word × Exc) : Prop :=
  finiteCode fF32 r.1.toNat ∧ |ratOf (f32 r.1) - y| ≤ (2 : ℚ) ^ b ∧
  r.2 = if r.1.toNat % 2 ^ 31 < 2 ^ 23 then excNX ||| excUF else excNX

/-- The approximated functions complete with variable latency and one word, which is the same for the same operand; FSIN is
odd and FCOS even, bit for bit; every special input of R122 gives the word and exceptions it lists: each NaN, the infinities,
the zeros, negative operands of FRSQ and FLOG2, the ranges of FEXP2 that overflow and underflow, whole and half arguments of
FSIN and FCOS, so every |a| of 2^23 and above. Exact results are exact: FEXP2 of a whole number, FLOG2 of a power of two. FRCP
and FRSQ are faithful; FEXP2 lies within 2 ulp, FLOG2 within 2^-22 on [0.5, 2] and 2 ulp elsewhere, FSIN and FCOS within 2^-22
of the exact value as the model's fixed-point series know it (R121, R122; log 8: the result inside the bound is the stepping's,
an opaque constant). -/
def Obligations.float_approximations : Prop :=
  ∀ (f : Fields) (q : Issue), ∃ rcp rsq exp log sin cos : Word → Word × Exc,
    let a := fun (o : Operands) => if f.mod.getLsbD 2 then o.a &&& 0x7FFFFFFF else o.a
    let one := fun (r : Word × Exc) => ([r.1], r.2)
    (Ready 0x088 f q → exec (.frcp f) q.s = .next (q.computesFp f none 1 (fun o => one (rcp (a o))))) ∧
    (Ready 0x089 f q → exec (.frsq f) q.s = .next (q.computesFp f none 1 (fun o => one (rsq (a o))))) ∧
    (Ready 0x08C f q → exec (.fexp2 f) q.s = .next (q.computesFp f none 1 (fun o => one (exp (a o))))) ∧
    (Ready 0x08D f q → exec (.flog2 f) q.s = .next (q.computesFp f none 1 (fun o => one (log (a o))))) ∧
    (Ready 0x08E f q → exec (.fsin f) q.s = .next (q.computesFp f none 1 (fun o => one (sin (a o))))) ∧
    (Ready 0x08F f q → exec (.fcos f) q.s = .next (q.computesFp f none 1 (fun o => one (cos (a o))))) ∧
    (∀ x : Word,
      let sign := x &&& 0x80000000
      let neg := sign != 0
      let v := f32 x
      let nan : Word × Exc := (0x7FC00000, excNV)
      (isNan v = true → ∀ g ∈ [rcp, rsq, exp, log, sin, cos], g x = (0x7FC00000, if isSig v then excNV else 0)) ∧
      (isZero v = true → rcp x = (sign ||| 0x7F800000, excDZ) ∧ rsq x = (sign ||| 0x7F800000, excDZ) ∧
        exp x = (0x3F800000, 0) ∧ log x = (0xFF800000, excDZ) ∧ sin x = (sign, 0) ∧ cos x = (0x3F800000, 0)) ∧
      (isInf v = true → rcp x = (sign, 0) ∧ rsq x = (if neg then nan else (0, 0)) ∧
        exp x = (if neg then 0 else 0x7F800000, 0) ∧ log x = (if neg then nan else (0x7F800000, 0)) ∧ sin x = nan ∧ cos x = nan) ∧
      (neg = true → isNan v = false → isZero v = false → rsq x = nan ∧ log x = nan) ∧
      (isNan v = false → isInf v = false →
        (sin (x ^^^ 0x80000000)).1 = (sin x).1 ^^^ 0x80000000 ∧ (cos (x ^^^ 0x80000000)).1 = (cos x).1 ∧
        (sin (x ^^^ 0x80000000)).2 = (sin x).2 ∧ (cos (x ^^^ 0x80000000)).2 = (cos x).2)) ∧
    (∀ (x : Word) (n : Bool) (m : Nat) (e : Int), f32 x = .num n m e → m ≠ 0 →
      let a := ratOf (f32 x)
      let sign := x &&& 0x80000000
      let frac := fun (t : ℚ) => (⌊t * 2 ^ 160⌋).toNat
      faithfulTo n ((1 / a : ℚ) : ℝ) (rcp x) ∧
      (n = false → faithfulTo false (1 / Real.sqrt ((a : ℚ) : ℝ)) (rsq x)) ∧
      (128 ≤ a → exp x = (0x7F800000, excOF ||| excNX)) ∧ (a < -150 → exp x = (0, excUF ||| excNX)) ∧
      (∀ k : Int, a = k → -149 ≤ k → k < 128 → (exp x).2 = 0 ∧ ratOf (f32 (exp x).1) = (2 : ℚ) ^ k) ∧
      (-150 ≤ a → a < 128 → (∀ k : Int, -149 ≤ k → a ≠ k) →
        inBound (exp2Frac (frac (a - ⌊a⌋) / 2 ^ 32) * (2 : ℚ) ^ (⌊a⌋ - 128)) (max ⌊a⌋ (-126) - 22) (exp x)) ∧
      (n = false → (∀ k : Int, a = (2 : ℚ) ^ k → (log x).2 = 0 ∧ ratOf (f32 (log x).1) = k) ∧
        ((∀ k : Int, a ≠ (2 : ℚ) ^ k) → ∃ y : ℚ,
          y = ((e + bitLen m - 1) * 2 ^ 64 + log2Bits (m * 2 ^ (129 - bitLen m)) 0 64) / 2 ^ 64 ∧
          (1 / 2 ≤ a → a ≤ 2 → inBound y (-22) (log x)) ∧
          (a < 1 / 2 ∨ 2 < a → ∃ j : Int, (2 : ℚ) ^ j ≤ |y| ∧ |y| < 2 ^ (j + 1) ∧ inBound y (max j (-126) - 22) (log x)))) ∧
      (∀ k : Nat, |a| = k → sin x = (sign, 0) ∧ cos x = (if k % 2 = 0 then 0x3F800000 else 0xBF800000, 0)) ∧
      (∀ k : Nat, |a| = k + 1 / 2 → cos x = (0, 0) ∧ sin x = ((if k % 2 = 0 then 0x3F800000 else 0xBF800000) ^^^ sign, 0)) ∧
      (2 ^ 23 ≤ |a| → ∃ k : Nat, |a| = k) ∧
      ((∀ k : Nat, |a| ≠ k ∧ |a| ≠ k + 1 / 2) →
        let at_ := fun (t : ℚ) =>
          let u := t - 2 * ⌊t / 2⌋
          let w := if u < 1 then u else u - 1
          (if u < 1 then (1 : ℚ) else -1) * sinPi (frac (if w < 1 / 2 then w else 1 - w)) / 2 ^ 160
        (n = false → inBound (at_ |a|) (-22) (sin x)) ∧ inBound (at_ (|a| + 1 / 2)) (-22) (cos x)))

/-- The packed instructions complete: each of the two 16-bit elements of a word is computed as F16 or B16 by MOD[2], with
one rounding, and the exceptions of both are raised together; PDOT2 writes one F32 word of two exact products and a sum
(R123; NV for opposite infinities beside a quiet NaN is the model's choice, log 91).
The conversions complete: CVT of element SEL, CVTPK of two words, CVTN of four, CVTW to two, with rounding, saturation
and extension (R125 to R129); TERPK packs twenty elements, each -1, 0 or +1 against the threshold, five to a byte, and
TERUNPK unpacks them, an invalid byte as zeros with NV (R130, R131; a run from register 1023 is the model's choice, log 80);
SCACC scales and adds with one rounding (R132).
Between two formats a value goes to the nearest one of the target in the mode, with the overflow, infinity, NaN and zero of
R47 by S; to an integer it is rounded and clamped, with NV or NX (R48); to F32 it is exact from a narrower format (R125). -/
def Obligations.packed_and_conversions : Prop :=
  (∀ (f : Fields) (q : Issue),
     let fm := if f.mod.getLsbD 2 then fB16 else fF16
     let el := fun (a : Word) (k : Nat) => fdecode fm ((a.extractLsb' (16 * k) 16).toNat)
     let two := fun (r0 r1 : Nat × Exc) => ([BitVec.ofNat 16 r1.1 ++ BitVec.ofNat 16 r0.1], r0.2 ||| r1.2)
     let each := fun (h : Nat → FVal × Exc) => two (finish fm (rmOf f) (h 0)) (finish fm (rmOf f) (h 1))
     let pick := fun (mx : Bool) (o : Operands) (k : Nat) =>
       fminmax fm mx (f.mod.getLsbD 0) (o.a.extractLsb' (16 * k) 16).toNat (o.b.extractLsb' (16 * k) 16).toNat
     (Ready 0x0A0 f q → exec (.padd2 f) q.s = .next (q.computesFp f (some 6) 1 (fun o =>
       each (fun k => addVal (rmOf f) (el o.a k) (el o.b k))))) ∧
     (Ready 0x0A1 f q → exec (.pmul2 f) q.s = .next (q.computesFp f (some 6) 1 (fun o =>
       each (fun k => mulVal (el o.a k) (el o.b k))))) ∧
     (Ready 0x0A2 f q → exec (.pfma2 f) q.s = .next (q.computesFp f (some 6) 1 (fun o =>
       each (fun k => fmaVal (rmOf f) (el o.a k) (el o.b k) (el o.c k))))) ∧
     (Ready 0x0A3 f q → exec (.pmin2 f) q.s = .next (q.computesFp f (some 6) 1 (fun o => two (pick false o 0) (pick false o 1)))) ∧
     (Ready 0x0A4 f q → exec (.pmax2 f) q.s = .next (q.computesFp f (some 6) 1 (fun o => two (pick true o 0) (pick true o 1)))) ∧
     (Ready 0x0A5 f q → exec (.pdot2 f) q.s = .next (q.computesFp f (some 6) 1 (fun o =>
       let p0 := mulVal (el o.a 0) (el o.b 0)
       let p1 := mulVal (el o.a 1) (el o.b 1)
       let s := addVal (rmOf f) p0.1 p1.1
       let t := addVal (rmOf f) s.1 (f32 o.c)
       let r := packVal fF32 (rmOf f) t.1
       ([BitVec.ofNat 32 r.1], p0.2 ||| p1.2 ||| s.2 ||| t.2 ||| sigExc [f32 o.c] ||| r.2))))) ∧
  (∀ (f : Fields) (q : Issue), ∃ (pk : (Nat → Word) → Word → Word) (un : Word → List Word × Exc),
     let md := rmOf f
     let sat := f.mod.getLsbD 2
     let conv := fun (x : Word) => convert 0 f.sub.toNat md sat x.toNat
     let el := fun (a : Word) (w k : Nat) => a.toNat / 2 ^ (w * k) % 2 ^ w
     (Ready 0x100 f q → exec (.cvt f) q.s = .next (q.computesFp f (some 6) 1 (fun o =>
       let dst := (f.imm.extractLsb' 0 4).toNat
       let src := (f.imm.extractLsb' 4 4).toNat
       let r := convert src dst md sat (el o.a (fmtWidth src) (f.imm.extractLsb' 8 3).toNat)
       ([if dst ≤ 5 ∨ isSignedCode dst = false then BitVec.ofNat 32 r.1 else BitVec.ofInt 32 (intDecode dst r.1)], r.2)))) ∧
     (Ready 0x101 f q → exec (.cvtpk f) q.s = .next (q.computesFp f (some 6) 1 (fun o =>
       ([BitVec.ofNat 32 ((conv o.a).1 + 65536 * (conv o.b).1)], (conv o.a).2 ||| (conv o.b).2)))) ∧
     (Ready 0x102 f q → exec (.cvtn f) q.s = .next (q.computesFp f (some 6) 1 (fun o =>
       let r0 := conv (lo32 o.aa)
       let r1 := conv (hi32 o.aa)
       let r2 := conv (lo32 o.bb)
       let r3 := conv (hi32 o.bb)
       let w := 2 ^ fmtWidth f.sub.toNat
       let v := r0.1 + w * (r1.1 + w * (r2.1 + w * r3.1))
       ([if fmtWidth f.sub.toNat = 8 then BitVec.ofNat 32 v else BitVec.ofNat 32 (v * 65536 + o.c.toNat / 65536)],
        r0.2 ||| r1.2 ||| r2.2 ||| r3.2)))) ∧
     (Ready 0x103 f q → exec (.cvtw f) q.s = .next (q.computesFp f (some 6) 2 (fun o =>
       let r := fun k => convert f.sub.toNat 0 .rne false (el o.a (fmtWidth f.sub.toNat) (2 * f.mod.toNat + k))
       ([BitVec.ofNat 32 (r 0).1, BitVec.ofNat 32 (r 1).1], (r 0).2 ||| (r 1).2)))) ∧
     (Ready 0x104 f q → exec (.terpk f) q.s = .next (q.onward f (postFp q.s1 q.core q.e.pc (nextPc q.e.pc f) (q.members f)
       (fpPends q.s1 q.core f (q.members f) (some 6) 1 (fun t x l =>
         ([pk (fun k => runA t q.core x f k (srcLane f (widthOf t q.core x) false l)) (opC t q.core x f l)], 0)))).1)) ∧
     (Ready 0x105 f q → exec (.terunpk f) q.s = .next (q.computesFp f (some 6) 5 (fun o => un o.a))) ∧
     (Ready 0x106 f q → exec (.scacc f) q.s = .next (q.computesFp f (some 6) 1 (fun o =>
       let r := finish fF32 md (fmaVal md (if f.sub = 0 then f32 o.a else intVal o.a.toInt) (f32 o.b) (f32 o.c))
       ([BitVec.ofNat 32 r.1], r.2)))) ∧
     (∀ (run : Nat → Word) (t : Word) (n : Nat), n < 20 →
       let x := ((run (n / 4)).extractLsb' (8 * (n % 4)) 8).toInt
       (pk run t).toNat / 256 ^ (n / 5) % 256 / 3 ^ (n % 5) % 3 =
         (if t.toInt < x then 1 else if x < -t.toInt then 2 else 0)) ∧
     (∀ (a : Word) (n : Nat), n < 20 →
       let b := a.toNat / 256 ^ (n / 5) % 256
       let d := if 243 ≤ b then 0 else b / 3 ^ (n % 5) % 3
       (((un a).1.getD (n / 4) 0).extractLsb' (8 * (n % 4)) 8).toInt = (if d = 1 then 1 else if d = 2 then -1 else 0)) ∧
     (∀ a : Word, ((∃ j, j < 4 ∧ 243 ≤ a.toNat / 256 ^ j % 256) → (un a).2 = excNV) ∧
       ((∀ j, j < 4 → a.toNat / 256 ^ j % 256 < 243) → (un a).2 = 0))) ∧
  (∀ (src dst : Nat) (md : RMode) (sat : Bool) (x : Nat), src < 14 → dst < 14 → src ≠ dst →
     let v := if src ≤ 5 then fdecode (fmtOf src) x else intVal (intDecode src x)
     let r := convert src dst md sat x
     let f := fmtOf dst
     let bare := dst = 3 ∨ dst = 5
     (∀ (n : Bool) (m : Nat) (e : Int), v = .num n m e →
       (dst = 0 → src ≤ 5 → finiteCode fF32 r.1 ∧ signOf (fdecode fF32 r.1) = n ∧ ratOf (fdecode fF32 r.1) = ratOf v ∧
         r.2 = 0) ∧
       (dst = 0 → 5 < src → (m = 0 → r = (0, 0)) ∧ (m ≠ 0 → roundedTo fF32 md n ((ratOf v : ℚ) : ℝ) r)) ∧
       (1 ≤ dst → dst ≤ 5 → md = .rne ∨ md = .rz →
         (m = 0 → r = (if bare then 0 else signCode f n, 0)) ∧
         (m ≠ 0 → overflows f md n ((ratOf v : ℚ) : ℝ) → r.2 = excOF ||| excNX ∧
           r.1 = if sat = true ∨ md = .rz ∨ dst = 5 then maxCode f + signCode f n
             else if dst = 3 then 0x80 else infCode f + signCode f n) ∧
         (m ≠ 0 → ¬ overflows f md n ((ratOf v : ℚ) : ℝ) → nearestCode f md ((ratOf v : ℚ) : ℝ) r.1 ∧
           roundExc f md n ((ratOf v : ℚ) : ℝ) r ∧ (bare → ratOf (fdecode f r.1) = 0 → r.1 = 0) ∧
           (¬ bare → signOf (fdecode f r.1) = n))) ∧
       (5 < dst →
         let w := fmtWidth dst
         let lo : Int := if isSignedCode dst then -(2 ^ (w - 1)) else 0
         let hi : Int := if isSignedCode dst then 2 ^ (w - 1) - 1 else 2 ^ w - 1
         ∃ i : Int, integerFor (if src ≤ 5 then md else .rz) (ratOf v) i ∧ r.1 = (clampTo lo hi i % 2 ^ w).toNat ∧
           r.2 = if 5 < src then 0 else if i < lo ∨ hi < i then excNV else if (i : ℚ) = ratOf v then 0 else excNX)) ∧
     (∀ n : Bool, v = .inf n →
       (dst = 0 ∨ dst = 1 ∨ dst = 2 ∨ dst = 4 → r = (infCode f + signCode f n, 0)) ∧
       (dst = 3 → r = (if sat then maxCode f + signCode f n else 0x80, excNV)) ∧
       (dst = 5 → r = (maxCode f + signCode f n, excNV)) ∧
       (5 < dst → r.2 = excNV ∧ r.1 = if n then (if isSignedCode dst then 2 ^ (fmtWidth dst - 1) else 0)
         else if isSignedCode dst then 2 ^ (fmtWidth dst - 1) - 1 else 2 ^ fmtWidth dst - 1)) ∧
     (∀ s : Bool, v = .nan s →
       (dst = 0 ∨ dst = 1 ∨ dst = 2 ∨ dst = 4 → r = (nanCode f, if s then excNV else 0)) ∧
       (dst = 3 → r = (0x80, if s then excNV else 0)) ∧ (dst = 5 → r = (0, excNV)) ∧ (5 < dst → r = (0, excNV))))

/-! ### Control flow and scopes -/

/-- BRA, BRX, CALL, CALLX and RET complete. They place the issuing lanes with `enter`: the executing ones, or under `.any`
and `.all` all of them, at their targets with the target's priority, the others at the next instruction; CALL and CALLX
write the address of the next instruction to the link pairs of the executing lanes, after BRX's, CALLX's and RET's targets
have been read; RET's lanes enter one by one (R134 to R138).
`enter` (R134): an entry that stands at the address and is not parked takes the lanes and the higher priority, and then
waits for its lanes' results (R222); else there is a new entry; an empty mask changes nothing. A transfer of the lanes of
a group's only entry to one target leaves exactly the entries that the target and the next instruction give. -/
def Obligations.branches : Prop :=
  (∀ (f : Fields) (q : Issue),
     let next := q.e.pc + BitVec.ofNat 64 (lenBytes f.len)
     let near := q.e.pc + f.imm.signExtend 64
     let links := if f.d = 1023 then q.s1 else (q.members f).foldl (fun s m => writeCells s q.core m.slot
       ((lanesOf m.exec).flatMap (fun l => [(f.d.toNat, l, lo32 next), (f.d.toNat + 1, l, hi32 next)]))) q.s1
     let far := fun (m : Member) => splitTargets ((lanesOf m.exec).map (fun l => (l, (operandsOf q.s1 q.core f m.slot l).aa)))
     let moves := fun (t : State) (goes : Member → List (Dword × Mask)) (rest : Member → Mask) (pt pf : Nat) =>
       (q.members f).foldl (fun s m => updGroup s q.core m.slot (fun g =>
         transfer g (wideOf f) q.e.pc (goes m) pt (next, rest m) pf (nextCycle s q.core m.slot f))) t
     let taken := fun (m : Member) => if f.mod = 1 then (if m.exec = 0 then 0 else m.active)
       else if f.mod = 2 then (if m.exec = m.active then m.active else 0) else m.exec
     let left := fun (m : Member) => m.active &&& ~~~m.exec
     (Ready 0x180 f q → exec (.bra f) q.s = .next (q.moved f (moves q.s1 (fun m => [(near, taken m)])
       (fun m => m.active &&& ~~~(taken m)) (f.a.toNat % 256) (f.b.toNat % 256)))) ∧
     (Ready 0x182 f q → exec (.brx f) q.s = .next (q.moved f (moves q.s1 far left
       (f.imm.toNat % 256) (f.imm.toNat / 256 % 256)))) ∧
     (Ready 0x183 f q → exec (.call f) q.s = .next (q.moved f (moves links (fun m => [(near, m.exec)]) left
       (f.a.toNat % 256) (f.b.toNat % 256)))) ∧
     (Ready 0x184 f q → exec (.callx f) q.s = .next (q.moved f (moves links far left
       (f.imm.toNat % 256) (f.imm.toNat / 256 % 256)))) ∧
     (f.scope = .lane → Ready 0x185 f q → exec (.ret f) q.s = .next (q.moved f (moves q.s1 (fun m =>
       (lanesOf m.exec).map (fun l => ((operandsOf q.s1 q.core f m.slot l).aa, 1#64 <<< l))) left (f.b.toNat % 256) q.e.prio)))) ∧
  ((∀ (g : Group) (pc : Dword) (p nb : Nat), enter g pc 0 p nb = g) ∧
   (∀ (g : Group) (pc : Dword) (m : Mask) (p nb : Nat), m ≠ 0 →
     (freeEntryAt g pc = none →
       (enter g pc m p nb).frontier = g.frontier ++ [{ pc := pc, mask := m, prio := p, notBefore := nb }]) ∧
     (∀ e pre post, g.frontier = pre ++ e :: post → e.pc = pc → e.park = .none →
         (∀ d ∈ pre, ¬ (d.pc = pc ∧ d.park = .none)) →
       (enter g pc m p nb).frontier = pre ++ { e with mask := e.mask ||| m, prio := max e.prio p, settle := true,
                                                      notBefore := max e.notBefore nb, wait := .none } :: post)) ∧
   (∀ (g : Group) (e : Entry) (dest next : Dword) (m r : Mask) (pt pf nb : Nat),
     g.frontier = [e] → e.park = .none → dest ≠ next → m ≠ 0 →
       (transfer g false e.pc [(dest, m)] pt (next, r) pf nb).frontier =
         { pc := dest, mask := m, prio := pt, notBefore := nb } ::
           (if r = 0 then [] else [{ pc := next, mask := r, prio := pf, notBefore := nb }])))

/-- EXIT, YIELD and BKPT complete. EXIT ends the executing threads of its entry and lets the others go on, in a group whose
lanes stand at one address or at several and in the handler and firmware slots; the group's other entries, and its registers,
are as they were, but that an entry at the next instruction takes the lanes that go on; the handler's last threads ending is a
fault in the handler (R288). YIELD goes on and is passed over at the next choice if another entry is ready; BKPT raises BK,
class 11, with its code, and its lanes resume at the next instruction, the executing ones recorded for the frame. Where no lane
executes all three only go on (R139 to R141; that YIELD is then no choice point is the model's choice, log 81). -/
def Obligations.exit_yield_breakpoint : Prop :=
  ∀ (f : Fields) (q : Issue),
    let next := nextPc q.e.pc f
    (¬ q.executes f →
      (Ready 0x186 f q → exec (.exit f) q.s = .next (q.onward f q.s1)) ∧
      (Ready 0x187 f q → exec (.yield f) q.s = .next (q.onward f q.s1)) ∧
      (Ready 0x188 f q → exec (.bkpt f) q.s = .next (q.onward f q.s1))) ∧
    (q.executes f →
      (Ready 0x186 f q → f.scope = .lane →
        ∃ t, exec (.exit f) q.s = .next (q.moved f t) ∧
          let k := getCore q.s q.core
          let m := q.e.mask &&& ~~~(execMask q.s q.core q.ctx f q.e.mask)
          let g := getGroup q.s q.core q.ctx
          let rest := g.frontier.erase q.e
          let h := getGroup t q.core q.ctx
          let nb := nextCycle q.s q.core q.ctx f
          (m = 0 → (q.ctx = handlerCtx → rest ≠ []) → h.frontier = rest ∧ h.running = none) ∧
          (m = 0 → q.ctx = handlerCtx → rest = [] → h.frontier = [] ∧ h.live = false ∧
            ∀ fr, k.curH = some fr → (getCore t q.core).curH = none ∧ fr ∈ (getCore t q.core).framesF) ∧
          (m ≠ 0 → freeEntryAt { g with frontier := rest } next = none →
            h.frontier = rest ++ [⟨next, m, q.e.prio, .none, .none, nb, false⟩] ∧ h.running = some next) ∧
          (m ≠ 0 → ∀ d pre post, rest = pre ++ d :: post → d.pc = next → d.park = .none →
            (∀ b ∈ pre, ¬ (b.pc = next ∧ b.park = .none)) →
              h.frontier = pre ++ { d with mask := d.mask ||| m, prio := max d.prio q.e.prio, settle := true,
                                           notBefore := max d.notBefore nb, wait := .none } :: post) ∧
          h.regs = g.regs ∧ (∀ x, x ≠ q.ctx → (getGroup t q.core x).frontier = (getGroup q.s q.core x).frontier)) ∧
      (Ready 0x187 f q → exec (.yield f) q.s = .next (q.moved f ((q.members f).foldl (fun s m =>
        updGroup s q.core m.slot (fun g => choose { advance g (wideOf f) q.e.pc next (nextCycle s q.core m.slot f) with
          yielded := some next })) q.s1))) ∧
      (Ready 0x188 f q → exec (.bkpt f) q.s = .next (q.trapped f true
        { cls := 11, info := f.a.setWidth 32, pc := q.e.pc, slots := (q.members f).map (·.slot),
          origin := (((q.members f).head?).map (·.slot)).getD 0, masks := (q.members f).map (fun m => (m.slot, m.exec)) } q.s1)))

/-- REGROUP and RGHOME complete their gather and check: where every group of the role has n registers they are in progress,
their lanes held at the instruction, else RB is raised at the role's groups, vacant ones too. Once the drain is over
REGROUP_COMMIT moves the threads by the plan and writes status 0, or moves nothing and writes 1 for too few groups and 3 for
too few windows; where nothing has to move there is nothing that an error could have struck. A pre-emption held for 4,096
cycles, and an uncorrectable error in a register that would move, abandon with status 2, the second with XM at the owner
(R145, R146, R148, R150; the owner of a struck shadow row is the model's choice, log 23). -/
def Obligations.regrouping : Prop :=
  (∀ (f : Fields) (q : Issue),
    let k := getCore q.s1 q.core
    let xs := (q.members f).map (·.slot)
    let started := fun (home : Bool) (n : Nat) => q.parked f false .hold (updCore q.s1 q.core (fun k =>
      let o : RegroupOp := ⟨(k.group (xs.headD 0)).block, (k.group (xs.headD 0)).role, home, n, f, nextPc q.e.pc f, xs,
        now q.s1 q.core, none, false⟩
      { k with regroups := k.regroups ++ [o] }))
    let short := fun (y : Nat) => q.trapped f false
      { cls := 2, info := BitVec.ofNat 32 (k.group y).allotment, pc := q.e.pc,
        slots := xs, origin := y } q.s1
    let outcome := fun (r : Host.Outcome State Fault Refusal) (home : Bool) (n : Nat) =>
      ((∀ x ∈ xs, n ≤ (k.group x).allotment) → r = .next (started home n)) ∧
      ((∃ x ∈ xs, (k.group x).allotment < n) → ∃ y ∈ xs, (k.group y).allotment < n ∧ r = .next (short y))
    (Ready 0x1C3 f q → outcome (exec (.regroup f) q.s) false f.imm.toNat) ∧
    (Ready 0x1C4 f q → outcome (exec (.rghome f) q.s) true f.a.toNat)) ∧
  (∀ (s : State) (c b r : Nat) (o : RegroupOp), findRegroup (getCore s c) b r = some o →
    (let s1 := updCore s c (fun k => updSlots k o.slots (landDue (now s c)))
     let k := getCore s1 c
     let w := (k.group (o.slots.headD 0)).width
     regroupDrained s c o = true → holdOver s c o = false →
      (planOf k o = none → exec (.regroupCommit c b r) s = .next (stepFree (endUnmoved s1 c o 1))) ∧
      (∀ plan, planOf k o = some plan →
        (freeUnits k < (changedSlots o plan).length * unitsOf o.n w →
          exec (.regroupCommit c b r) s = .next (stepFree (endUnmoved s1 c o 3))) ∧
        ((changedSlots o plan).length * unitsOf o.n w ≤ freeUnits k → regroupStruck k o (changedSlots o plan) = none → ∃ t,
          exec (.regroupCommit c b r) s = .next (stepFree (grantGrows (writeStatus t c o 0) c)) ∧
          ∀ p ∈ plan, p.2.1 ∈ o.slots → (∀ p' ∈ plan, p'.2.2 < 64 ∧ (p'.2 = p.2 → p' = p)) →
            ∀ j, j < o.n → j < (k.group p.2.1).allotment →
              regAt (getGroup t c p.2.1) j p.2.2 = regAt (k.group p.1.slot) j p.1.lane) ∧
        (∀ x l, (changedSlots o plan).length * unitsOf o.n w ≤ freeUnits k →
          regroupStruck k o (changedSlots o plan) = some (x, l) → ∃ req,
          exec (.regroupCommit c b r) s = .next (stepFree (raiseTrap (endUnmoved s1 c o 2) c req)) ∧ req.cls = 9 ∧
          req.slots = [x] ∧ req.origin = x ∧ req.pc = o.next - BitVec.ofNat 64 (lenBytes o.f.len)) ∧
        (∀ x q, x ∈ changedSlots o plan → q ∈ (k.group x).bad → q / 64 < o.n → (k.group x).liveMask.getLsbD (q % 64) = true →
          regroupStruck k o (changedSlots o plan) ≠ none) ∧
        (changedSlots o plan = [] → regroupStruck k o (changedSlots o plan) = none))) ∧
    (∀ h, o.hold = some h → h + 4096 ≤ now s c →
      exec (.regroupPreemptTimeout c b r) s = .next (stepFree (endUnmoved s c o 2)) ∧
      exec (.regroupCommit c b r) s = .next (stepFree (endUnmoved s c o 2))))

/-- GROW and SHRINK complete: GROW writes status 2 at a limit, appends a block of registers that read zero with status 0
where it fits, and else writes 1 with `.try` and waits with `.wait`, until GROW_GRANT finds room for the oldest request: its
block is appended with registers that read zero, its status 0 is written in the lanes that asked, and its entry goes on;
SHRINK removes the last block where it has the size named and is not the only one, frees its units and writes status 0, and else
writes 2; where no lane executes both only go on (R424). No other group of the core, nor anything outside it, changes.
A compaction keeps the owner, position and size of every allocation and of the request it serves, and no register changes;
COMPACTION ends its hold once the held groups' own results have landed (R151, R152, R243 to R245). -/
def Obligations.growing : Prop :=
  (∀ (f : Fields) (q : Issue) (m : Member), q.members f = [m] → m.exec ≠ 0 →
    let k := getCore q.s1 q.core
    let g := k.group m.slot
    let n := f.imm.toNat
    let limit := 4 ≤ g.allot.length ∨ 640 < g.allotment + n
    let status := fun (t : State) (v : Word) => if f.d = 1023 then t
      else writeCells t q.core m.slot ((lanesOf m.exec).map (fun l => (f.d.toNat, l, v)))
    (Ready 0x1C5 f q →
      (limit → exec (.grow f) q.s = .next (q.onward f (status q.s1 2))) ∧
      (¬ limit → f.mod = 1 ∨ k.growq = [] → ∀ k1, growGroup k m.slot n = some k1 →
        exec (.grow f) q.s = .next (q.onward f (status (setCore q.s1 q.core k1) 0))) ∧
      (¬ limit → growGroup k m.slot n = none → f.mod = 1 → exec (.grow f) q.s = .next (q.onward f (status q.s1 1))) ∧
      (¬ limit → growGroup k m.slot n = none ∨ k.growq ≠ [] → f.mod = 0 →
        exec (.grow f) q.s = .next (q.parked f false .hold (updCore q.s1 q.core (fun k =>
          { k with growq := k.growq ++ [⟨m.slot, n, f.d.toNat, m.exec⟩] }))))) ∧
    (Ready 0x1C6 f q → g.handles = [] → (∀ r ∈ k.growq, r.ctx ≠ m.slot) → (∀ p ∈ g.pend, p.inFlight (now q.s1 q.core) = false) →
      (g.allot.length ≤ 1 ∨ g.allot.getLast? ≠ some n → exec (.shrink f) q.s = .next (q.onward f (status q.s1 2))) ∧
      (1 < g.allot.length → g.allot.getLast? = some n →
        let u := status (updGroup q.s1 q.core m.slot (landDue (now q.s1 q.core))) 0
        ∃ t, exec (.shrink f) q.s = .next (q.onward f (grantGrows t q.core)) ∧ onlyCore q.core q.s1 t ∧
          (getGroup t q.core m.slot).allot = g.allot.dropLast ∧
          (getGroup t q.core m.slot).regs = (getGroup u q.core m.slot).regs ∧
          (getGroup t q.core m.slot).frontier = g.frontier ∧
          (∀ a, a ∈ (getCore t q.core).alloc ↔ a ∈ k.alloc ∧ ¬ (a.ctx = m.slot ∧ g.allot.length - 1 ≤ a.pos)) ∧
          ∀ x, x ≠ m.slot → getGroup t q.core x = k.group x))) ∧
  (∀ (f : Fields) (q : Issue) (m : Member), q.members f = [m] → m.exec = 0 →
    (Ready 0x1C5 f q → exec (.grow f) q.s = .next (q.onward f q.s1)) ∧
    (Ready 0x1C6 f q → exec (.shrink f) q.s = .next (q.onward f q.s1))) ∧
  (∀ (k k1 : Core) (x n : Nat), growGroup k x n = some k1 →
    (k1.group x).allot = (k.group x).allot ++ [n] ∧ (k1.group x).frontier = (k.group x).frontier ∧
    (∀ r l, l < 64 → regAt (k1.group x) r l = if r < (k.group x).allotment then regAt (k.group x) r l else 0) ∧
    ∀ y, y ≠ x → k1.group y = k.group y) ∧
  (∀ (s : State) (c : Nat),
    ((getCore s c).growq = [] → exec (.growGrant c) s = .next (stepFree s)) ∧
    (∀ (r : GrowReq) (rest : List GrowReq), (getCore s c).growq = r :: rest →
      (growGroup (getCore s c) r.ctx r.size = none → exec (.growGrant c) s = .next (stepFree s)) ∧
      ∀ k1, r.d < 1024 → growGroup (getCore s c) r.ctx r.size = some k1 →
        let u := setCore s c { k1 with growq := rest }
        let v := if r.d = 1023 then u else writeCells u c r.ctx ((lanesOf r.mask).map (fun l => (r.d, l, 0)))
        ∃ t, exec (.growGrant c) s = .next (stepFree t) ∧ onlyCore c s t ∧ (getCore t c).growq = rest ∧
          (getGroup t c r.ctx).allot = (k1.group r.ctx).allot ∧ (getGroup t c r.ctx).regs = (getGroup v c r.ctx).regs ∧
          (∀ x, x ≠ r.ctx → getGroup t c x = getGroup s c x) ∧
          ∀ e pre post, (k1.group r.ctx).frontier = pre ++ e :: post → e.park = .hold → (∀ d ∈ pre, d.park ≠ .hold) →
            e.mask ≠ 0 → (∀ d ∈ pre ++ post, ¬ (d.pc = e.pc + 16 ∧ d.park = .none)) →
              (getGroup t c r.ctx).frontier =
                pre ++ post ++ [⟨e.pc + 16, e.mask, e.prio, .none, .none, e.notBefore, false⟩])) ∧
  (∀ (s : State) (c : Nat),
    let k := getCore s c
    let held := ∃ x ∈ k.moving, ∃ p ∈ (k.group x).pend, p.inFlight (now s c) = true
    (held → exec (.compaction c) s = .next s) ∧
    (¬ held → exec (.compaction c) s = .next (setCore s c { k with moving := [] }))) ∧
  (∀ (k : Core) (r : Alloc),
    (∀ a, a ∈ k.alloc ∨ a = r → ∃ b ∈ (compact k r).alloc, b.ctx = a.ctx ∧ b.pos = a.pos ∧ runLen b.runs = runLen a.runs) ∧
    (compact k r).groups = k.groups)

/-- SYNC, SETJOIN and SETLEAVE complete. SYNC puts into every member's queue a release at core scope behind all members'
loads; SETJOIN makes the waiting groups with its id members together with its own where their number reaches its count, waits
parked where it does not, and raises SM with code 2, 3 or 4 in the cases of R143; SETLEAVE takes its group out of its set
(R142 to R144).
A rendezvous that is complete, though no thread arrives, issues its instruction for all its members once: where the
instruction at its address is found there, its members all stand at it and wait for nothing, and its slot may issue (R222,
R226, R231, R232). -/
def Obligations.synchronisation : Prop :=
  (∀ (f : Fields) (q : Issue), q.executes f →
     let k := getCore q.s1 q.core
     (Ready 0x1C0 f q → ∃ t, exec (.sync f) q.s = .next (q.onward f t) ∧ onlyCore q.core q.s1 t ∧
       (∀ y, (getGroup t q.core y).regs = (k.group y).regs ∧ (getGroup t q.core y).frontier = (k.group y).frontier ∧
         (getGroup t q.core y).pend = (k.group y).pend ∧ (getGroup t q.core y).handles = (k.group y).handles ∧
         (getGroup t q.core y).fpflags = (k.group y).fpflags ∧
         ((∀ m ∈ q.members f, m.slot ≠ y) → (getGroup t q.core y).storeq = (k.group y).storeq)) ∧
       ∀ m ∈ q.members f, ∃ it ∈ (getGroup t q.core m.slot).storeq, it.kind = .fence ∧ it.rel = 1 ∧ it.lanes = [] ∧
         it.waits = (q.members f).flatMap (fun m => (k.group m.slot).loads.map (·.id))) ∧
     (f.scope = .group → Ready 0x1C1 f q →
       let id := setjoinId f
       let n := setjoinCount f
       let g := k.group q.ctx
       let js := joiners k g.block id
       let formed := (slotsOf k).any (fun y => (k.group y).block == g.block && (k.group y).setId == some id)
       let sm := fun code => exec (.setjoin f) q.s = .next (q.trapped f false
         { cls := 3, info := smInfo code id .group 0 0, pc := q.e.pc, slots := [q.ctx], origin := q.ctx } q.s1)
       (g.setId ≠ none → sm 2) ∧
       (g.setId = none → formed = true → sm 3) ∧
       (g.setId = none → formed = false → (∃ j ∈ js, j.2 ≠ n) → sm 4) ∧
       (g.setId = none → formed = false → (∀ j ∈ js, j.2 = n) →
         (js.length + 1 ≠ n → exec (.setjoin f) q.s = .next (q.parked f false (.join id n) q.s1)) ∧
         (js.length + 1 = n → ∃ t, exec (.setjoin f) q.s = .next (q.onward f t) ∧
           (getGroup t q.core q.ctx).setId = some id ∧ ∀ j ∈ js, (getGroup t q.core j.1).setId = some id))) ∧
     (Ready 0x1C2 f q → exec (.setleave f) q.s = .next (q.onward f ((q.members f).foldl (fun s m =>
       updGroup s q.core m.slot (fun g => { g with setId := none })) q.s1)))) ∧
  (∀ (s s1 : State) (c x : Nat) (pc : Dword) (e : Entry) (i : Instr) (op : Nat) (f : Fields)
     (body : Dword → Members → State → Res),
     (getGroup s c x).frontier.find? (fun d => d.pc == pc && isParked d.park) = some e →
     (getGroup s c x).stop = .run → mayComplete (getCore s c) x e = true → lookAt s c x e = .found i s1 →
     opcodeOf i = some op → fieldsOf i = some f → performOf i = some body →
     rdvReady (getCore s1 c) e op f (getGroup s c x) (membersAt (getCore s1 c) x f.scope (byRoleOp op f)) = true →
     rdvFree s1 c op f pc (membersAt (getCore s1 c) x f.scope (byRoleOp op f)) = true →
       exec (.rendezvousComplete c x pc) s =
         .next (issueNow op f body { s1 with cur := (c, x) } c pc true (membersAt (getCore s1 c) x f.scope (byRoleOp op f))))

/-! ### Memory -/

/-- The accesses of the executing lanes: the pair in A plus IMM32 sign-extended for global memory (R158), A plus IMM32 for
a scratchpad (R159), with the captured operands of a lane. -/
def accessesOf (q : Issue) (f : Fields) (spm : Bool) (data : Nat → Nat → Nat × Nat) : List MElem :=
  (execElems (q.members f)).map (fun p =>
    let o := operandsOf q.s1 q.core f p.1 p.2
    ⟨p.1, p.2, if spm then (o.a + f.imm).setWidth 64 else o.aa + f.imm.signExtend 64, (data p.1 p.2).1, (data p.1 p.2).2⟩)

/-- Store data: the words of one, two or four registers from B (R155); operands of an atomic: b, and c for `.cas`. -/
def storedData (q : Issue) (f : Fields) (x l : Nat) : Nat × Nat := (storeData q.s1 q.core f (sizeOf155 f.sub.toNat) x l, 0)
def atomicData (q : Issue) (f : Fields) (x l : Nat) : Nat × Nat :=
  (atomB q.s1 q.core f x l, atomC q.s1 q.core f x l)

/-- There is room for an access's requests, and then its checks have passed for all its lanes (R157, R228). -/
structure Passes (q : Issue) (f : Fields) (spm : Bool) (size need : Nat) (es : List MElem) (s1 : State) (accs : List Acc) :
    Prop where
  some   : es ≠ []
  room   : roomFor (getCore q.s1 q.core) size (issueSlots (q.members f)) es = true
  checks : checkElems q.s1 q.core spm size need es = (s1, .ok accs)

/-- LD and LDS complete: where the checks pass, no acquire is in progress, fewer than 31 loads and matrix instructions are in
flight and nothing in the store queue makes them wait, every member has an outstanding load of its lanes' addresses, of 16 bytes
as two halves, and a result of variable latency for D that is not known yet; with an acquiring scope every member, also one in
which no lane executes, has an acquire of those loads in progress; memory and scratchpads are as they were (R157, R160 to
R163, R285). -/
def Obligations.loads : Prop :=
  ∀ (f : Fields) (q : Issue) (s1 : State) (accs : List Acc),
    let xs := issueSlots (q.members f)
    let size := sizeOf155 f.sub.toNat
    let issued := fun (spm : Bool) (kind : LKind) (r : Host.Outcome State Fault Refusal) =>
      let es := accessesOf q f spm (fun _ _ => (0, 0))
      Passes q f spm size 1 es s1 accs → acqOpen (getCore q.s1 q.core) xs = false →
      (spm = true ∨ ∀ x ∈ xs, inFlight31 q.s1 q.core x = true) →
      (∀ x ∈ xs, mustWait (getGroup (usedWalks s1 q.core es) q.core x) spm size (accs.filter (fun a => a.slot == x)) = false) →
        ∃ t, r = .next (q.onward f t) ∧ t.mem = q.s1.mem ∧ t.spm = q.s1.spm ∧
          ∀ x ∈ xs, (∃ a ∈ accs, a.slot = x) → ∃ d ∈ (getGroup t q.core x).loads,
            d.kind = kind ∧ d.f = f ∧ d.size = size ∧
            (d.lanes.filter (fun l => !l.half)).map (fun l => (l.lane, l.va, l.addr)) =
              (accs.filter (fun a => a.slot == x)).map (fun a => (a.lane, a.va, a.addr)) ∧
            (d.lanes.filter (fun l => l.half)).map (fun l => (l.lane, l.addr)) = (if size ≤ 8 then [] else
              (accs.filter (fun a => a.slot == x)).map (fun a => (a.lane, a.addr + 8))) ∧
            (f.mod ≠ 0 → ∀ y ∈ xs, ∃ a ∈ (getGroup t q.core y).acqs, d.id ∈ a.first ∧ d.id ∈ a.loads ∧ a.wide = decide (2 ≤ f.mod.toNat)) ∧
            (f.d ≠ 1023 → ∃ p ∈ (getGroup t q.core x).pend, p.id = d.id ∧ p.ready = false ∧ p.due = none ∧
              p.regs = (List.range (regsOfSize size)).map (f.d.toNat + ·))
    (Ready 0x200 f q → issued false .ld (exec (.ld f) q.s)) ∧
    (Ready 0x202 f q → issued true .lds (exec (.lds f) q.s))

/-- ST, STS, ATOM, ATOMS and RED complete: where the checks pass every member's accesses stand in its store queue with the
address, the captured operands, the operation and the releasing scope of each lane, a store of 16 bytes as two of 8; an ATOM
or ATOMS also has an outstanding load of the same number. A release waits, at every member, also one in which no lane executes,
for the earlier loads of all members. With `.acq` an ATOM or RED begins an acquire at module scope of every member, also one in
which no lane executes: of the ATOM's loads, or of the RED's items, which have to be acknowledged. Memory and scratchpads are as
they were (R157, R161 to R167). -/
def Obligations.stores_and_atomics : Prop :=
  ∀ (f : Fields) (q : Issue) (s1 : State) (accs : List Acc),
    let xs := issueSlots (q.members f)
    let queued := fun (spm : Bool) (size need rel : Nat) (data : Nat → Nat → Nat × Nat)
        (r : Host.Outcome State Fault Refusal) (reports : State → Nat → Prop) =>
      Passes q f spm size need (accessesOf q f spm data) s1 accs →
        ∃ t, r = .next (q.onward f t) ∧ t.mem = q.s1.mem ∧ t.spm = q.s1.spm ∧
          (∀ x ∈ xs, (∃ a ∈ accs, a.slot = x) → reports t x) ∧
          (rel ≠ 0 → ∀ x ∈ xs, ∃ it ∈ (getGroup t q.core x).storeq, it.rel = rel ∧
            ∀ y ∈ xs, ∀ d ∈ (getGroup q.s1 q.core y).loads, d.id ∈ it.waits)
    let item := fun (t : State) (x : Nat) (kind : QKind) (spm : Bool) (size aop rel : Nat)
        (lane : Acc → QLane → Prop) (it : QItem) =>
      it ∈ (getGroup t q.core x).storeq ∧ it.kind = kind ∧ it.spm = spm ∧ it.size = size ∧ it.aop = aop ∧ it.rel = rel ∧
      ∀ a ∈ accs, a.slot = x → ∃ l ∈ it.lanes, l.lane = a.lane ∧ lane a l
    let sz := sizeOf155 f.sub.toNat
    let stored := fun (spm : Bool) (t : State) (x : Nat) =>
      (sz ≤ 8 → ∃ it, item t x .st spm sz 0 f.mod.toNat
        (fun a l => l.addr = a.addr ∧ l.b = (storedData q f x a.lane).1) it) ∧
      (8 < sz →
        (∃ it, item t x .st spm 8 0 f.mod.toNat
          (fun a l => l.addr = a.addr ∧ l.b = (storedData q f x a.lane).1 % 2 ^ 64) it) ∧
        (∃ it, item t x .st spm 8 0 0
          (fun a l => l.addr = a.addr + 8 ∧ l.b = (storedData q f x a.lane).1 / 2 ^ 64 % 2 ^ 64) it))
    let operands := fun (x : Nat) (a : Acc) (l : QLane) =>
      l.addr = a.addr ∧ (l.b, l.c) = atomicData q f x a.lane
    let rel := if f.mod.getLsbD 2 then 4 else 0
    let width := if f.mod.getLsbD 0 then 8 else 4
    let acq := f.mod.getLsbD 1 = true
    let both := fun (spm : Bool) (kind : LKind) (t : State) (x : Nat) =>
      ∃ it, item t x .atom spm width f.sub.toNat (if spm then 0 else rel) (operands x) it ∧
        (∃ d ∈ (getGroup t q.core x).loads, d.id = it.id ∧ d.kind = kind ∧ d.f = f) ∧
        (spm = false → acq → ∀ y ∈ xs, ∃ a ∈ (getGroup t q.core y).acqs, it.id ∈ a.first ∧ it.id ∈ a.loads ∧ a.wide = true)
    (Ready 0x201 f q → queued false sz 2 f.mod.toNat (storedData q f) (exec (.st f) q.s) (stored false)) ∧
    (Ready 0x203 f q → queued true sz 2 f.mod.toNat (storedData q f) (exec (.sts f) q.s) (stored true)) ∧
    (Ready 0x204 f q → acqOpen (getCore q.s1 q.core) xs = false →
      queued false width 3 rel (atomicData q f) (exec (.atom f) q.s) (both false .atom)) ∧
    (Ready 0x205 f q → acqOpen (getCore q.s1 q.core) xs = false →
      queued true width 3 0 (atomicData q f) (exec (.atoms f) q.s) (both true .atoms)) ∧
    (Ready 0x206 f q → queued false width 2 rel (atomicData q f) (exec (.red f) q.s) (fun t x =>
      ∃ it, item t x .red false width f.sub.toNat rel (operands x) it ∧
        (acq → ∀ y ∈ xs, ∃ a ∈ (getGroup t q.core y).acqs, it.id ∈ a.items ∧ a.wide = true ∧ a.acked = true)))

/-- An access of which a lane fails a check performs nothing in any lane: the members trap with the class and address of the
lowest failing element, the information giving its lane and the kind of access, and resume at the next instruction; one whose
requests have no room waits before it is checked (R157, R228, R279, R280).
The checks in their order: a misaligned global address fails with AL, else one outside the virtual address space with
TP; a misaligned scratchpad address with AL, else a reserved bit or an offset outside the core's banks with TP, else a bank of
another tenant with OV (R158, R159). -/
def Obligations.failed_accesses : Prop :=
  (∀ (f : Fields) (q : Issue) (s1 : State) (x l cls : Nat) (addr : Dword),
     let xs := issueSlots (q.members f)
     let fails := fun (spm : Bool) (size need kind : Nat) (data : Nat → Nat → Nat × Nat)
         (r : Host.Outcome State Fault Refusal) =>
       accessesOf q f spm data ≠ [] →
       let room := roomFor (getCore q.s1 q.core) size xs (accessesOf q f spm data)
       (room = false → r = .next (q.waits f q.s1)) ∧
       (room = true → checkElems q.s1 q.core spm size need (accessesOf q f spm data) = (s1, .fail x l cls addr) →
         ∃ req t, r = .next (q.trapped f true req t) ∧ req.cls = cls ∧ req.info = BitVec.ofNat 32 (l * 16 + kind) ∧
           req.addr = addr ∧ req.pc = q.e.pc ∧ req.slots = suspends (q.members f) ∧ req.origin = x ∧ t.mem = q.s1.mem ∧ t.spm = q.s1.spm ∧
           ∀ y, (getGroup t q.core y).storeq = (getGroup q.s1 q.core y).storeq ∧
             (getGroup t q.core y).loads = (getGroup q.s1 q.core y).loads)
     let sz := sizeOf155 f.sub.toNat
     let width := if f.mod.getLsbD 0 then 8 else 4
     let idle := acqOpen (getCore q.s1 q.core) xs = false
     (Ready 0x200 f q → idle → (∀ y ∈ xs, inFlight31 q.s1 q.core y = true) →
       fails false sz 1 1 (fun _ _ => (0, 0)) (exec (.ld f) q.s)) ∧
     (Ready 0x202 f q → idle → fails true sz 1 1 (fun _ _ => (0, 0)) (exec (.lds f) q.s)) ∧
     (Ready 0x201 f q → fails false sz 2 2 (storedData q f) (exec (.st f) q.s)) ∧
     (Ready 0x203 f q → fails true sz 2 2 (storedData q f) (exec (.sts f) q.s)) ∧
     (Ready 0x204 f q → idle → fails false width 3 3 (atomicData q f) (exec (.atom f) q.s)) ∧
     (Ready 0x205 f q → idle → fails true width 3 3 (atomicData q f) (exec (.atoms f) q.s)) ∧
     (Ready 0x206 f q → fails false width 2 4 (atomicData q f) (exec (.red f) q.s))) ∧
  ((∀ (s : State) (c x size need : Nat) (ea : Dword),
     (ea.toNat % size ≠ 0 → checkGlobal s c x size need ea = (s, .fault 7)) ∧
     (ea.toNat % size = 0 → signExtended ea = false → checkGlobal s c x size need ea = (s, .fault 5)) ∧
     (ea.toNat % size = 0 → signExtended ea = true → checkGlobal s c x size need ea = translate s c x ea need)) ∧
   (∀ (s : State) (c tenant size : Nat) (sa : Word),
     let off := sa.toNat % 2 ^ 19
     let target := if sa.getLsbD 23 then c / 4 * 4 + sa.toNat / 2 ^ 21 % 4 else c
     let bad := sa.toNat / 2 ^ 24 ≠ 0 ∨ (sa.getLsbD 23 = false ∧ sa.toNat / 2 ^ 21 % 4 ≠ 0) ∨ sa.toNat / 2 ^ 19 % 4 ≠ 0 ∨
       8192 * (getCore s target).nspm ≤ off
     (sa.toNat % size ≠ 0 → checkSpm s c tenant size sa = .error 7) ∧
     (sa.toNat % size = 0 → bad → checkSpm s c tenant size sa = .error 5) ∧
     (sa.toNat % size = 0 → ¬ bad → bankTagOf s target (off / 8192) ≠ tenant → checkSpm s c tenant size sa = .error 6) ∧
     (sa.toNat % size = 0 → ¬ bad → bankTagOf s target (off / 8192) = tenant →
       checkSpm s c tenant size sa = .ok (target * 327680 + off))))

/-- FENCE, CCTL and PREF complete, and only go on where no lane executes (for FENCE the model's choice, log 82). FENCE puts a
releasing item of its scope into the queue of every member, and begins an acquire of every member that waits for the loads of all
members that are outstanding and, with `.ar`, for the item; an acquire alone that finds none is over at once, and at a scope wider
than the core has then dropped the core's L1. CCTL drops all of L1, or every sector of the addressed lines from L1; or cleans the
lines in L2, so that DRAM holds what memory reads there, drops them from L2 after that, or makes them the next to leave; a line
that the cache lacks, or whose address fails a check, is left alone, and no location changes; PREF asks for its sectors where they
fit, each untranslated until a walk has ended, and not for one whose address fails a check (R168 to R170; the permission that
the check asks for is the model's choice, log 86). -/
def Obligations.fence_cache_prefetch : Prop :=
  (∀ (f : Fields) (q : Issue), ¬ q.executes f →
    (Ready 0x207 f q → exec (.fence f) q.s = .next (q.onward f q.s1)) ∧
    (Ready 0x208 f q → exec (.cctl f) q.s = .next (q.onward f q.s1)) ∧
    (Ready 0x209 f q → exec (.pref f) q.s = .next (q.onward f q.s1))) ∧
  ∀ (f : Fields) (q : Issue), q.executes f →
    let xs := issueSlots (q.members f)
    let k := getCore q.s1 q.core
    let es := (execElems (q.members f)).map (fun p => (p.1, p.2, (operandsOf q.s1 q.core f p.1 p.2).aa + f.imm.signExtend 64))
    let rel := f.mod.getLsbD 1
    let acq := f.mod.getLsbD 0
    let loads := xs.flatMap (fun y => (k.group y).loads.map (·.id))
    (Ready 0x207 f q → ∃ t, exec (.fence f) q.s = .next (q.onward f t) ∧ onlyCore q.core q.s1 t ∧ ∀ x ∈ xs,
      let g := k.group x
      let h := getGroup t q.core x
      h.regs = g.regs ∧ h.frontier = g.frontier ∧ h.pend = g.pend ∧
      (rel = true → ∃ it ∈ h.storeq, it.kind = .fence ∧ it.rel = f.sub.toNat ∧
        (f.sub ≠ 0 → ∀ i ∈ loads, i ∈ it.waits)) ∧
      (rel = false → h.storeq = g.storeq) ∧
      (acq = true → loads ≠ [] ∨ rel = true → ∃ a ∈ h.acqs, a.loads = loads ∧ a.wide = decide (2 ≤ f.sub.toNat) ∧
        (rel = true → ∃ it ∈ h.storeq, it.kind = .fence ∧ a.items = [it.id])) ∧
      (acq = true → loads = [] → rel = false → (∀ a ∈ h.acqs, a ∈ g.acqs) ∧
        (2 ≤ f.sub.toNat → ∀ sec, l1Sector (getCore t q.core) sec = none))) ∧
    (Ready 0x208 f q → f.sub = 1 → exec (.cctl f) q.s = .next (q.onward f (updCore q.s1 q.core l1DropAll)) ∧
      ∀ sec, l1Sector (l1DropAll k) sec = none) ∧
    (Ready 0x208 f q → f.sub ≠ 1 → ∀ s1 accs, quietAccs q.s1 q.core es = (s1, .ok accs) →
      ∃ t, exec (.cctl f) q.s = .next (q.onward f t) ∧ t.mem = q.s1.mem ∧ t.spm = q.s1.spm ∧
        (accs = [] → t.l2 = q.s1.l2 ∧ t.dram = q.s1.dram ∧ (getCore t q.core).l1 = k.l1) ∧
        (∀ n, (∀ a ∈ accs, a.addr / 256 ≠ n) → l2Find t n = l2Find q.s1 n ∧
          ((∀ ln ∈ k.l1, ln.secs ≠ []) → ∀ i, i < 4 →
            l1Sector (getCore t q.core) (n * 4 + i) = l1Sector k (n * 4 + i))) ∧
        ∀ a ∈ accs,
          let line := a.addr / 256
          let clean := fun (ln : L2Line) => ∀ i, i < 256 → ln.dirty.getLsbD i = true → readByte t.dram (line * 256 + i) = 0
          (f.sub = 0 → ∀ i, i < 4 → l1Sector (getCore t q.core) (line * 4 + i) = none) ∧
          (f.sub ≠ 0 → l2Find q.s1 line = none → l2Find t line = none) ∧
          (∀ ln, l2Find q.s1 line = some ln →
            (f.sub = 2 → l2Find t line = some { ln with dirty := 0 } ∧ clean ln) ∧
            (f.sub = 3 → l2Find t line = none ∧ clean ln) ∧
            (f.sub = 4 → l2Find t line = some { ln with rrpv := 3 }))) ∧
    (Ready 0x208 f q → f.sub ≠ 1 → (quietAccs q.s1 q.core es).2 = .full →
      exec (.cctl f) q.s = .next (q.waits f (quietAccs q.s1 q.core es).1)) ∧
    (Ready 0x209 f q →
      let asked := fun (x : Nat) => dedup ((es.filter (fun e => e.1 == x)).flatMap (fun e => (prefSectors f e.2.2).map (·.toNat)))
      let fits := requestsFit (getCore q.s1 q.core) (dedup (xs.flatMap asked)).length (xs.map (fun x => (x, (asked x).length)))
      (fits = false → exec (.pref f) q.s = .next (q.waits f q.s1)) ∧
      (fits = true → exec (.pref f) q.s = .next (q.onward f ((xs.flatMap (fun x => (asked x).map
        (fun a => (x, BitVec.ofNat 64 a)))).foldl (addPref q.core q.s1.serial f) { q.s1 with serial := q.s1.serial + 1 })))) ∧
    (∀ (s : State) (share : Nat) (w : Nat × Dword),
      let t := addPref q.core share f s w
      let asks := fun (sec : Option Nat) => ∃ p, (getCore t q.core).prefs = (getCore s q.core).prefs ++ [p] ∧ p.ctx = w.1 ∧
        p.share = share ∧ p.va = w.2 ∧ p.sector = sec ∧ p.hint = f.hint.toNat ∧ p.install = !f.mod.getLsbD 1
      let tr := (checkGlobal s q.core (prefCtx w.1) 1 1 w.2).2
      t.mem = s.mem ∧ (∀ cls, tr = .fault cls → (getCore t q.core).prefs = (getCore s q.core).prefs) ∧
      (∀ a, tr = .pa a → asks (some (a / 64))) ∧ (tr = .wait ∨ tr = .full → asks none))

/-- Writes on their way perform. A store leaves its queue, and one to the core's own banks is then written: only bytes of its
lanes change. STORE_ACK writes one lane's bytes and ATOMIC_PERFORM the new value of R164 of one lane, where no error has struck
its bytes, at the address of that lane and no other byte of memory but bits of dirty trackers; an atomic's old value reaches
its load; a lane that an error has struck writes nothing (R161, R164, R259, R267, R395, R399).
The lanes of a load, and the two halves of one of 16 bytes, take their values, those of L1 or of the home, or of the bank, and
change no location; once every lane has its own, the load is over, the registers of each clean lane hold its value, extended as
SUB says, those of a lane that an error has struck are as they were, and XM is raised with the first of these. PAGE_WALK
ends a walk with what the tables say (R155, R157, R160 to R162, R262, R329, R395). -/
def Obligations.accesses_perform : Prop :=
  ((∀ (s : State) (c x : Nat) (it : QItem) (rest : List QItem), (getGroup s c x).storeq = it :: rest →
     mayLeave (getCore s c) c x it = true →
     (it.spm = true → it.kind = .st → ∀ l ∈ it.lanes, l.addr / 327680 = c → flightClear (getCore s c) it.id true l it.size = true) →
       ∃ t, exec (.storeLeaveQueue c x) s = .next t ∧ (getGroup t c x).storeq = rest ∧ t.mem = s.mem ∧
         (it.spm = false ∨ it.kind ≠ .st → t.spm = s.spm) ∧
         (∀ a, (∀ l ∈ it.lanes, a < l.addr ∨ l.addr + it.size ≤ a) → readByte t.spm a = readByte s.spm a) ∧
         (it.kind ≠ .fence → it.spm = false → it.lanes ≠ [] →
           ∃ w ∈ (getCore t c).flight, w.id = it.id ∧ w.ctx = x ∧ w.item = it)) ∧
   (∀ (s : State) (c id lane : Nat) (w : Flight) (l : QLane), flightLane (getCore s c) id lane = some (w, l) →
     let n := w.item.size
     let outside := fun (a : Nat) => a < l.addr ∨ l.addr + n ≤ a
     let writes := fun (t : State) (v : Nat) =>
       (w.item.spm = false → isDram l.addr = true → t.spm = s.spm ∧
         (∀ a, outside a → ¬ trackedAt s l.addr n a → readByte t.mem a = readByte s.mem a) ∧
         (∀ i, i < n → ¬ trackedAt s l.addr n (l.addr + i) →
           readByte t.mem (l.addr + i) = BitVec.ofNat 8 (v / 256 ^ i))) ∧
       (w.item.spm = true → t.mem = s.mem ∧
         (∀ a, outside a → readByte t.spm a = readByte s.spm a) ∧
         (∀ i, i < n → readByte t.spm (l.addr + i) = BitVec.ofNat 8 (v / 256 ^ i)))
     (w.item.kind = .st → ∃ t, exec (.storeAck c id lane) s = .next t ∧ writes t l.b) ∧
     (w.item.kind = .atom ∨ w.item.kind = .red →
       ((if w.item.spm then struckSpm s l.addr n = true else isDram l.addr = true ∧ poisoned s l.addr n = true) → w.ctx < 48 →
         w.item.kind = .atom → ∃ t, exec (.atomicPerform c id lane) s = .next t ∧ t.mem = s.mem ∧ t.spm = s.spm ∧
           ∀ d ∈ (getGroup t c w.ctx).loads, d.id = id → ∀ m ∈ d.lanes, m.lane = lane → m.bad = true) ∧
       ((if w.item.spm then struckSpm s l.addr n = false else isDram l.addr = true ∧ poisoned s l.addr n = false) →
       let old := if w.item.spm then readLE s.spm l.addr n else readLE s.mem l.addr n
       ∃ t, exec (.atomicPerform c id lane) s = .next t ∧
         writes t (atomNew w.item.aop (8 * n) old (l.b % 256 ^ n) (l.c % 256 ^ n)) ∧
         (w.item.kind = .atom → ∀ d ∈ (getGroup t c w.ctx).loads, d.id = id → ∀ m ∈ d.lanes, m.lane = lane →
           m.val = some old))))) ∧
  (∀ (w old b c : Nat), w = 32 ∨ w = 64 → old < 2 ^ w → b < 2 ^ w → c < 2 ^ w →
     let new := fun (op : Nat) => atomNew op w old b c
     let signed := fun (v : Nat) => (BitVec.ofNat w v).toInt
     new 0 = (old + b) % 2 ^ w ∧
     ((new 1 = old ∨ new 1 = b) ∧ signed (new 1) ≤ signed old ∧ signed (new 1) ≤ signed b) ∧
     ((new 2 = old ∨ new 2 = b) ∧ signed old ≤ signed (new 2) ∧ signed b ≤ signed (new 2)) ∧
     ((new 3 = old ∨ new 3 = b) ∧ new 3 ≤ old ∧ new 3 ≤ b) ∧ ((new 4 = old ∨ new 4 = b) ∧ old ≤ new 4 ∧ b ≤ new 4) ∧
     (∀ i, (new 5).testBit i = (old.testBit i && b.testBit i) ∧ (new 6).testBit i = (old.testBit i || b.testBit i) ∧
       (new 7).testBit i = (old.testBit i ^^ b.testBit i)) ∧
     new 8 = b ∧ (old = b → new 9 = c) ∧ (old ≠ b → new 9 = old) ∧
     (b ≤ old → new 10 = 0) ∧ (old < b → new 10 = old + 1) ∧
     (old = 0 ∨ b < old → new 11 = b) ∧ (old ≠ 0 → old ≤ b → new 11 = old - 1) ∧
     (w = 32 → new 12 = (finish fF32 .rne (addVal .rne (fdecode fF32 old) (fdecode fF32 b))).1)) ∧
  ((∀ (s : State) (c x id : Nat) (lanes : Mask) (r : LoadRec), let k := getCore s c
     (∀ p ∈ k.prefs, p.id ≠ id) → (k.group x).loads.find? (fun d => d.id == id) = some r →
     r.kind = .ld ∨ r.kind = .lds →
     (∃ t, exec (.loadReturn c x id lanes) s = .next t ∧ t.mem = s.mem ∧ t.spm = s.spm) ∧
     ((∀ q ∈ (k.group x).loads, q.id = id → q = r) → r.lanes.Pairwise (fun a b => ¬ (a.lane = b.lane ∧ a.half = b.half)) →
      (∀ l ∈ r.lanes, l.lane < 64 ∧ l.addr % 64 + r.piece ≤ 64 ∧ (r.kind = .lds ∨ isDram l.addr = true)) →
      (∀ l ∈ r.lanes, l.val ≠ none ∨ (lanes.getLsbD l.lane = true ∧ laneReady k x r l = true ∧
        ∀ m ∈ r.lanes, m.lane = l.lane → m.half ≠ l.half → m.val ≠ none)) →
      (∀ y ∈ r.member, y < 48) →
        ∃ (t : State) (v : LdLane → Nat × Bool), exec (.loadReturn c x id lanes) s = .next t ∧
          (∀ q ∈ (getGroup t c x).loads, q.id ≠ id) ∧
          (∀ l ∈ r.lanes,
            let home := (readLE s.mem l.addr r.piece, poisoned s l.addr r.piece)
            let bank := (readLE s.spm l.addr r.piece, struckSpm s l.addr r.piece)
            (∀ u, l.val = some u → v l = (u, l.bad)) ∧
            (l.val = none → r.kind = .lds → v l = bank) ∧
            (l.val = none → r.kind = .ld → l1Sector k (l.addr / 64) = none → v l = home) ∧
            (l.val = none → r.kind = .ld → ∀ d, l1Sector k (l.addr / 64) = some d →
              v l = home ∨ v l = (d / 256 ^ (l.addr % 64) % 256 ^ r.piece, l1Struck k l.addr r.piece))) ∧
          (∀ p, (k.group x).pend = [p] → p.id = id → p.skip = [] → r.f.d ≠ 1023 → ∀ l ∈ r.lanes, l.half = false →
            let total := (v l).1 + 2 ^ 64 * (((r.lanes.find? (fun m => m.lane == l.lane && m.half)).map (fun m => (v m).1)).getD 0)
            let struck := ∃ m ∈ r.lanes, m.lane = l.lane ∧ (v m).2 = true
            let ws := loadWords r.kind r.f r.size total
            (¬ struck → ∀ j, j < ws.length → regAt (getGroup t c x) (r.f.d.toNat + j) l.lane =
              keptValue s c x (r.f.d.toNat + j) l.lane (ws.getD j 0)) ∧
            (struck → ∀ j, regAt (getGroup t c x) j l.lane = regAt (k.group x) j l.lane)) ∧
          ((∃ l ∈ r.lanes, l.half = false ∧ ∃ m ∈ r.lanes, m.lane = l.lane ∧ (v m).2 = true) →
            ∃ req ∈ (getCore t c).raised, req.cls = 9 ∧ req.pc = r.pc ∧ req.origin = x ∧ (∀ y ∈ r.member, y ∈ req.slots) ∧
              ∃ l ∈ r.lanes, req.info = BitVec.ofNat 32 (l.lane * 16 + 1) ∧ req.addr = l.va ∧
                ∃ m ∈ r.lanes, m.lane = l.lane ∧ (v m).2 = true))) ∧
   (∀ (s : State) (c : Nat) (r : LoadRec) (l : LdLane),
     let read := (readAccess s c r l).2.2
     (r.kind = .lds → read = (readLE s.spm l.addr r.piece, struckSpm s l.addr r.piece)) ∧
     (r.kind = .ld → isDram l.addr = true →
       (∀ d, l1Sector (getCore s c) (l.addr / 64) = some d →
         read = (d / 256 ^ (l.addr % 64) % 256 ^ r.piece, l1Struck (getCore s c) l.addr r.piece)) ∧
       (l1Sector (getCore s c) (l.addr / 64) = none →
         read = (readLE s.mem l.addr r.piece, poisoned s l.addr r.piece)))) ∧
   (∀ (kind : LKind) (f : Fields) (size v : Nat), kind = .ld ∨ kind = .lds →
     (f.sub = 0 ∨ f.sub = 2 ∨ f.sub = 4 → loadWords kind f (sizeOf155 f.sub.toNat) v = [BitVec.ofNat 32 v]) ∧
     (f.sub = 1 → loadWords kind f size v = [(BitVec.ofNat 8 v).signExtend 32]) ∧
     (f.sub = 3 → loadWords kind f size v = [(BitVec.ofNat 16 v).signExtend 32]) ∧
     (f.sub = 5 → loadWords kind f (sizeOf155 f.sub.toNat) v = [BitVec.ofNat 32 v, BitVec.ofNat 32 (v / 2 ^ 32)]) ∧
     (f.sub = 6 → loadWords kind f (sizeOf155 f.sub.toNat) v =
       [BitVec.ofNat 32 v, BitVec.ofNat 32 (v / 2 ^ 32), BitVec.ofNat 32 (v / 2 ^ 64), BitVec.ofNat 32 (v / 2 ^ 96)])) ∧
   (∀ (s : State) (d id : Nat) (w : Walk), (mget [] s.walks d).find? (fun w => w.id == id) = some w → w.done = none →
     ∃ t, exec (.pageWalk d id) s = .next t ∧ t.mem = s.mem ∧
       ∃ w' ∈ mget [] t.walks d, w'.id = id ∧ w'.page = w.page ∧ w'.tenant = w.tenant ∧
         w'.done = some (walk s w.tenant (BitVec.ofNat 64 (w.page * 65536)))))

/-! ### Matrix instructions -/

/-- MATRIX_GRANT takes the request that goes first out of the table and starts its instructions. MATRIX_COMPLETE, once all
passes of an operation have been granted, writes every member's results, sets its matrix flags and completes its handle, and
the operation is over; where an uncorrectable error has struck what the engine read, the word has its error bit and XM is raised
at every member (R178, R182, R184, R186, R190; the lane and address that XM reports are the model's open values, log 23); a
register that another pending matrix instruction uses is left undefined (R183). It waits while a store that the members' OPRDY
has handed over has not reached its tile (R181; log 88).
An element of integer products without hold is the exact sum of the outer value and the products, and raises nothing,
wherever the magnitudes of the products sum to less than 2^17 and with the outer value to less than 2^31 (R50, R52, R178). -/
def Obligations.matrix_progress : Prop :=
  ((∀ (s : State) (cl : Nat) (r : MxReq), (∀ o ∈ s.mxOps, o.withdrawn = false) →
     bestRequest (now s (cl * 4)) (s.mxReqs.filter (fun q => q.cluster == cl)) = some r →
       ∃ t, exec (.matrixGrant cl) s = .next t ∧ t.mxReqs = s.mxReqs.erase r ∧ t.cores = s.cores ∧ t.mem = s.mem ∧
         t.spm = s.spm ∧ (∀ o ∈ t.mxOps, (∃ p ∈ r.parts, p.1 = o.id) → o.started = true)) ∧
   (∀ (s : State) (o : MxOp) (pre post : List MxMember) (m : MxMember),
     s.mxOps.find? (fun p => p.id == o.id) = some o → o.started = true → o.withdrawn = false →
     (∀ r ∈ s.mxReqs, ∀ p ∈ r.parts, p.1 ≠ o.id) → o.members = pre ++ m :: post →
     (∀ n ∈ pre ++ post, (n.core, n.ctx) ≠ (m.core, m.ctx)) → (getGroup s m.core m.ctx).wd ≤ 3 →
     (∀ n ∈ o.members, n.ctx ≠ 48) →
       let bad := o.members.any (mxStruck s o)
       let others := { s with mxOps := s.mxOps.filter (fun p => p.id != o.id) }
       let alone := fun (r : Nat) => (mxRunsOf others m.core m.ctx).any (inRun r) = false
       (o.members.any (tilesDue s o) = true → exec (.matrixComplete o.id) s = .next s) ∧
       (o.members.any (tilesDue s o) = false →
       ∃ t, exec (.matrixComplete o.id) s = .next t ∧
         (bad = true → ∀ n ns, o.members = n :: ns → ∃ r ∈ (getCore t n.core).raised, r.cls = 9 ∧ r.pc = o.pc ∧
           r.slots = withVacant (getCore s n.core) n.ctx o.f.scope (o.members.map (·.ctx))) ∧ (∀ p ∈ t.mxOps, p.id ≠ o.id) ∧
         t.mem = s.mem ∧ t.spm = s.spm ∧
         (let g := getGroup s m.core m.ctx
          let h := getGroup t m.core m.ctx
          let out := mxMemberOut s o m
          h.mx = g.mx ||| out.2 ∧ h.handles = g.handles.filter (fun d => d.op != o.id) ∧
          (∀ d ∈ g.handles, d.op = o.id → d.reg ≠ 1023 → alone d.reg → (∀ e ∈ g.handles, e.op = o.id → e = d) → ∀ l, l < g.width →
            regAt h d.reg l = if bad then 0xC3000000 else BitVec.ofNat 32 (0x83000000 + m.octets.length % 2 ^ 24)) ∧
          ∀ c ∈ out.1, (∀ d ∈ out.1, d.2.1 < 64 ∧ (d.1 = c.1 → d.2.1 = c.2.1 → d = c)) → alone c.1 →
            (∀ d ∈ g.handles, d.op = o.id → d.reg ≠ c.1) → regAt h c.1 c.2.1 = c.2.2)))) ∧
  (∀ (l p : Nat) (as bs : List Int) (outer : Nat) (h : Word), 0 < l → l ≤ 512 → 0 < p → as.length = bs.length →
     let prods := (as.zip bs).map (fun q => q.1 * q.2)
     let mags := (prods.map Int.natAbs).foldl (· + ·) 0
     let o := (BitVec.ofNat 32 outer).toInt
     mags < 2 ^ 17 → o.natAbs + mags < 2 ^ 31 → outer < 2 ^ 32 →
       (elemInt l p false false as bs outer h).outer = (BitVec.ofInt 32 (prods.foldl (· + ·) o)).toNat ∧
       (elemInt l p false false as bs outer h).flags = 0)

/-- MMA, MMAS and MMAT issue: with D pending already they raise HX; where no octet takes part D is written at once with
count 0; a tile that fails its checks traps with kind 5, its address and its octet's first lane; else, where the members have
room for a handle and the table for the requests, the operation stands in the engine with its octets, tiles and requests, D is
a pending handle of every member, no memory or scratchpad has changed, and no register, unless a pending matrix instruction of
the group uses some of the same (R175, R176, R182, R183, R186, R193; that the tiles are checked before the tables and vectors is
the model's choice, log 78).
OPRDY, ACTLD, XVSET, XVSET.rd and MXSTAT complete: OPRDY once its members' results and scratchpad writes are done hands
over what was written, whichever lanes execute; ACTLD reads a table or bias image of its cluster out of the scratchpad, or
traps with kind 5; XVSET writes one extra value of
the group that gives the operand, and XVSET.rd reads it; MXSTAT reads the flags and with `.clr` clears them (R180, R181,
R188 to R190). -/
def Obligations.matrix_instructions : Prop :=
  (∀ (f : Fields) (q : Issue),
     let k := getCore q.s1 q.core
     let xs := issueSlots (q.members f)
     let cl := q.core / 4
     let stages := stagesOk q.s1 cl (tenantOf q.s1 q.core (xs.headD 0)) f.imm
     let idle := ∀ m ∈ q.members f, octetsOf (k.group m.slot) m.exec = []
     let made := fun (op : Nat) (tiles : List (TileRef × Nat)) =>
       mxOpOf q.s1 q.core op f q.e.pc (fun x => (k.group x).xv) (q.members f) tiles
     let issued := fun (op : Nat) (ts : List TileRef) (r : Host.Outcome State Fault Refusal) =>
       (∀ y, pendingSlot k f.d.toNat xs = some y → r = .next (q.trapped f false
         { cls := 8, info := f.d.setWidth 32, pc := q.e.pc, slots := suspends (q.members f), origin := y } q.s1)) ∧
       (pendingSlot k f.d.toNat xs = none →
         (idle → stages = true → r = .next (q.onward f (xs.foldl (fun s x =>
           writeAllLanes s q.core x f.d.toNat 0x83000000) q.s1))) ∧
         (¬ idle → (∀ x ∈ xs, (k.group x).handles.length < 16 ∧ inFlight31 q.s1 q.core x = true) →
           (∀ t cls, checkTiles q.s1 q.core ts = .error (t, cls) → ∃ req s1, r = .next (q.trapped f true req s1) ∧
             req.cls = cls ∧ req.info = BitVec.ofNat 32 (8 * t.octet * 16 + 5) ∧ req.addr = t.sa.setWidth 64 ∧
             req.slots = suspends (q.members f) ∧ req.origin = t.slot ∧ s1.mxOps = q.s1.mxOps) ∧
           (∀ tiles, checkTiles q.s1 q.core ts = .ok tiles → stages = true →
             tableRoom (enterRequests q.s1 (made op tiles) q.s1.mxReqs) cl = true →
               ∃ t o, r = .next (q.onward f t) ∧ o ∈ t.mxOps ∧ o.id = q.s1.serial ∧ o.op = op ∧ o.f = f ∧ o.cluster = cl ∧
                 o.started = false ∧ o.members = (made op tiles).members ∧
                 t.mxReqs = enterRequests q.s1 o q.s1.mxReqs ∧ t.mem = q.s1.mem ∧ t.spm = q.s1.spm ∧
                 (∀ x, (∀ r ∈ mxRunsOf q.s1 q.core x, ∀ b ∈ mxRuns op f, runsMeet b.1 b.2 r.2.1 r.2.2.1 = false) →
                   keepsValues (now q.s1 q.core) (k.group x) (getGroup t q.core x)) ∧
                 (∀ x ∈ xs, keepsPlace { k.group x with handles := (getGroup t q.core x).handles } (getGroup t q.core x)) ∧
                 (∀ x, x ∉ xs → getGroup t q.core x = k.group x) ∧
                 (∀ x ∈ xs, f.d ≠ 1023 → ⟨f.d.toNat, o.id⟩ ∈ (getGroup t q.core x).handles))))
     let refs := (q.members f).flatMap (fun m => (octetsOf (k.group m.slot) m.exec).map (fun n =>
       (⟨m.slot, n, (operandsOf q.s1 q.core f m.slot (8 * n)).b⟩ : TileRef)))
     (Ready 0x2C0 f q → issued 0x2C0 [] (exec (.mma f) q.s)) ∧
     (Ready 0x2C1 f q → issued 0x2C1 refs (exec (.mmas f) q.s)) ∧
     (Ready 0x2C2 f q → issued 0x2C2 refs (exec (.mmat f) q.s))) ∧
  (∀ (f : Fields) (q : Issue),
     let xs := issueSlots (q.members f)
     let k := getCore q.s1 q.core
     let cl := q.core / 4
     let sub := f.sub.toNat
     ((∀ x ∈ xs, oprdyReady q.s1 q.core x = true) → Ready 0x2C3 f q →
       ∃ t, exec (.oprdy f) q.s = .next (q.onward f t) ∧ onlyCore q.core q.s1 t ∧
         (∀ x, x ∉ xs → getGroup t q.core x = k.group x) ∧
         ∀ x ∈ xs, ∃ n, q.s1.serial ≤ n ∧ n < t.serial ∧
           getGroup t q.core x = { k.group x with dirty := [], handed := ownSeen q.core x n (k.group x) }) ∧
     (∀ x l, q.scalar f x l →
       (Ready 0x2C4 f q →
         let sa := (operandsOf q.s1 q.core f x l).a + f.imm
         let t := tenantOf q.s1 q.core x
         let bytes := if sub < 4 then 1044 else 256
         (∀ it ∈ (k.group x).storeq, it.spm = false) → (∀ w ∈ k.flight, w.ctx = x → w.item.spm = false) →
         namedByPending q.s1 cl sub = false →
           let traps := fun (cls : Nat) => ∃ req s1, exec (.actld f) q.s = .next (q.trapped f true req s1) ∧ req.cls = cls ∧
             req.info = 5 ∧ req.addr = sa.setWidth 64 ∧ req.slots = suspends (q.members f) ∧ s1.tables = q.s1.tables ∧ s1.biases = q.s1.biases
           (∀ key, checkSpan q.s1 q.core t 16 bytes sa = .ok key → tableTag q.s1 cl (sub % 4) = t →
             struckSpm q.s1 key bytes = false →
             let ws := bytesToWords (readBytes q.s1.spm key bytes)
             exec (.actld f) q.s = .next (q.onward f (if sub < 4 then { q.s1 with tables := mset [] q.s1.tables (cl * 4 + sub) ws }
               else { q.s1 with biases := mset [] q.s1.biases (cl * 4 + (sub - 4)) ws }))) ∧
           (∀ cls, checkSpan q.s1 q.core t 16 bytes sa = .error cls → traps cls) ∧
           (∀ key, checkSpan q.s1 q.core t 16 bytes sa = .ok key → tableTag q.s1 cl (sub % 4) ≠ t → traps 6) ∧
           (∀ key, checkSpan q.s1 q.core t 16 bytes sa = .ok key → tableTag q.s1 cl (sub % 4) = t →
             struckSpm q.s1 key bytes = true → traps 9)) ∧
       (Ready 0x2C5 f q → exec (.xvset f) q.s = .next (q.onward f (updGroup q.s1 q.core x (fun g =>
         { g with xv := g.xv.set sub ((operandsOf q.s1 q.core f x l).a.setWidth 16) }))))) ∧
     (Ready 0x2C5 f q → exec (.xvsetRd f) q.s = .next (q.onward f (postResults q.s1 q.core f (q.members f) none 1
       (fun t x _ => [((getGroup t q.core x).xv.getD sub 0).setWidth 32])))) ∧
     (Ready 0x2C6 f q → q.executes f → (∀ x ∈ xs, ∀ h ∈ (k.group x).handles, ∀ o ∈ q.s1.mxOps, o.id ≠ h.op) →
       let read := postResults q.s1 q.core f (q.members f) none 1 (fun t x _ => [(getGroup t q.core x).mx.setWidth 32])
       exec (.mxstat f) q.s = .next (q.onward f (if f.mod = 1 then
         xs.foldl (fun s x => updGroup s q.core x (fun g => { g with mx := 0 })) read else read))))

/-! ### Engines, handles, the dispenser and the fabric -/

/-- CPY, CPYG and CPYS complete for the lowest executing lane's operands: HX where D is pending; a trap of kind 6 with the
class and address of the first check that fails; the completion word at once, with count 0, for no rows; else a copy of
those operands, which waits for the group's earlier writes, and D pending for it, with memory as it was; its die is the core's,
or for CPYG.dst that of the first destination byte, translated as an access of the core (R191 to R197, R261). D = 1023 becomes no
pending handle, which is the model's choice (log 25), as are the checks of a side without rows and the address that a failing
side reports (log 96). -/
def Obligations.copies_start : Prop :=
  (∀ (s : State) (c x kind sub : Nat) (dst : Dword),
    (¬ (kind = 2 ∧ sub = 1) → copyDie s c x kind sub dst = (s, .ok (c / 192, 0))) ∧
    (∀ s1 pa, translate s c x dst 2 = (s1, .pa pa) →
      copyDie s c x 2 1 dst = (useWalks s1 c x 2 [pageOf dst], .ok (homeDie pa, 0)))) ∧
  (∀ (f : Fields) (q : Issue) (x l : Nat), q.scalar f x l →
    let k := getCore q.s1 q.core
    let xs := issueSlots (q.members f)
    let o := operandsOf q.s1 q.core f x l
    let run := fun (i : Nat) => runC q.s1 q.core x f i l
    let started := fun (kind : Nat) (word : Word) (wideA wideB : Bool) (r : Host.Outcome State Fault Refusal) =>
      let a : EngArgs := ⟨if wideA then o.aa else o.a.setWidth 64, if wideB then o.bb else o.b.setWidth 64,
        run 0, run 1, run 2, run 3⟩
      let t := tenantOf q.s1 q.core x
      let sides := checkSides q.s1 q.core t kind (f.imm.getLsbD 3) a
      let traps := fun (cls : Nat) (addr : Dword) => ∃ req s1, r = .next (q.trapped f true req s1) ∧ req.cls = cls ∧
        req.info = 6 ∧ req.addr = addr ∧ req.slots = suspends (q.members f) ∧ s1.mem = q.s1.mem ∧ s1.copies = q.s1.copies
      (isPending (k.group x) f.d.toNat = true → r = .next (q.trapped f false
        { cls := 8, info := f.d.setWidth 32, pc := q.e.pc, slots := [x], origin := x } q.s1)) ∧
      (isPending (k.group x) f.d.toNat = false → (k.group x).handles.length < 16 →
        (∀ cls, checkDesc a = some cls → traps cls a.src) ∧
        (∀ cls addr, checkDesc a = none → sides = .error (cls, addr) → traps cls addr) ∧
        (∀ src dst, checkDesc a = none → sides = .ok (src, dst) →
          (a.d1 = 0 → r = .next (q.onward f (writeAllLanes q.s1 q.core x f.d.toNat word))) ∧
          (a.d1 ≠ 0 → ∀ s2 die cause, copyDie q.s1 q.core x kind f.sub.toNat a.dst = (s2, .ok (die, cause)) →
            ∃ s1 p, r = .next (q.onward f s1) ∧ p ∈ s1.copies ∧ p.kind = kind ∧ p.core = q.core ∧ p.ctx = x ∧
            p.die = die ∧ p.fail0 = cause ∧
            p.tenant = t ∧ p.src = src ∧ p.dst = dst ∧ p.row = a.d0.toNat ∧ p.rows = a.d1.toNat ∧ p.sp = a.d2.toNat ∧
            p.dp = a.d3.toNat ∧ p.waits = groupWrites k x ∧ p.done = none ∧ p.chunks = 0 ∧
            (f.d ≠ 1023 → ⟨f.d.toNat, p.id⟩ ∈ (getGroup s1 q.core x).handles) ∧
            s1.mem = q.s1.mem ∧ s1.spm = q.s1.spm)))
    (Ready 0x280 f q → started f.sub.toNat (if f.sub = 2 then 0x82000000 else 0x81000000) (f.sub == 0) (f.sub != 0)
      (exec (.cpy f) q.s)) ∧
    (Ready 0x281 f q → started 2 0x82000000 true true (exec (.cpyg f) q.s)) ∧
    (Ready 0x282 f q → started 3 0x81000000 false false (exec (.cpys f) q.s)))

/-- HTEST, HMOV, HCANCEL and HWAIT complete: HTEST reads 0 for a pending handle and else the register; HMOV moves the
pendency, or the value, and A reads zero; HCANCEL asks for the cancel of the operation, if there is one; HWAIT goes on once A
is not pending, and waits while it is (R194; that register 1023 is never pending is the model's choice, log 25).
COPY_CHUNK, for a copy whose earlier writes are acknowledged, and which, for a CPYG, an engine of its die has taken: a cancelled
copy stops, one that is suspended before an engine takes it waits, and else one chunk is moved: the destination chunk alone
changes, bits of dirty trackers apart, and reads what the source held (R197 to R200, R343, R344, R399); bytes that are also
source bytes are the model's free values (R195). An idle engine takes a chunk of the tenant that follows the one it served
last (R344). COPY_COMPLETE writes the word; BUDGET_REFILL raises every counter by its budget, to the budget at most. -/
def Obligations.handles_and_copies : Prop :=
  (∀ (f : Fields) (q : Issue),
     let k := getCore q.s1 q.core
     (Ready 0x283 f q → exec (.htest f) q.s = .next (q.onward f (postResults q.s1 q.core f (q.members f) none 1 (fun t x l =>
       [if isPending (k.group x) f.a.toNat then 0 else (operandsOf t q.core f x l).a])))) ∧
     (∀ x l, q.scalar f x l → Ready 0x284 f q →
       let learnt := updGroup q.s1 q.core x (learnDones [(f.a.toNat, 1)])
       (isPending (k.group x) f.d.toNat = true → exec (.hmov f) q.s = .next (q.trapped f false
         { cls := 8, info := f.d.setWidth 32, pc := q.e.pc, slots := [x], origin := x } q.s1)) ∧
       (isPending (k.group x) f.d.toNat = false → isPending (k.group x) f.a.toNat = true → ∃ t,
         exec (.hmov f) q.s = .next (q.onward f (writeAllLanes t q.core x f.a.toNat 0)) ∧
         getGroup t q.core x = { learnDones [(f.a.toNat, 1)] (k.group x) with
           handles := ((k.group x).handles.map (fun h => if h.reg = f.a.toNat then ⟨f.d.toNat, h.op⟩ else h)).filter
             (fun h => h.reg != 1023) } ∧
         onlyCore q.core q.s1 t ∧ ∀ y, y ≠ x → getGroup t q.core y = k.group y) ∧
       (isPending (k.group x) f.d.toNat = false → isPending (k.group x) f.a.toNat = false →
         exec (.hmov f) q.s = .next (q.onward f (writeAllLanes (if f.a = f.d then learnt else
           postResults learnt q.core f (q.members f) none 1 (fun t x l => [(operandsOf t q.core f x l).a])) q.core x f.a.toNat 0)))) ∧
     (∀ x l, q.scalar f x l → Ready 0x285 f q →
       (∀ h, (k.group x).handles.find? (fun h => h.reg == f.a.toNat) = some h →
         exec (.hcancel f) q.s = .next (q.onward f (cancelOp q.s1 h.op))) ∧
       (isPending (k.group x) f.a.toNat = false → exec (.hcancel f) q.s = .next (q.onward f q.s1))) ∧
     (Ready 0x286 f q →
       ((∀ m ∈ q.members f, m.exec ≠ 0 → isPending (k.group m.slot) f.a.toNat = false) →
         exec (.hwait f) q.s = .next (q.onward f q.s1)) ∧
       ((∃ m ∈ q.members f, m.exec ≠ 0 ∧ isPending (k.group m.slot) f.a.toNat = true) →
         exec (.hwait f) q.s = .next (q.waits f q.s1)))) ∧
  ((∀ (s0 : State) (id : Nat) (p : Copy), s0.copies.find? (fun c => c.id == id) = some p → p.done = none →
     (∀ w ∈ p.waits, acknowledged (getCore s0 p.core) w = true) →
     let s := feedEngines s0
     let taken := p.kind ≠ 2 ∨ engineOf s p ≠ none
     (¬ taken → exec (.copyChunk id) s0 = .next s) ∧
     (p.cancel = false → suspended s0 p = true → engineOf s0 p = none → (∀ r ∈ s0.copies, r.id = id → r = p) → exec (.copyChunk id) s0 = .next s) ∧
     (taken → p.cancel = true → exec (.copyChunk id) s0 = .next (endChunk
       (updCopy s id (fun p => { p with done := some (copyWord p false true 0) })) (engineOf s p) p.tenant)) ∧
     (taken → p.cancel = false → p.fail0 ≠ 0 →
       exec (.copyChunk id) s0 = .next (endChunk (copyFail s p p.fail0) (engineOf s p) p.tenant)) ∧
     (taken → p.cancel = false → p.fail0 = 0 →
       ∀ s1 bs s2 a, chunkSource (chargeBudget s p) p (chunkLen p) = (s1, .ok bs) → chunkDest s1 p = (s2, .ok a) →
         let new := blurOverlap s p (p.dst.toNat + p.ri * p.dp + p.off) bs
         let outside := fun (b : Nat) => b < a ∨ a + bs.length ≤ b
         ∃ t, exec (.copyChunk id) s0 = .next t ∧
           (∃ c ∈ t.copies, c.id = id ∧ c.chunks = p.chunks + 1) ∧
           (dstSpm p.kind = true → t.mem = s.mem ∧ (∀ b, outside b → readByte t.spm b = readByte s.spm b) ∧
             ∀ i, i < bs.length → readByte t.spm (a + i) = new.getD i 0) ∧
           (dstSpm p.kind = false → t.spm = s.spm ∧
             (∀ b, outside b → ¬ trackedAt s a bs.length b → readByte t.mem b = readByte s.mem b) ∧
             ∀ i, i < bs.length → ¬ trackedAt s a bs.length (a + i) → readByte t.mem (a + i) = new.getD i 0))) ∧
   (∀ (s : State) (e : Nat) (p : Copy), let g := getEngine s e
     g.busy = none → pickCopy g.last (s.copies.filter (eligible s (e / 8))) = some p →
       getEngine (feedEngine s e) e = { g with busy := some p.id } ∧ eligible s (e / 8) p = true ∧
       ∀ r ∈ s.copies, eligible s (e / 8) r = true → turnOf g.last p.tenant ≤ turnOf g.last r.tenant) ∧
   (∀ (s : State) (id : Nat) (p : Copy) (w : Word), s.copies.find? (fun c => c.id == id) = some p → p.done = some w →
     p.saved = none → exec (.copyComplete id) s = .next (stepFree (completeCopyHandle
       { s with copies := s.copies.filter (fun c => c.id != p.id) } p.core p.ctx p.id w))) ∧
   (∀ (s : State) (d t : Nat), ((getDie s d).refills + 1) * 65536 ≤ (getDie s d).cycle → (∃ x, (t, x) ∈ s.tenants) →
     let b : Int := ((getTenant s t).bud.getD d 0 : Nat)
     ∃ u, exec (.budgetRefill d) s = .next u ∧ budgetOf u d t = min (budgetOf s d t + b) b ∧
       (getDie u d).refills = (getDie s d).refills + 1))

/-- The orders of R308 hand out every coordinate of the index space once: tile numbers below nx ny nz have coordinates inside
the extents, and different numbers different ones; order 0 runs along x, then y, then z.
TFETCH and TRET complete. TFETCH gives the group one tile, or each executing lane one in ascending order: returned ones
first, then the next of the order, marked outstanding to the block, and all ones where none is left; a draining group gets all
ones. TRET gives back the tiles of the executing lanes that are outstanding to the block (R201, R202, R308, R350). -/
def Obligations.dispenser : Prop :=
  (∀ (l : Launch), 0 < l.nx → l.nx ≤ 65536 → 0 < l.ny → l.ny ≤ 65536 → 0 < l.nz →
     (∀ i, i < l.nx * l.ny * l.nz →
       (tileAt l i).1 < l.nx ∧ (tileAt l i).2.1 < l.ny ∧ (tileAt l i).2.2 < l.nz) ∧
     (∀ i j, i < l.nx * l.ny * l.nz → j < l.nx * l.ny * l.nz → tileAt l i = tileAt l j → i = j) ∧
     (l.order = 0 → ∀ x y z, x < l.nx → y < l.ny → tileAt l (x + l.nx * (y + l.ny * z)) = (x, y, z))) ∧
  (∀ (f : Fields) (q : Issue) (m : Member) (la : Launch), q.members f = [m] → m.exec ≠ 0 →
     launchOf q.s1 q.core m.slot = some la →
     let g := getGroup q.s1 q.core m.slot
     let post := fun (s : State) (val : Nat → List Word) =>
       q.onward f (postResults s q.core f (q.members f) none 2 (fun _ _ l => val l))
     let only := fun (s : State) => s = { q.s1 with launches := s.launches } ∧
       ∀ i, i ≠ la.id → findLaunch s i = findLaunch q.s1 i
     (Ready 0x300 f q → g.drained = true → ∃ s lb, exec (.tfetch f) q.s = .next (post s (fun _ => [0xFFFFFFFF, 0xFFFFFFFF])) ∧
       only s ∧ findLaunch s la.id = some lb ∧ lb.outst = la.outst ∧ lb.returned = la.returned ∧ lb.nextTile = la.nextTile) ∧
     (Ready 0x300 f q → g.drained = false → f.scope ≠ .lane → la.outst.length < 65536 →
       (∀ tile la', takeTile la = some (tile, la') → ∃ s, exec (.tfetch f) q.s = .next (post s (fun _ => tileWords tile)) ∧
         only s ∧ ∃ lb, findLaunch s la.id = some lb ∧ lb.outst = la.outst ++ [(tile, q.core, g.block)] ∧
           lb.returned = la'.returned ∧ lb.nextTile = la'.nextTile) ∧
       (takeTile la = none → ∃ s, exec (.tfetch f) q.s = .next (post s (fun _ => [0xFFFFFFFF, 0xFFFFFFFF])) ∧
         only s ∧ ∃ lb, findLaunch s la.id = some lb ∧ lb.outst = la.outst)) ∧
     (Ready 0x300 f q → g.drained = false → f.scope = .lane →
       la.outst.length + min (lanesOf m.exec).length (tilesLeft la) ≤ 65536 →
         ∃ s, exec (.tfetch f) q.s = .next (post s (fun l =>
           (((takeTiles la q.core g.block (lanesOf m.exec)).1.find? (fun p => p.1 == l)).map (·.2)).getD [0xFFFFFFFF, 0xFFFFFFFF])) ∧
         only s ∧ ∃ lb, findLaunch s la.id = some lb ∧ lb.outst = (takeTiles la q.core g.block (lanesOf m.exec)).2.outst) ∧
     (Ready 0x301 f q → exec (.tret f) q.s = .next (q.onward f (updLaunch q.s1 la.id (fun p =>
       ((lanesOf m.exec).map (fun l =>
         let v := (operandsOf q.s1 q.core f m.slot l).aa
         (v.toNat % 65536, v.toNat / 65536 % 65536, v.toNat / 2 ^ 32))).foldl (fun p t =>
           if p.outst.contains (t, q.core, g.block) then
             { p with outst := p.outst.erase (t, q.core, g.block), returned := p.returned ++ [t] } else p) p)))))

/-- LPOST completes: HX where D is pending; a trap of kind 6 where a check fails; the completion word with cause 6 where the
queue pair is not READY; else the request stands in the queue pair's send queue and D is pending for it (R203, R280, R365). The
order of the checks in lpostCheck is the model's reading (log 33), and that D = 1023 becomes no pending handle its choice (log
25). -/
def Obligations.fabric_post : Prop :=
  ∀ (f : Fields) (q : Issue) (x l : Nat), q.scalar f x l → Ready 0x302 f q →
    let g := getGroup q.s1 q.core x
    let o := operandsOf q.s1 q.core f x l
    let run := fun (i : Nat) => runC q.s1 q.core x f i l
    let a : EngArgs := ⟨o.aa, o.bb, run 0, run 1, run 2, run 3⟩
    let t := tenantOf q.s1 q.core x
    let qp := f.imm.toNat
    (isPending g f.d.toNat = true → exec (.lpost f) q.s = .next (q.trapped f false
      { cls := 8, info := f.d.setWidth 32, pc := q.e.pc, slots := [x], origin := x } q.s1)) ∧
    (isPending g f.d.toNat = false →
      (∀ cls addr, lpostCheck q.s1 t f.sub.toNat qp a = some (cls, addr) → ∃ req s1,
        exec (.lpost f) q.s = .next (q.trapped f true req s1) ∧ req.cls = cls ∧ req.info = 6 ∧ req.addr = addr ∧
        s1.hub = q.s1.hub) ∧
      (lpostCheck q.s1 t f.sub.toNat qp a = none → g.handles.length < 16 → (sendQueue q.s1 qp).length < 256 →
        ((getQp q.s1 qp).state ≠ 1 → exec (.lpost f) q.s = .next (q.onward f (writeAllLanes q.s1 q.core x f.d.toNat 0xC4600000))) ∧
        ((getQp q.s1 qp).state = 1 → ∃ s1 p, exec (.lpost f) q.s = .next (q.onward f s1) ∧
          s1.hub.links = q.s1.hub.links ++ [p] ∧ p.qp = qp ∧ p.tenant = t ∧ p.op = f.sub.toNat ∧ p.loc = a.src ∧
          p.rem = a.dst ∧ p.len = (if f.sub.toNat < 2 then a.d0.toNat else 8) ∧ p.opnd = (a.d1 ++ a.d0 : BitVec 64) ∧ p.new = (a.d3 ++ a.d2 : BitVec 64) ∧
          p.sent = false ∧ (f.d ≠ 1023 → ⟨f.d.toNat, p.id⟩ ∈ (getGroup s1 q.core x).handles) ∧
          s1.mem = q.s1.mem ∧ s1.spm = q.s1.spm)))

/-- The initiator's side: LINK_TRANSMIT sends the oldest request of a queue pair not yet sent once the group's earlier writes are
acknowledged, a `.put` with the bytes of its source, or completes it where its source cannot be read, and does nothing else.
LINK_RESPONSE to a request not yet sent does nothing; the answer to a `.put` completes the handle, with the cause and the chunks
acknowledged where it failed, and changes no location; an answer that holds the bytes of a `.get`, `.fadd` or `.cas` stores them
at the local address and completes the handle; a failed `.fadd` or `.cas` stores nothing (R204, R276, R366, R369).
The target's side: LINK_REQUEST_ARRIVE searches the remote ownership table for every request; one that no entry admits answers
cause 5 and changes no location but in the 4 KiB of a valid loss vector, bits of dirty trackers apart; a `.get` that is admitted
changes no location; a `.put` of one chunk writes its bytes, or answers cause 7 where its page does not admit the write; an
admitted `.fadd` or `.cas` changes the eight bytes at its address alone, bits of dirty trackers apart, and answers with the old
value; what still arrives of a request after its queue pair has left READY is performed chunk by chunk without an answer (R332,
R333, R341, R367 to R370, R399). -/
def Obligations.fabric : Prop :=
  (∀ (s : State) (id : Nat), (∀ l ∈ s.hub.links, l.id ≠ id) → exec (.linkTransmit id) s = .next s ∧
     ∀ cause chunks data, exec (.linkResponse id cause chunks data) s = .next s) ∧
  (∀ (s : State) (id : Nat) (p : LinkOp), s.hub.links.find? (fun l => l.id == id) = some p →
     (p.sent = true ∨ ((sendQueue s p.qp).find? (fun l => !l.sent)).map (·.id) ≠ some id ∨
       (∃ w ∈ p.waits, acknowledged (getCore s p.core) w = false) → exec (.linkTransmit id) s = .next s) ∧
     (p.sent = false → ((sendQueue s p.qp).find? (fun l => !l.sent)).map (·.id) = some id →
       (∀ w ∈ p.waits, acknowledged (getCore s p.core) w = true) →
         let sends := fun (s1 : State) (bs : List Byte) => setHub s1 (fun h =>
           { h with links := updFirst (fun l => l.id == id) (fun l => { l with sent := true, data := bs }) h.links })
         (p.op ≠ 0 → exec (.linkTransmit id) s = .next (sends s [])) ∧
         (p.op = 0 → ∀ s1 bs, linkRead s (dieOf p.core) p.tenant p.loc (chunkCuts p.rem.toNat p.len) 0 = (s1, .ok bs) →
           exec (.linkTransmit id) s = .next (sends s1 bs)) ∧
         (p.op = 0 → ∀ s1 cls k, linkRead s (dieOf p.core) p.tenant p.loc (chunkCuts p.rem.toNat p.len) 0 = (s1, .error (cls, k)) →
           exec (.linkTransmit id) s = .next (linkLocalFail s1 p cls k))) ∧
     (p.sent = false → ∀ cause chunks data, exec (.linkResponse id cause chunks data) s = .next s) ∧
     (p.sent = true → p.op = 0 → ∀ cause chunks data, exec (.linkResponse id cause chunks data) s = .next (stepFree
       (completeHandle (setHub s (fun h => { h with links := h.links.filter (fun l => l.id != p.id) })) p.core p.ctx p.id
         (if cause = 0 then completionWord false false 4 0 (linkChunks p)
          else completionWord true false 4 cause (min chunks (linkChunks p)))))) ∧
     (p.sent = true → p.op = 1 → ∀ chunks data, data.length = p.len →
       (linkStore s p data (chunkCuts p.loc.toNat p.len) 0).2 = none →
       (∀ c ∈ chunkCuts p.loc.toNat p.len, c.1 + c.2 ≤ p.len) →
         exec (.linkResponse id 0 chunks data) s = .next (stepFree (finishLink
           (linkStore s p data (chunkCuts p.loc.toNat p.len) 0).1 p (completionWord false false 4 0 (linkChunks p))))) ∧
     (p.sent = true → 1 < p.op → p.len = 8 → ∀ chunks data,
       (data.length = 8 → (linkStore s p data [(0, 8)] 0).2 = none → exec (.linkResponse id 0 chunks data) s = .next (stepFree
         (finishLink (linkStore s p data [(0, 8)] 0).1 p (completionWord false false 4 0 1)))) ∧
       (∀ cause, cause ≠ 0 → exec (.linkResponse id cause chunks data) s = .next (stepFree
         (finishLink s p (completionWord true false 4 cause 0)))))) ∧
  (∀ (s : State) (r : RemoteReq),
     let p := getQp s r.qp
     let n := if r.op < 2 then r.len else 8
     let answer := fun (t : State) (cause chunks : Nat) (data : List Byte) => t.hub.resps = s.hub.resps ++ [⟨r.smod, r.qp, cause, chunks, data⟩]
     (∀ ks, r.cut = some ks →
       (rotFind s r n = none ∨ r.op = 1 ∨ ks = [] → exec (.linkRequestArrive r) s = .next s) ∧
       (∃ t, exec (.linkRequestArrive r) s = .next t ∧ t.hub.resps = s.hub.resps) ∧
       (∀ e, rotFind s r n = some e → r.op = 0 → chunkCuts r.addr.toNat r.len = [(0, r.len)] → 0 ∈ ks → ∀ s1 pa,
         engineTranslate s (tenantDie s e.tt) e.tt (r.addr + BitVec.ofNat 64 0) 2 = (s1, .ok pa) →
           ∃ t, exec (.linkRequestArrive r) s = .next t ∧ wrote s t pa (r.data.take r.len))) ∧
     (r.cut = none → rotFind s r n = none → ∃ t, exec (.linkRequestArrive r) s = .next t ∧ answer t 5 0 [] ∧
       (lvecValid s p.tenant = false → t.mem = s.mem) ∧
       (let v := (getTenant s p.tenant).lvec
        ∀ a, a < v ∨ v + 4096 ≤ a → ¬ trackedAt s v 4096 a → readByte t.mem a = readByte s.mem a)) ∧
     (r.cut = none → ∀ e, rotFind s r n = some e →
       (r.op = 1 → ∃ t cause chunks data, exec (.linkRequestArrive r) s = .next t ∧ t.mem = s.mem ∧ answer t cause chunks data) ∧
       (r.op = 0 → ∃ t cause chunks, exec (.linkRequestArrive r) s = .next t ∧ answer t cause chunks []) ∧
       (r.op = 0 → chunkCuts r.addr.toNat r.len = [(0, r.len)] → ∀ s1 pa,
         engineTranslate s (tenantDie s e.tt) e.tt (r.addr + BitVec.ofNat 64 0) 2 = (s1, .ok pa) →
           ∃ t, exec (.linkRequestArrive r) s = .next t ∧ answer t 0 1 [] ∧ wrote s t pa (r.data.take r.len)) ∧
       (r.op = 0 → chunkCuts r.addr.toNat r.len = [(0, r.len)] → ∀ s1 cls,
         engineTranslate s (tenantDie s e.tt) e.tt (r.addr + BitVec.ofNat 64 0) 2 = (s1, .error cls) →
           ∃ t, exec (.linkRequestArrive r) s = .next t ∧ answer t 7 0 []) ∧
       (1 < r.op → ∀ s1 pa, engineTranslate s (tenantDie s e.tt) e.tt r.addr 3 = (s1, .ok pa) → poisoned s pa 8 = false →
         let old := readLE s.mem pa 8
         let new := if r.op = 2 then (old + r.opnd.toNat) % 2 ^ 64 else if old = r.opnd.toNat then r.new.toNat else old
         ∃ t, exec (.linkRequestArrive r) s = .next t ∧ answer t 0 1 (natToBytes 8 old) ∧
           (∀ a, a < pa ∨ pa + 8 ≤ a → ¬ trackedAt s pa 8 a → readByte t.mem a = readByte s.mem a) ∧
           (∀ i, i < 8 → ¬ trackedAt s pa 8 (pa + i) → readByte t.mem (pa + i) = BitVec.ofNat 8 (new / 256 ^ i)))))

/-- Queue pairs and lanes: a write of READY is taken where its conditions hold and has no effect where they do not; a lost peer
or the last usable port moves READY to ERROR and empties the send queue; a write of 0 leaves state 0 with an empty send queue;
a failed flit is counted; a lane that fails to retrain leaves service (R362 to R364). -/
def Obligations.queue_pairs : Prop :=
  ∀ (s : State) (qp : Nat),
    let p := getQp s qp
    (∀ peer : PeerView,
      let ok := p.v = true ∧ p.state ≠ 2 ∧ 1 ≤ p.tenant ∧ p.tenant ≤ 4094 ∧
        (∀ l, l < 96 → p.lanes.getLsbD l = true → laneTagOf s l = p.tenant) ∧ peer.valid = true ∧
        peer.peerMod = s.mgmt.modid ∧ peer.peerQp = qp ∧ usablePorts s p.lanes peer.lanes ≠ []
      (ok → exec (.qpSetReady qp peer) s = .next (setQp s qp { p with state := 1, peerLanes := peer.lanes })) ∧
      (¬ ok → exec (.qpSetReady qp peer) s = .next s)) ∧
    (∃ t, exec (.qpTeardown qp) s = .next t ∧ (getQp t qp).state = 0 ∧ sendQueue t qp = [] ∧ t.mem = s.mem) ∧
    (∀ down : Bool, p.state = 1 → down = true ∨ usablePorts s p.lanes p.peerLanes = [] →
      ∃ t, exec (.qpError qp down) s = .next t ∧ (getQp t qp).state = 2 ∧ sendQueue t qp = [] ∧ t.mem = s.mem) ∧
    (∀ down : Bool, p.state ≠ 1 → exec (.qpError qp down) s = .next s) ∧
    (∀ lane, ∃ t, exec (.flitTimeout lane) s = .next t ∧ mget 0 t.hub.retries lane = mget 0 s.hub.retries lane + 1 ∧
      t.mem = s.mem ∧ t.cores = s.cores) ∧
    (∀ lane, ∃ t, exec (.laneRetrainFail lane) s = .next t ∧ lane ∈ t.hub.laneDown ∧ t.mem = s.mem)

/-! ### Traps -/

/-- TRAP_TAKE: a raised trap whose groups have stopped for it and drained forms one frame for every sixteen groups, with the
class, information, address and pc, queued for the firmware slot where R279 says so and for the handler slot else. A
FRAME_DELIVER to a free slot with nothing under way starts it at its entry, all lanes live and registers zero, with the frame
current (R279, R281, R282, R289). The firmware slot's context and its entry are the model's choice (log 17), and that a slot
takes a frame once nothing but stores is under way in it the model's reading (log 39). -/
def Obligations.trap_entry : Prop :=
  (∀ (s : State) (c : Nat) (r : Raised), (getCore s c).raised.find? (fun q => q.id == r.id) = some r →
    (getCore s c).regroups = [] → takeReady (getCore s c) r = true → 0 < r.slots.length → r.slots.length ≤ 16 →
    (∀ x, ∀ p ∈ (getGroup s c x).pend, ∀ h, p.held = some h → 48 ∉ h.slots) →
      ∃ t fr, exec (.trapTake c r.id) s = .next t ∧ fr.cls = r.cls ∧ fr.info = r.info ∧ fr.addr = r.addr ∧ fr.pc = r.pc ∧
        fr.parts = 1 ∧ fr.part = 0 ∧ fr.members.map (·.slot) = r.slots ∧ t.mem = s.mem ∧ t.spm = s.spm ∧
        (let fw := r.cls = 6 ∨ r.cls = 9 ∨ (∃ x ∈ r.slots, 48 ≤ x) ∨ (getCore s c).tHandler.getLsbD 0 = false
         (fw → (getCore t c).framesF = (getCore s c).framesF ++ [fr] ∧ (getCore t c).framesH = (getCore s c).framesH) ∧
         (¬ fw → (getCore t c).framesH = (getCore s c).framesH ++ [fr] ∧ (getCore t c).framesF = (getCore s c).framesF))) ∧
  (∀ (s : State) (c : Nat) (fr : Frame) (rest : List Frame),
    ((getCore s c).curF = none → (getCore s c).framesF = fr :: rest → contextIdle (getGroup s c 49) = true →
      ∃ t, exec (.frameDeliver c true) s = .next t ∧ (getCore t c).curF = some fr ∧ (getCore t c).framesF = rest ∧
        (getGroup t c 49).live = true ∧ (getGroup t c 49).regs = [] ∧ (getGroup t c 49).fpflags = 0 ∧
        (getGroup t c 49).running = some Config.firmwareEntry ∧ (getGroup t c 49).liveMask = BitVec.allOnes 64 ∧
        t.hub.jhead = s.hub.jhead + 1) ∧
    ((getCore s c).curH = none → (getCore s c).framesH = fr :: rest → contextIdle (getGroup s c 48) = true →
      ∀ s1 pa, checkGlobal s c 48 32 0 ((getCore s c).tHandler &&& ~~~(0x1F : Dword)) = (s1, .pa pa) →
        ∃ t, exec (.frameDeliver c false) s = .next t ∧ (getCore t c).curH = some fr ∧ (getCore t c).framesH = rest ∧
          (getGroup t c 48).live = true ∧ (getGroup t c 48).regs = [] ∧ (getGroup t c 48).fpflags = 0 ∧
          (getGroup t c 48).running = some ((getCore s c).tHandler &&& ~~~(0x1F : Dword)) ∧
          (getGroup t c 48).liveMask = BitVec.allOnes 64))

/-- ERET returns. With no entry to re-inject, and the last part of its suspension, every member stands where its frame says,
lanes with equal state and pc in one entry of the highest priority, and runs again unless another trap keeps it stopped; the
slot that returns is free. The handler's slot without a frame only ends (R206, R282, R287). -/
def Obligations.trap_return : Prop :=
  ∀ (f : Fields) (q : Issue), Ready 0x341 f q → q.executes f → (∀ m ∈ q.members f, m.slot = q.ctx) →
    (q.ctx = 48 ∨ q.ctx = 49) →
    let k := getCore q.s1 q.core
    (curFrame k q.ctx = none → exec (.eret f) q.s = .next (q.moved f (updGroup q.s1 q.core q.ctx endContext))) ∧
    (∀ fr, curFrame k q.ctx = some fr → fr.part + 1 < fr.parts → ∃ t, exec (.eret f) q.s = .next (q.moved f t) ∧
      curFrame (getCore t q.core) q.ctx = none ∧ (getGroup t q.core q.ctx).live = false) ∧
    (∀ fr m, curFrame k q.ctx = some fr → fr.part = 0 → fr.parts = 1 → fr.members = [m] → m.entries = [] →
      m.slot < 48 → (∀ p ∈ (if q.ctx = 49 then k.partsF else k.partsH), p.id ≠ fr.id) →
        ∃ t, exec (.eret f) q.s = .next (q.moved f t) ∧ curFrame (getCore t q.core) q.ctx = none ∧
          (getGroup t q.core q.ctx).live = false ∧
          (getGroup t q.core m.slot).frontier = lanesToFrontier m.lanes ∧
          ((∀ r ∈ k.raised, m.slot ∉ r.slots) → (getGroup t q.core m.slot).stop = .run) ∧
          (getGroup t q.core m.slot).regs = (k.group m.slot).regs ∧ t.mem = q.s1.mem ∧ t.spm = q.s1.spm)

/-- Raising a trap is step 1 of R281: the groups it suspends stop, with no running entry, and the trap waits with its class,
information, address, pc and groups. A trap of the handler slot itself is a fault in the handler: its context ends, and the
frame it handled goes to the firmware slot with the other parts of its suspension (the reading of log 14). TRAP raises
class 10 with IMM32, its lanes resume at the next instruction, and where no lane executes it only goes on (R205, R279,
R281).
RESULT_WRITEBACK writes the results of an instruction in all its members together, once all of them may be written, and lets
lanes go on that wait for them; one with an enabled exception then raises SW with bit 31 and the
exceptions, for all its groups (R27, R28, R68, R105, R217). -/
def Obligations.traps_raised : Prop :=
  ((∀ (s : State) (c : Nat) (t : TrapReq), 48 ∉ t.slots → ∃ r, (getCore (raiseTrap s c t) c).raised = (getCore s c).raised ++ [r] ∧
     r.cls = t.cls ∧ r.info = t.info ∧ r.addr = t.addr ∧ r.pc = t.pc ∧ r.slots = t.slots ∧ r.origin = t.origin ∧
     (∀ x ∈ t.slots, (getGroup (raiseTrap s c t) c x).running = none ∧
       ((getGroup s c x).stop = .run → (getGroup (raiseTrap s c t) c x).stop = .trap r.id)) ∧
     (∀ x, (getGroup (raiseTrap s c t) c x).frontier = (getGroup s c x).frontier ∧
       (getGroup (raiseTrap s c t) c x).regs = (getGroup s c x).regs) ∧
     (raiseTrap s c t).mem = s.mem) ∧
   (∀ (s : State) (c : Nat) (t : TrapReq), 48 ∈ t.slots →
     let k := getCore (raiseTrap s c t) c
     k.raised = (getCore s c).raised ∧ k.curH = none ∧ (getGroup (raiseTrap s c t) c 48).live = false ∧
     (raiseTrap s c t).mem = s.mem ∧ (∀ x, x ≠ 48 → getGroup (raiseTrap s c t) c x = getGroup s c x) ∧
     ∀ fr, (getCore s c).curH = some fr →
       k.framesF = (getCore s c).framesF ++ fr :: (getCore s c).framesH.filter (fun p => p.id == fr.id) ∧
       k.framesH = (getCore s c).framesH.filter (fun p => p.id != fr.id)) ∧
   (∀ (f : Fields) (q : Issue), Ready 0x340 f q →
     (q.executes f → exec (.trap f) q.s = .next (q.trapped f true
       { cls := 10, info := f.imm, pc := q.e.pc, slots := suspends (q.members f),
         origin := (((q.members f).head?).map (·.slot)).getD 0 } q.s1)) ∧
     (¬ q.executes f → exec (.trap f) q.s = .next (q.onward f q.s1)))) ∧
  (∀ (s : State) (c x : Nat) (p : Pend), (getGroup s c x).pend.find? (fun d => d.id == p.id) = some p →
     let ps := resultsOf (getCore s c) x p
     let landed := ps.foldl (fun s d => updGroup s c d.1 (fun g => landResult g d.2)) s
     (p.share = 0 → ps = [(x, p)]) ∧
     (p.share ≠ 0 → ∀ y, ∀ d ∈ (getGroup s c y).pend, d.share = p.share → (y, d) ∈ ps) ∧
     ((∃ d ∈ ps, writable (now s c) d.2 = false) → exec (.resultWriteback c x p.id) s = .next s) ∧
     ((∀ d ∈ ps, writable (now s c) d.2 = true) →
       ((∀ d ∈ ps, d.2.held = none) → exec (.resultWriteback c x p.id) s = .next landed) ∧
       (∃ t, exec (.resultWriteback c x p.id) s = .next t ∧ ∀ y, (getGroup t c y).regs = (getGroup landed c y).regs ∧
         (getGroup t c y).fpflags = (getGroup landed c y).fpflags) ∧
       (∀ h, ps = [(x, p)] → p.held = some h → ∃ t, exec (.resultWriteback c x p.id) s = .next (raiseTrap t c
         { cls := 10, info := 0x80000000 ||| h.exc.setWidth 32, pc := h.pc, slots := h.slots, origin := x }) ∧
         ∀ y, (getGroup t c y).regs = (if y = x then (landPend (getGroup s c x) p).regs else (getGroup s c y).regs))) ∧
     (∀ g, (landResult g p).regs = (landPend g p).regs ∧ (p.frees = none → landResult g p = landPend g p)) ∧
     (∀ (g : Group) (e : Entry) (next : Dword), g.frontier = [e] → e.park = .hold → e.pc = next → e.mask ≠ 0 →
       (freeHeld next g).frontier = [{ pc := next, mask := e.mask, prio := e.prio, notBefore := e.notBefore }]))

/-- The handler's windows complete. WINRD reads what the current frame's member has: 0 without one, beyond its width or for a
pending handle, a register of the group, a frame register (t.finfo and t.fmember in every lane alike), an extra value; RB
where the register lies beyond the member's allotment. WINWR clears the member's latches and writes a register's lanes, k.fpflags
or an extra value from the lowest executing lane below the member's width (the model's reading, log 38), or the pc, state and
priority of the frame's lanes; RQRD reads a replay word, and RQWR writes a lane's operand word or FATE, but of no matrix
instruction; neither has an effect without a current frame (logs 63 and 72), and both leave everything else as it was (R207,
R208, R283 to R286). -/
def Obligations.windows : Prop :=
  ∀ (f : Fields) (q : Issue), (∀ m ∈ q.members f, m.slot = q.ctx) → q.executes f →
    let k := getCore q.s1 q.core
    let x := q.ctx
    let mem := frameMemberAt k x (winMember f)
    let rb := q.trapped f false { cls := 2, info := BitVec.ofNat 32 (winItem f), pc := q.e.pc, slots := [x], origin := x } q.s1
    let beyond := ∃ m, mem = some m ∧ winSpace f = 0 ∧ (k.group m.slot).allotment ≤ winItem f
    let vs := laneValues q.s1 q.core f (q.members f)
    (Ready 0x342 f q → beyond → exec (.winrd f) q.s = .next rb) ∧
    (Ready 0x343 f q → beyond → exec (.winwr f) q.s = .next rb) ∧
    (Ready 0x342 f q → ¬ beyond → ∃ val : Nat → Word, exec (.winrd f) q.s = .next (q.onward f
        (postResults q.s1 q.core f (q.members f) none 1 (fun _ y l => if y = x then [val l] else [winValue q.s1 q.core y f l]))) ∧
      ∀ l, (mem = none → val l = 0) ∧ ∀ m, mem = some m →
        let g := k.group m.slot
        (g.width ≤ l → winUniform f = false → val l = 0) ∧
        (l < g.width → winSpace f = 0 → isPending g (winItem f) = true → val l = 0) ∧
        (l < g.width → winSpace f = 0 → isPending g (winItem f) = false →
          val l = readCell q.s1 q.core m.slot fldA (winItem f) l) ∧
        (l < g.width → winSpace f = 1 → winItem f = 0x1001 → val l = g.fpflags) ∧
        (winSpace f = 1 → winItem f = 0x2011 → ∀ fr, curFrame k x = some fr → val l = fr.info) ∧
        (winSpace f = 1 → winItem f = 0x2016 → val l = fmemberWord m) ∧
        (l < g.width → winSpace f = 1 → winItem f = 0x2017 → val l = lo32 (m.lanes.getD l {}).pc) ∧
        (l < g.width → winSpace f = 2 → val l = (g.xv.getD (winItem f) 0).setWidth 32)) ∧
    (Ready 0x343 f q → ¬ beyond →
      (mem = none → exec (.winwr f) q.s = .next (q.onward f q.s1)) ∧
      (∀ m, mem = some m →
        let mine := vs.filter (fun v => decide (v.1 < (k.group m.slot).width))
        let cleared := updGroup q.s1 q.core m.slot (fun g => { g with latchA := none, latchB := none })
        let does := fun (t : State) => exec (.winwr f) q.s = .next (q.onward f t)
        (winSpace f = 0 → isPending (k.group m.slot) (winItem f) = true → does cleared) ∧
        (winSpace f = 0 → isPending (k.group m.slot) (winItem f) = false →
          does (writeCells cleared q.core m.slot (mine.map (fun v => (winItem f, v.1, v.2))))) ∧
        (winSpace f = 1 → winItem f = 0x1001 → mine = [] → does cleared) ∧
        (winSpace f = 1 → winItem f = 0x1001 → ∀ v rest, mine = v :: rest →
          does (updGroup cleared q.core m.slot (fun g => { g with fpflags := writeFpflags g.fpflags v.2 }))) ∧
        (winSpace f = 1 → winItem f = 0x2017 ∨ winItem f = 0x2018 ∨ winItem f = 0x2019 →
          does (updCore cleared q.core (fun k => updMember k x (winMember f) (fun m => { m with
            lanes := m.lanes.zipIdx.map (fun e => ((mine.find? (fun v => v.1 == e.2)).map (fun v =>
              writeLane (winItem f) v.2 e.1)).getD e.1) })))) ∧
        (winSpace f = 1 → winItem f ≠ 0x1001 → winItem f ≠ 0x2017 → winItem f ≠ 0x2018 → winItem f ≠ 0x2019 → does cleared) ∧
        (1 < winSpace f → mine = [] → does cleared) ∧
        (1 < winSpace f → ∀ v rest, mine = v :: rest →
          does (updGroup cleared q.core m.slot (fun g => { g with xv := g.xv.set (winItem f) (v.2.setWidth 16) }))))) ∧
    (∀ (v : Word) (e : FLane),
      (e.state = 0 → ∀ item, writeLane item v e = e) ∧
      (e.state ≠ 0 → writeLane 0x2019 v e = { e with prio := v.toNat % 256 } ∧
        (writeLane 0x2017 v e).state = 1 ∧ (writeLane 0x2017 v e).pc = hi32 e.pc ++ v ∧
        (writeLane 0x2018 v e).state = 1 ∧ (writeLane 0x2018 v e).pc = v ++ lo32 e.pc)) ∧
    (Ready 0x344 f q → ∃ val : Nat → Word, exec (.rqrd f) q.s = .next (q.onward f
        (postResults q.s1 q.core f (q.members f) none 1 (fun _ _ l => [val l]))) ∧
      ∀ l, (rqFind q.s1 q.core x f = none → val l = 0) ∧
        ∀ m e, rqFind q.s1 q.core x f = some (m, e) → val l = entryWord e (rqWord f) l) ∧
    (Ready 0x345 f q →
      (rqFind q.s1 q.core x f = none → exec (.rqwr f) q.s = .next (q.onward f q.s1)) ∧
      (∀ m e, rqFind q.s1 q.core x f = some (m, e) → e.kind = 2 → exec (.rqwr f) q.s = .next (q.onward f q.s1)) ∧
      (∀ m e, rqFind q.s1 q.core x f = some (m, e) → e.kind ≠ 2 → rqWord f = 0 → ∀ v rest, vs = v :: rest →
        let fate := (v.2.extractLsb' 26 2).toNat
        (2 ≤ fate → exec (.rqwr f) q.s = .next (q.onward f q.s1)) ∧
        (fate < 2 → ∀ fr, curFrame k x = some fr → exec (.rqwr f) q.s = .next (q.onward f (updCore q.s1 q.core (fun k =>
          updFrames k fr.id (shareFate e.share fate)))))) ∧
      (rqWord f ≠ 0 → rqWord f < 5 ∨ 13 < rqWord f → exec (.rqwr f) q.s = .next (q.onward f q.s1)) ∧
      (∀ m e, rqFind q.s1 q.core x f = some (m, e) → e.kind ≠ 2 → 5 ≤ rqWord f → rqWord f ≤ 13 →
        exec (.rqwr f) q.s = .next (q.onward f (updCore q.s1 q.core (fun k => updMember k x (winMember f) (fun m' =>
          { m' with entries := m'.entries.modify (rqEntry f) (writeWord (rqWord f)
              (vs.filter (fun v => decide (v.1 < (k.group m.slot).width)))) })))))) 

/-! ### Control registers, translation entries and runtime control -/

/-- CSRRD and CSRWR complete: k.fpflags, k.gstat, k.kernarg, t.handler, t.notice, t.xlat and f.tenant read as R26, R29 to R32
and R209 say, k.fpflags once no floating-point result of a member is in flight; k.fpflags clears the flags written 1 and takes its
trap bits, t.handler ignores bits 4 to 1, f.tenant clears t.handler, the activation table and the bias vector for a new binding;
a write of t.notice with EN or of t.xlat is held for its unit (R24, R26 to R32, R188, R210).
A held CSRWR of t.notice takes the group as the tenant's notice group once its page translates for write, or traps there;
one of t.xlat invalidates every translation entry of the tenant first (R31, R328, R335). That a CSRWR of these two is held, and
its entry with it, until the unit's event is the model's reading (log 77); so is that a core bound to a tenant counts as seized
from it no more (log 64). -/
def Obligations.control_registers : Prop :=
  (∀ (f : Fields) (q : Issue), q.executes f →
     let s1 := landMembers q.s1 q.core (q.members f)
     let code := f.imm.toNat
     (Ready 0x346 f q → (code = 0x1001 → fpOpen s1 q.core (q.members f) = false) →
       exec (.csrrd f) q.s = .next (q.onward f (postResults s1 q.core f (q.members f) none (if csrWide code then 2 else 1)
         (fun t x _ => pairWords (csrValue t q.core x code))))) ∧
     (∀ (s : State) (c x : Nat), csrValue s c x 0x1001 = (getGroup s c x).fpflags.setWidth 64 ∧
       csrValue s c x 0x1002 = (gstatOf (getGroup s c x)).setWidth 64 ∧
       (x < 48 → ∀ b, blockOf (getCore s c) (getGroup s c x).block = some b → csrValue s c x 0x1003 = b.karg) ∧
       csrValue s c x 0x2001 = (getCore s c).tHandler ∧ csrValue s c x 0x2002 = (getGroup s c x).notice ∧
       csrValue s c x 0x2003 = (getTenant s (tenantOf s c x)).xlat ∧
       csrValue s c x 0x3001 = (getCore s c).fTenant.setWidth 64) ∧
     (∀ x l, q.scalar f x l → Ready 0x347 f q →
       let o := operandsOf q.s1 q.core f x l
       let v := if csrWide code then o.aa else o.a.setWidth 64
       let held := fun (w : Dword) => exec (.csrwr f) q.s = .next (q.parked f false .hold
         (updCore q.s1 q.core (fun k => { k with csrPend := k.csrPend ++ [⟨x, code, w, q.e.pc, f.scope⟩] })))
       (code = 0x1001 → fpOpen s1 q.core (q.members f) = false → ∃ t, exec (.csrwr f) q.s = .next (q.onward f t) ∧
         let old := (getGroup s1 q.core x).fpflags
         let new := (getGroup t q.core x).fpflags
         ∀ i, i < 32 → new.getLsbD i = (if i < 5 then old.getLsbD i && !v.getLsbD i else if 8 ≤ i ∧ i < 13 then v.getLsbD i else false)) ∧
       (code = 0x2001 → exec (.csrwr f) q.s = .next (q.onward f (updCore q.s1 q.core (fun k =>
         { k with tHandler := v &&& ~~~(0x1E : Dword) })))) ∧
       (code = 0x2002 → v.getLsbD 0 = true → held (v &&& ~~~(0xFFE : Dword))) ∧
       (code = 0x2002 → v.getLsbD 0 = false → ∃ t, exec (.csrwr f) q.s = .next (q.onward f t) ∧
         (getGroup t q.core x).notice = v &&& ~~~(0xFFE : Dword)) ∧
       (code = 0x2003 → held (v &&& 0x800000FFFFFFFFFF)) ∧
       (code = 0x3001 → v.toNat % 4096 ≠ 4095 → ∃ t, exec (.csrwr f) q.s = .next (q.onward f t) ∧
         (getCore t q.core).fTenant = (v.setWidth 32) &&& 0x80000FFF ∧
         let k := getCore q.s1 q.core
         let anew := v.getLsbD 31 = true ∧ (k.bound = false ∨ v.toNat % 4096 ≠ k.fTenant.toNat % 4096)
         (anew → (getCore t q.core).tHandler = 0 ∧ mget [] t.tables q.core = [] ∧ mget [] t.biases q.core = [] ∧
           q.core ∉ seizedOf t (v.toNat % 4096) 0) ∧
         (¬ anew → (getCore t q.core).tHandler = k.tHandler ∧ t.tables = q.s1.tables ∧ t.biases = q.s1.biases)))) ∧
  ((∀ (s s1 : State) (c x pa : Nat) (p : CsrPend), findCsr (getCore s c) x 0x2002 = some p →
     checkGlobal s c x 1 2 (p.value &&& ~~~(0xFFF : Dword)) = (s1, .pa pa) →
       ∃ t, exec (.tNoticeWrite c x) s = .next t ∧ (getGroup t c x).notice = p.value ∧
         (getTenant t (tenantOf s c x)).noticeGroup = some (c, x) ∧
         (getTenant t (tenantOf s c x)).noticePa = some (pa / 4096 * 4096) ∧
         (getCore t c).csrPend = (getCore s c).csrPend.erase p ∧ t.mem = s.mem ∧ t.spm = s.spm ∧
         ∀ d y, (d, y) ≠ (c, x) → (getCore s d).tid = tenantOf s c x → (getGroup t d y).notice.getLsbD 0 = false) ∧
   (∀ (s s1 : State) (c x cls : Nat) (p : CsrPend), findCsr (getCore s c) x 0x2002 = some p →
     checkGlobal s c x 1 2 (p.value &&& ~~~(0xFFF : Dword)) = (s1, .fault cls) →
       ∃ t, exec (.tNoticeWrite c x) s = .next (raiseTrap t c
         { cls := cls, info := 2, addr := p.value &&& ~~~(0xFFF : Dword), pc := p.pc, slots := [x], origin := x }) ∧
         (getCore t c).csrPend = (getCore s c).csrPend.erase p ∧ (getGroup t c x).notice = (getGroup s c x).notice ∧
         (getGroup t c x).regs = (getGroup s c x).regs ∧ t.mem = s.mem) ∧
   (∀ (s : State) (c x : Nat) (p : CsrPend), findCsr (getCore s c) x 0x2003 = some p →
     ∃ t, exec (.tXlatWrite c x) s = .next t ∧ (getTenant t (tenantOf s c x)).xlat = p.value ∧
       (∀ d i, d < 4 → i < 32768 → chunkTagOf s d (i / 64) = tenantOf s c x → (mget {} t.xlat (d * 32768 + i)).v = false) ∧
       (getCore t c).csrPend = (getCore s c).csrPend.erase p ∧ t.mem = s.mem))

/-- IFENCE, XBLD, XBINV and XBRD complete. IFENCE empties the core's fetch buffer once its members' loads have returned; XBLD
writes an entry in a chunk of the tenant's, which replaces every entry of the tenant for that page on the die, and faults on a
bad address, an index or a frame of another tenant; XBINV clears V of a page's entries or of all, on one die or on all; XBRD
reads an entry word or address, or finds a page's index (R211 to R214). -/
def Obligations.translation_entries : Prop :=
  ∀ (f : Fields) (q : Issue), q.executes f →
    let k := getCore q.s1 q.core
    (Ready 0x348 f q → (∀ m ∈ q.members f, (k.group m.slot).loads = []) →
      exec (.ifence f) q.s = .next (q.onward f (updCore q.s1 q.core (fun k => { k with ibuf := [], ibad := [] })))) ∧
    (∀ x l, q.scalar f x l →
      let o := operandsOf q.s1 q.core f x l
      let t := tenantOf q.s1 q.core x
      let die := if f.sub = 0 then q.core / 192 else f.sub.toNat - 1
      let traps := fun (r : Host.Outcome State Fault Refusal) (cls : Nat) (addr : Dword) => r = .next (q.trapped f false
        { cls := cls, info := 8, addr := addr, pc := q.e.pc, slots := suspends (q.members f), origin := x } q.s1)
      let frame := (o.bb.extractLsb' 16 36).toNat
      let e : XEntry := { v := o.bb.getLsbD 0, page := pageOf o.aa, frame := frame, x := o.bb.getLsbD 3, w := o.bb.getLsbD 2,
                          r := o.bb.getLsbD 1, tag := frameTagOf q.s1 frame }
      let idx := o.c.toNat
      (Ready 0x349 f q →
        (signExtended o.aa = false → traps (exec (.xbld f) q.s) 5 o.aa) ∧
        (signExtended o.aa = true → indexOwned q.s1 t die idx = false → traps (exec (.xbld f) q.s) 6 (o.c.setWidth 64)) ∧
        (signExtended o.aa = true → indexOwned q.s1 t die idx = true → e.v = true → frameTagOf q.s1 e.frame ≠ t →
          traps (exec (.xbld f) q.s) 6 o.aa) ∧
        (signExtended o.aa = true → indexOwned q.s1 t die idx = true → (e.v = true → frameTagOf q.s1 e.frame = t) →
          ∃ u, exec (.xbld f) q.s = .next (q.onward f u) ∧ u.mem = q.s1.mem ∧ mget {} u.xlat (die * 32768 + idx) = e ∧
            ∀ i, i < 32768 → i ≠ idx → let old := mget {} q.s1.xlat (die * 32768 + i)
              mget {} u.xlat (die * 32768 + i) =
                (if old.page = e.page ∧ chunkTagOf q.s1 die (i / 64) = t then { old with v := false } else old))) ∧
      (Ready 0x34A f q → exec (.xbinv f) q.s = .next (q.onward f (xlatInval q.s1 t
        (if f.sub = 0 ∨ f.sub = 2 then some (pageOf o.aa) else none) (if f.sub.toNat < 2 then [q.core / 192] else [0, 1, 2, 3])))) ∧
      (Ready 0x34B f q →
        let here := q.core / 192
        let ent := mget {} q.s1.xlat (here * 32768 + o.a.toNat)
        (f.sub = 2 → exec (.xbrd f) q.s = .next (q.onward f (postResults q.s1 q.core f (q.members f) none 1 (fun _ _ _ =>
          [match xlatFind q.s1 t here (pageOf o.aa) with | some p => BitVec.ofNat 32 (p.1 % 32768) | none => 0xFFFFFFFF])))) ∧
        (f.sub ≠ 2 → indexOwned q.s1 t here o.a.toNat = false → traps (exec (.xbrd f) q.s) 6 (o.a.setWidth 64)) ∧
        (f.sub ≠ 2 → indexOwned q.s1 t here o.a.toNat = true →
          exec (.xbrd f) q.s = .next (q.onward f (postResults q.s1 q.core f (q.members f) none 2 (fun _ _ _ =>
            pairWords (if f.sub = 0 then wordOfEntry ent else vaOfEntry ent)))))))

/-- CEDE, FWCALL, GSTOP and NWAIT complete: CEDE sends its request and its status is a result in flight; FWCALL answers the
firmware's version, the tiles left, or the launch's journal index, and its group waits for that result; GSTOP stops a live group
of a core that is bound to the tenant with BK and bit 31, and raises OV for another core; NWAIT returns the number on the notice
page where it is newer than the last one, or all ones without EN, and waits where it is not; a poisoned page raises XM. Where no
lane executes, each of them only goes on (R191, R215 to R218). Which of two numbers is newer, and that the page is read at its
home, is the model's reading (log 37); the KIND of GSTOP's OV is a free value (log 35). -/
def Obligations.runtime_control : Prop :=
  ∀ (f : Fields) (q : Issue),
    (∀ x l, q.scalar f x l → Ready 0x34C f q → ∃ t p, exec (.cede f) q.s = .next (q.onward f t) ∧
      t.cedes = q.s1.cedes ++ [p] ∧ p.core = q.core ∧ p.ctx = x ∧ p.tenant = tenantOf q.s1 q.core x ∧ p.kind = f.sub.toNat ∧
      p.res = (operandsOf q.s1 q.core f x l).aa.toNat ∧ p.id = q.s1.serial ∧
      t = { q.s1 with serial := t.serial, cedes := t.cedes, cores := t.cores, mxOps := t.mxOps, wrote := t.wrote } ∧
      (∀ d, d ≠ q.core → getCore t d = getCore q.s1 d) ∧ (∀ y, y ≠ x → getGroup t q.core y = getGroup q.s1 q.core y) ∧
      (f.d = 1023 → getGroup t q.core x = getGroup q.s1 q.core x) ∧
      (let h := getGroup t q.core x
       f.d ≠ 1023 → h = { landDue (now q.s1 q.core) (getGroup q.s1 q.core x) with pend := h.pend, dirty := h.dirty }) ∧
      (f.d ≠ 1023 → ∃ d ∈ (getGroup t q.core x).pend, d.id = p.id ∧ d.ready = false ∧ d.regs = [f.d.toNat])) ∧
    (Ready 0x34D f q → ∃ val : Nat → Word,
      let sent := postResults q.s1 q.core f (q.members f) none 1 (fun _ x _ => [val x])
      (¬ q.executes f ∨ f.d = 1023 → exec (.fwcall f) q.s = .next (q.onward f sent)) ∧
      (q.executes f → f.d ≠ 1023 → exec (.fwcall f) q.s = .next (q.parked f true .hold
        ((q.members f).foldl (fun t m => updGroup t q.core m.slot (freesAt (nextPc q.e.pc f) q.s1.serial)) sent))) ∧
      ∀ x, (f.imm = 0 → val x = if q.s1.mgmt.act then q.s1.mgmt.fwB else q.s1.mgmt.fwA) ∧
        ∀ la, launchOf q.s1 q.core x = some la →
          (f.imm = 1 → val x = BitVec.ofNat 32 (tilesLeft la)) ∧ (f.imm = 2 → val x = la.jseq)) ∧
    (∀ x l, q.scalar f x l → Ready 0x34E f q →
      let a := (operandsOf q.s1 q.core f x l).a.toNat
      let tc := a / 256
      let y := a % 256
      let theirs := 768 ≤ tc ∨ (getCore q.s1 tc).bound = false ∨ (getCore q.s1 tc).tid ≠ tenantOf q.s1 q.core x
      (theirs → ∃ req t, exec (.gstop f) q.s = .next (q.trapped f true req t) ∧ req.cls = 6 ∧
        req.slots = suspends (q.members f)) ∧
      (¬ theirs → (getGroup q.s1 tc y).live = true → (getGroup q.s1 tc y).stop = .run → y < 48 → (tc, y) ≠ (q.core, x) →
        ∀ pc, boundaryPc (getGroup q.s1 tc y) = some pc →
          exec (.gstop f) q.s = .next (q.onward f (raiseTrap q.s1 tc
            { cls := 11, info := 0x80000000, pc := pc, slots := [y], origin := y }))) ∧
      (¬ theirs → (getGroup q.s1 tc y).live = true → (getGroup q.s1 tc y).stop = .run → y < 48 → (tc, y) = (q.core, x) →
        exec (.gstop f) q.s = .next (q.onward f (raiseTrap q.s1 tc
          { cls := 11, info := 0x80000000, pc := q.e.pc + BitVec.ofNat 64 (lenBytes f.len), slots := [y], origin := y }))) ∧
      (¬ theirs → (getGroup q.s1 tc y).live = false ∨ (getGroup q.s1 tc y).stop ≠ .run ∨ 48 ≤ y →
        exec (.gstop f) q.s = .next (q.onward f q.s1))) ∧
    (¬ q.executes f → (Ready 0x34C f q → exec (.cede f) q.s = .next (q.onward f q.s1)) ∧
      (Ready 0x34E f q → exec (.gstop f) q.s = .next (q.onward f q.s1)) ∧
      (Ready 0x34F f q → exec (.nwait f) q.s = .next (q.onward f q.s1))) ∧
    (∀ x l, q.scalar f x l → Ready 0x34F f q →
      let g := getGroup q.s1 q.core x
      let n := noticeSeq q.s1 (tenantOf q.s1 q.core x)
      let last := g.lastNotice.toNat
      let newer := n ≠ 0 ∧ (last = 0 ∨ (n ≠ last ∧ (n + 0xFFFFFFFE - last) % 0xFFFFFFFE < 0x7FFFFFFF))
      let reports := fun (v : Word) => postResults q.s1 q.core f (q.members f) none 1 (fun _ _ _ => [v])
      let poison := ∃ pa, g.notice.getLsbD 0 = true ∧ (getTenant q.s1 (tenantOf q.s1 q.core x)).noticePa = some pa ∧
        poisoned q.s1 pa 4 = true
      (poison → exec (.nwait f) q.s = .next (q.trapped f false (struckReq q.s1 x l q.e.pc (suspends (q.members f))) q.s1)) ∧
      (g.notice.getLsbD 0 = false → exec (.nwait f) q.s = .next (q.onward f (reports 0xFFFFFFFF))) ∧
      (∀ t, noticeSeq q.s1 t = (match (getTenant q.s1 t).noticePa with | none => 0 | some pa => readLE q.s1.mem pa 4)) ∧
      (g.notice.getLsbD 0 = true → ¬ poison → newer → n ≠ 0xFFFFFFFF → exec (.nwait f) q.s = .next (q.onward f
        (updGroup (reports (BitVec.ofNat 32 n)) q.core x (fun g => { g with lastNotice := BitVec.ofNat 32 n })))) ∧
      (g.notice.getLsbD 0 = true → ¬ poison → ¬ newer → exec (.nwait f) q.s = .next (q.waits f q.s1)))

/-! ### Queues and launches -/

/-- DOORBELL, LAUNCH_WRITE, QUEUE_ENABLE, QUEUE_DISABLE, QUEUE_STOPPED and QUEUE_RESET change one queue slot. A doorbell moves W
by 1 to 2^31 - 1 and else does nothing; an inline packet is held and rings for the next position of its slot and lap; enabling
runs a configured queue and puts another into QERR.CFG at R; a disabled queue stops once nothing is claimed; a reset sets R and
W to its position, leaves the error states and publishes it, or gives QERR.RING (R298, R299, R301, R305). -/
def Obligations.queue_control : Prop :=
  ∀ (s : State) (q : Nat) (v : Word) (bytes : List Byte),
    let x := getQueue s q
    let becomes := fun (r : Host.Outcome State Fault Refusal) (y : QSlot) => ∃ t, r = .next t ∧
      t = { s with queues := t.queues } ∧ getQueue t q = y ∧ ∀ p, p ≠ q → getQueue t p = getQueue s p
    let fails := fun (r : Host.Outcome State Fault Refusal) (y : QSlot) => ∃ t, r = .next t ∧ getQueue t q = y ∧
      t.hub.jhead = s.hub.jhead + 1 ∧ t.mem = s.mem ∧ ∀ p, p ≠ q → getQueue t p = getQueue s p
    let rung := fun (y : QSlot) (n : Word) => if 1 ≤ (n - x.w).toNat ∧ (n - x.w).toNat < 2 ^ 31 then { y with w := n } else y
    let configured := 4 ≤ x.logs ∧ x.logs ≤ 12 ∧ x.logn ≤ 8 ∧ x.owner ≠ 0 ∧ inTenantFrame s x.owner x.rbase.toNat = true ∧
      inTenantFrame s x.owner x.ridxa.toNat = true
    let again := { x with inline := none, r := v, w := v, restart := v, low := v, settled := [], pubbed := [], claimed := [],
                          blocked := [], pubs := [], lost := false, state := if x.state < 2 then x.state else 0 }
    let stops := fun (y : QSlot) (p : Word) => if y.claimed.any (fun c => c.1 == p) then
      { y with claimed := y.claimed.filter (fun c => c.1 != p), blocked := y.blocked ++ [p] } else y
    let told := fun (y : QSlot) => published s.hostSeen x.w y
    (∀ y, told y = { y with pubs := (told y).pubs } ∧ (y.w = x.w → told y = y)) ∧
    becomes (exec (.doorbell q v) s) (told (rung x v)) ∧
    (2 ^ x.logs ≤ pktSlot bytes → becomes (exec (.launchWrite q bytes) s) { x with inline := some bytes }) ∧
    (x.logs ≤ 12 → pktSlot bytes < 2 ^ x.logs → ∃ p : Word, p.toNat % 2 ^ x.logs = pktSlot bytes ∧
      p.toNat / 2 ^ x.logs % 65536 = pktSeq bytes ∧ (p - x.r).toNat < 65536 * 2 ^ x.logs ∧
      becomes (exec (.launchWrite q bytes) s) (told (rung { x with inline := some bytes } (p + 1)))) ∧
    (x.state ≠ 0 → becomes (exec (.queueEnable q) s) { x with en := true }) ∧
    (x.state = 0 → configured → becomes (exec (.queueEnable q) s) { x with en := true, state := 1 }) ∧
    (x.state = 0 → ¬ configured → fails (exec (.queueEnable q) s)
      { stops { x with en := true } x.r with state := 4, errpos := x.r }) ∧
    becomes (exec (.queueDisable q) s) { x with en := false } ∧
    (x.state = 1 → x.en = false → x.claimed = [] → becomes (exec (.queueStopped q) s) { x with state := 0 }) ∧
    (x.state ≠ 1 ∨ x.en = true ∨ x.claimed ≠ [] → exec (.queueStopped q) s = .next s) ∧
    (inTenantFrame s x.owner (x.ridxa.toNat / 8 * 8) = true → ∃ t, exec (.queueReset q v) s = .next t ∧
      getQueue t q = again ∧ wrote s t (x.ridxa.toNat / 8 * 8) (natToBytes 8 v.toNat)) ∧
    (inTenantFrame s x.owner (x.ridxa.toNat / 8 * 8) = false →
      fails (exec (.queueReset q v) s) { again with state := 3, errpos := v })

/-- PACKET_CLAIM gives the next position of a running queue to one agent, with the inline packet that is the position's or the
64 bytes of its ring slot, and QERR.RING where they cannot be read; PACKET_SLOT_REREAD reads the slot again. PACKET_CHECK
accepts a packet of the position's lap, waits for one of the lap before, and puts the queue into QERR.OVERRUN for any other. A
queue in an error state stays in it, and a position at which it met an error is never settled: an accepted launch or barrier
stands in the order of launches with the packet's fields, a failed one is journaled with its code, of which 1, 3 and 4 stand
in their order, and the position is settled and, with PUB or at a multiple of N, published (R298, R301 to R306, R391, R392).
DETAIL 0 in the accepted entry of a NOP or a barrier is the model's choice (log 43), when a slot is read again its reading (log
42), and that a queue configured anew while enabled claims nothing its choice (log 99). -/
def Obligations.packets : Prop :=
  ∀ (s : State) (q : Nat),
    let x := getQueue s q
    let at' := fun (pos : Word) => x.rbase.toNat / 4096 * 4096 + 64 * (pos.toNat % 2 ^ x.logs)
    let readable := fun (pos : Word) => inTenantFrame s x.owner (at' pos) = true ∧ poisoned s (at' pos) 64 = false
    let mine := fun (pos : Word) (b : List Byte) => pktSlot b = pos.toNat % 2 ^ x.logs ∧ pktSeq b = pos.toNat / 2 ^ x.logs % 65536
    let becomes := fun (r : Host.Outcome State Fault Refusal) (y : QSlot) => ∃ t, r = .next t ∧
      t = { s with queues := t.queues } ∧ getQueue t q = y ∧ ∀ p, p ≠ q → getQueue t p = getQueue s p
    let errs := fun (r : Host.Outcome State Fault Refusal) (code : Nat) (pos : Word) => ∃ t, r = .next t ∧
      (x.state < 2 → (getQueue t q).state = code ∧ (getQueue t q).errpos = pos) ∧
      (2 ≤ x.state → (getQueue t q).state = x.state ∧ (getQueue t q).errpos = x.errpos) ∧
      (∀ c ∈ (getQueue t q).claimed, c.1 ≠ pos) ∧ pos ∈ (getQueue t q).blocked ∧ t.launches = s.launches ∧ t.mem = s.mem
    let runs := x.state = 1 ∧ x.en = true ∧ x.r ≠ x.w ∧ x.lost = false ∧ (5, q) ∉ s.fenced ∧ functionRuns s x.owner = true
    let claims := fun (b : List Byte) (held : Option (List Byte)) =>
      { x with r := x.r + 1, inline := held, claimed := x.claimed ++ [(x.r, some b)] }
    (¬ runs → exec (.packetClaim q) s = .next s) ∧
    (runs → ∀ b, x.inline = some b → mine x.r b → becomes (exec (.packetClaim q) s) (claims b none)) ∧
    (runs → (∀ b, x.inline = some b → ¬ mine x.r b) →
      (readable x.r → becomes (exec (.packetClaim q) s) (claims (readBytes s.mem (at' x.r) 64) x.inline)) ∧
      (¬ readable x.r → errs (exec (.packetClaim q) s) 3 x.r)) ∧
    (∀ pre post pos, x.claimed = pre ++ (pos, none) :: post → (∀ c ∈ pre, c.1 ≠ pos) →
      (readable pos → becomes (exec (.packetSlotReread q pos) s)
        { x with claimed := pre ++ (pos, some (readBytes s.mem (at' pos) 64)) :: post }) ∧
      (¬ readable pos → errs (exec (.packetSlotReread q pos) s) 3 pos)) ∧
    (∀ pre post pos p, x.claimed = pre ++ (pos, some p) :: post → (∀ c ∈ pre, c.1 ≠ pos) →
      let r := exec (.packetCheck q pos) s
      (pktSlot p = pos.toNat % 2 ^ x.logs → (pktSeq p + 1) % 65536 = pos.toNat / 2 ^ x.logs % 65536 →
        becomes r { x with claimed := pre ++ (pos, none) :: post }) ∧
      (¬ mine pos p → ¬ (pktSlot p = pos.toNat % 2 ^ x.logs ∧ (pktSeq p + 1) % 65536 = pos.toNat / 2 ^ x.logs % 65536) →
        errs r 2 pos) ∧
      (mine pos p →
        let code := if pktKind p = 1 then launchCode s x.owner p else if pktKind p = 0 ∨ pktKind p = 2 then 0 else 2
        let entry := fun (t : State) (n : Word) (type : Nat) (detail : Word) => mget [] t.hub.journal (n.toNat % 65536) =
          withCrc (journalBody n type q x.owner pos code (hubCount s 3) detail)
        ∃ t, r = .next t ∧ (∀ c ∈ (getQueue t q).claimed, c.1 ≠ pos) ∧
          (code ≠ 0 → t.launches = s.launches ∧ entry t s.hub.jhead 4 0) ∧
          (pktKind p = 0 → t.launches = s.launches ∧ entry t s.hub.jhead 1 0 ∧ entry t (s.hub.jhead + 1) 3 0) ∧
          (code = 0 → pktKind p ≠ 0 → entry t s.hub.jhead 1 (if pktKind p = 1 then BitVec.ofNat 32 (pf p 64 32) else 0) ∧
            ∃ pre' la post', s.launches = pre' ++ post' ∧ t.launches = pre' ++ la :: post' ∧
              la.id = s.serial ∧ la.qslot = q ∧ la.pos = pos ∧ la.tenant = x.owner ∧ la.barrier = (pktKind p == 2) ∧
              (let later := fun (m : Launch) => m.qslot = q ∧ m.tenant = x.owner ∧ posBefore pos m.pos = true
               (∀ m ∈ pre', ¬ later m) ∧ (∀ m ∈ post'.head?, later m)) ∧
              (pktKind p = 1 → la.cores = (List.range (pktCcount p)).map (pktCbase p + ·) ∧ la.waitCores = la.cores ∧
                la.roles = rolesOf p ∧ la.bank0 = pktBank0 p ∧ la.nspm = pktNspm p ∧ la.karg = pktKarg p ∧
                la.gang = pktGang p ∧ la.jseq = s.hub.jhead)) ∧
          (pktPub p = true ∨ (pos + 1).toNat % 2 ^ x.logn = 0 → x.low = pos → x.settled = [] → x.pubbed = [] →
            inTenantFrame s x.owner (x.ridxa.toNat / 8 * 8) = true →
              (getQueue t q).low = pos + 1 ∧ wrote s t (x.ridxa.toNat / 8 * 8) (natToBytes 8 (pos + 1).toNat)))) ∧
    (∀ p, (pktTenant p ≠ x.owner → launchCode s x.owner p = 1) ∧
      (pktTenant p = x.owner →
        (pktCcount p = 0 ∨ 768 < pktCbase p + pktCcount p ∨ (∃ c ∈ coreSet p, (getCore s c).bound = false ∨
          (getCore s c).tid ≠ x.owner) → launchCode s x.owner p = 3) ∧
        (pktCcount p ≠ 0 → pktCbase p + pktCcount p ≤ 768 → (∀ c ∈ coreSet p, (getCore s c).bound = true ∧
          (getCore s c).tid = x.owner) → pktGang p = true → (pktCbase p % 4 ≠ 0 ∨ pktCcount p % 4 ≠ 0) →
          launchCode s x.owner p = 4)))

/-- BLOCK_PLACE starts a block on a core that has room, or a gang's blocks on a whole cluster or on none: each group starts at
its role's entry address with all its threads, on a register allotment of its role's. SLOT_RELEASE frees a group that has
ended and that no REGROUP in progress counts as a target (the worked case of R145; log 13), and with its last group a block
ends; LAUNCH_COMPLETE journals a launch that has ended, or a barrier that nothing precedes, unless the journal has an entry for
its end. FIRMWARE_END_LAUNCH ends every group of a launch that stands in the firmware slot, or whose tenant an XM has struck (the
model's reading, log 47). GANG_MIGRATE puts a block's groups on another core with their registers where that helps the gang that
waits for the cluster, and holds the block until it has drained: one block at a time, held first and released where it does not
help, is the model's reading (log 46). BLOCK_RESUME puts a saved block on a core as its context gives it, and a gang's blocks on
the cores of one cluster, each at its index there, once none of the gang is live there still; a context in which an error stands
is reported and not restored (log 101) (R139, R240, R245, R260, R279, R302, R307, R309, R310, R356, R392, R394, R397). -/
def Obligations.blocks : Prop :=
  (∀ (s : State) (id c : Nat) (la : Launch), findLaunch s id = some la →
    let placed := fun (t : State) (c : Nat) =>
      (∃ b, b < 4 ∧ blockOf (getCore s c) b = none ∧
        blockOf (getCore t c) b = some ⟨id, la.karg, la.bank0, la.banks, la.nspm⟩ ∧
        ∀ (i x role : Nat) (r : RoleSpec), (freeSlots (getCore s c))[i]? = some x → (groupPlan la.roles)[i]? = some (role, r) →
          let g := getGroup t c x
          g.live = true ∧ g.block = b ∧ g.role = role ∧ g.wd = r.wd ∧ g.allot = r.sizes ∧ g.tlevel = r.tl ∧ g.regs = [] ∧
          g.frontier = [{ pc := la.base + BitVec.ofNat 64 r.entry, mask := laneMask (8 * 2 ^ r.wd) }]) ∧
      (getCore t c).nspm = la.nspm
    let ready := fun (c : Nat) => fitsLaunch s la c = true
    (la.gang = false → ready c → ∃ t, exec (.blockPlace id c) s = .next t ∧ placed t c ∧ t.mem = s.mem ∧
      ∀ d, d ≠ c → getCore t d = getCore s d) ∧
    (la.gang = true → (∀ d, d / 4 = c / 4 → ready d) → ∃ t, exec (.blockPlace id c) s = .next t ∧ t.mem = s.mem ∧
      (∀ d, d / 4 = c / 4 → placed t d) ∧ ∀ d, d / 4 ≠ c / 4 → getCore t d = getCore s d) ∧
    (la.gang = true → (∃ d, d / 4 = c / 4 ∧ ¬ ready d) → exec (.blockPlace id c) s = .next s) ∧
    (la.gang = false → ¬ ready c → exec (.blockPlace id c) s = .next s)) ∧
  (∀ (s : State) (c x : Nat),
    let g := getGroup s c x
    let ended := g.live = true ∧ g.frontier = [] ∧ g.homes = 0 ∧ g.handles = [] ∧ g.storeq = [] ∧ regroupTarget (getCore s c) x = false
    (¬ ended → exec (.slotRelease c x) s = .next s) ∧
    (ended → ∃ t, exec (.slotRelease c x) s = .next t ∧ ((∀ w ∈ (getCore s c).growq, w.ctx ≠ x) → getGroup t c x = {}) ∧
      t.mem = s.mem ∧ t.spm = s.spm ∧
      (∀ y, y ≠ x → (∀ w ∈ (getCore s c).growq, w.ctx ≠ y) → getGroup t c y = getGroup s c y) ∧ (∀ d, d ≠ c → getCore t d = getCore s d) ∧
      ((∀ y ∈ slotsOf (getCore s c), y ≠ x → (getGroup s c y).block ≠ g.block) → blockOf (getCore t c) g.block = none))) ∧
  (∀ (s : State) (id : Nat) (la : Launch), findLaunch s id = some la →
    let ends := fun (type code : Nat) => (la.inJournal = true → exec (.launchComplete id) s =
        .next { s with launches := s.launches.filter (fun l => l.id != id) }) ∧
      (la.inJournal = false → ∃ t, exec (.launchComplete id) s = .next t ∧ findLaunch t id = none ∧
      mget [] t.hub.journal (s.hub.jhead.toNat % 65536) =
        withCrc (journalBody s.hub.jhead type la.qslot la.tenant la.pos code (hubCount s 3) 0) ∧ t.mem = s.mem)
    let open' := if (getQueue s la.qslot).owner = la.tenant then
      (getQueue s la.qslot).claimed.map (·.1) ++ (getQueue s la.qslot).blocked else []
    let free := earlierOf s la = [] ∧ ∀ p ∈ open', posBefore p la.pos = false
    let ended := la.waitCores = [] ∧ blocksOf s id = [] ∧ (∀ v ∈ s.saved, v.launch ≠ id) ∧ launchQuiet s la = true
    (la.barrier = true → (free → ends 3 0) ∧ (¬ free → exec (.launchComplete id) s = .next s)) ∧
    (la.barrier = false → (ended → la.endedBy = 0 → ends 3 0) ∧ (ended → la.endedBy ≠ 0 → ends 4 la.endedBy) ∧
      (¬ ended → exec (.launchComplete id) s = .next s)) ∧
    let struck := inFirmware s id = true ∨ la.tenant ∈ s.hub.struck
    (¬ struck → exec (.firmwareEndLaunch id) s = .next s) ∧
    (struck → ∃ t lb, exec (.firmwareEndLaunch id) s = .next t ∧ findLaunch t id = some lb ∧
      lb.endedBy = 11 ∧ lb.waitCores = [] ∧ t.mem = s.mem ∧
      ∀ p ∈ blocksOf s id, ∀ x ∈ blockSlots (getCore s p.1) p.2,
        (getGroup t p.1 x).frontier = [] ∧ (getGroup t p.1 x).homes = 0)) ∧
  (∀ (s : State) (c b d : Nat) (blk : Block) (la : Launch), blockOf (getCore s c) b = some blk →
    findLaunch s blk.launch = some la →
    let may := la.gang = false ∧ heldElse s c = false
    let u := holdBlock s c b
    (¬ may → exec (.gangMigrate c b d) s = .next s) ∧
    (may → moveHelps s c b d = false → exec (.gangMigrate c b d) s = .next (releaseCore s c)) ∧
    (moveHelps s c b d = true → d ≠ c ∧ ∃ lw, waitingGang s (c / 4) (getCore s c).tid = some lw ∧ lw.gang = true ∧
      gangFits s lw (c / 4) = false) ∧
    (may → moveHelps s c b d = true → blockDone u c b = false → exec (.gangMigrate c b d) s = .next u) ∧
    (may → moveHelps s c b d = true → blockDone u c b = true → ∀ v, mkSaved u c b u.serial 0 = some v →
      (hasPlace u v d = false → exec (.gangMigrate c b d) s = .next u) ∧
      (hasPlace u v d = true → ∃ t, exec (.gangMigrate c b d) s = .next t ∧
        blockOf (getCore t c) b = none ∧ blockOf (getCore t d) b = some blk ∧ t.mem = s.mem ∧
        ∀ x, x < 48 → (getGroup s c x).live = true → (getGroup s c x).block = b → (getGroup t d x).live = true ∧
          (getGroup t d x).regs = (savedGroup s c x).regs))) ∧
  (∀ (s : State) (id c : Nat) (v : Saved) (la : Launch), s.saved.find? (fun v => v.id == id) = some v →
    findLaunch s v.launch = some la →
    let whole := ∀ q ∈ gangOf s v, contextStruck s q = false
    (¬ whole → exec (.blockResume id c) s = .next (reportPoison s v.addr v.core 0)) ∧
    (whole → la.gang = false → mayResume s v c = false → exec (.blockResume id c) s = .next s) ∧
    (whole → la.gang = false → mayResume s v c = true → (v.groups.map (·.1)).Nodup → (∀ q ∈ v.groups, q.1 < 48) → ∃ t,
      exec (.blockResume id c) s = .next t ∧ blockOf (getCore t c) v.index = some v.block ∧ t.mem = s.mem ∧
      (∀ w ∈ t.saved, w.id ≠ id) ∧ ∀ q ∈ (if v.inMemory then readContext s.mem v else v).groups,
        (getGroup t c q.1).regs = q.2.regs ∧ (getGroup t c q.1).frontier = q.2.frontier ∧
        (getGroup t c q.1).allot = q.2.allot) ∧
    (whole → la.gang = true → (v.core % 4 ≠ c % 4 ∨ mateLive s v = true ∨ ∃ q ∈ gangOf s v, mayResume s q (gangCore v q c) = false) →
      exec (.blockResume id c) s = .next s) ∧
    (whole → la.gang = true → v.core % 4 = c % 4 → mateLive s v = false → (∀ q ∈ gangOf s v, mayResume s q (gangCore v q c) = true) →
      ((gangOf s v).map (·.id)).Nodup → ((gangOf s v).map (·.core)).Nodup → ∃ t, exec (.blockResume id c) s = .next t ∧
        t.mem = s.mem ∧ ∀ q ∈ gangOf s v, blockOf (getCore t (c / 4 * 4 + q.core % 4)) q.index = some q.block))

/-! ### Revocation -/

/-- NOTICE_POST first closes a notice whose deadline has come, and is refused while one of the kind is open, for too few
candidates, for one not of the tenant or barred, for tag 4095 and without a loss vector; else the notice has the next number and
stands, with its record and NSEQ, on the notice page. NOTICE_DEADLINE closes a due notice, and the first candidates not ceded are
the skidder's. A CEDE that arrives closes a due notice of its kind first and has the status of R215 once and for all; with 0 and 2
the tenant's accesses to the resource raise OV from then on, and it passes on, scrubbed, with the notice's tag or with tag 0, once
every access to it is over; with 1 they raise OV too. SKIDDER_SEIZE fences the next resource and, once it is quiet, binds it with
the notice's tag, the landing cursor past a frame that fits (R215, R250, R327, R333 to R338). What an access to a fenced resource
meets, and that a cede is judged once and answered later, are the model's readings (logs 44 and 45). -/
def Obligations.revocation : Prop :=
  (∀ (s : State) (t kind count d : Nat) (cs : List Nat) (tag : Nat),
    let s0 := closeDue s t kind
    let q := getTenant s0 t
    let refused := (∃ n, openNotice s0 t kind = some n) ∨ cs.length < count ∨ tag = 4095 ∨ lvecValid s0 t = false ∨
      ∃ r ∈ cs, tagOf s0 kind r ≠ some t ∨ barred s0 t kind r = true
    let n : Notice := ⟨kind, if q.nseq = 0xFFFFFFFE then 1 else q.nseq + 1, count, hubCount s0 4, d, cs, tag, [], false, 0⟩
    (refused → exec (.noticePost t kind count d cs tag) s = .next s0) ∧
    (¬ refused → ∃ u, exec (.noticePost t kind count d cs tag) s = .next u ∧ (getTenant u t).nseq = n.seq ∧
      (getTenant u t).notices = q.notices ++ [n] ∧ seizedOf u t kind = [] ∧ (q.noticeGroup = none → u.mem = s0.mem) ∧
      ∀ x pa, q.noticeGroup = some x → q.noticePa = some pa →
        let rec' := noticeBytes n
        let at' := pa + 0x80 + 128 * (n.seq % 31)
        (∀ i, i < 4 → ¬ trackedAt s0 pa 4 (pa + i) → readByte u.mem (pa + i) = (natToBytes 4 n.seq).getD i 0) ∧
        ∀ i, i < rec'.length → ¬ trackedAt s0 pa 4 (at' + i) → ¬ trackedAt s0 at' rec'.length (at' + i) →
          readByte u.mem (at' + i) = rec'.getD i 0)) ∧
  (∀ (s : State) (t kind : Nat),
    ((∀ n, openNotice s t kind = some n → hubCount s 4 < n.t0 + n.d) → exec (.noticeDeadline t kind) s = .next s) ∧
    (∀ pre n post, (getTenant s t).notices = pre ++ n :: post → (∀ m ∈ pre, m.seq ≠ n.seq ∧ ¬ (m.kind = kind ∧ m.closed = false)) →
      n.kind = kind → n.closed = false → n.t0 + n.d ≤ hubCount s 4 → ∃ u, exec (.noticeDeadline t kind) s = .next u ∧
        (getTenant u t).notices = pre ++ { n with closed := true } :: post ∧ u = { s with tenants := u.tenants } ∧
        (∀ x, x ≠ t → getTenant u x = getTenant s x) ∧
        seizedOf u t kind = (n.cands.filter (fun r => !n.ceded.contains r)).take (n.count - n.ceded.length)) ∧
    exec (.noticeDeadline t kind) s = .next (closeDue s t kind)) ∧
  (∀ (s : State) (id : Nat) (q : CedeOp), s.cedes.find? (fun q => q.id == id) = some q → q.kind ≤ 5 →
    let s0 := closeDue s q.tenant q.kind
    let seized := q.res ∈ seizedOf s0 q.tenant q.kind
    let held := heldBy s0 q.tenant q.kind q.res = true
    let hot := busy s0 q.tenant q.kind q.res = true
    let r := exec (.cedeArrival id) s
    let left := s.cedes.filter (fun p => p.id != id)
    let reports := fun (u t : State) (v : Nat) => ∀ p ∈ (getGroup u q.core q.ctx).pend, p.id = id →
      ∃ p' ∈ (getGroup t q.core q.ctx).pend, p'.id = id ∧ p'.ready = true ∧ p'.regs = p.regs ∧
        ((∀ r ∈ p.regs, ∀ w ∈ mxRunsOf u q.core q.ctx, inRun r w = false) → p'.cells = p.regs.flatMap (fun r => (lanesOf p.lanes).map (fun l => (cellKey r l, BitVec.ofNat 32 v))))
    let only := fun (v : Nat) => ∃ t, r = .next t ∧ reports s0 t v ∧
      t = { s0 with cedes := left, cores := t.cores, wrote := t.wrote } ∧
      ∀ c x, (c, x) ≠ (q.core, q.ctx) → getGroup t c x = getGroup s0 c x
    let answered := fun (u : State) (v tag : Nat) =>
      (quiet u q.kind q.res = false → r = .next u) ∧
      (quiet u q.kind q.res = true → ∃ t, r = .next t ∧ (q.kind ≠ 0 → q.kind ≠ 4 → reports u t v) ∧ t.cedes = left ∧
        (tagOf u q.kind q.res ≠ none → tag < 4095 → tagOf t q.kind q.res = some tag ∧ (q.kind, q.res) ∉ t.fenced) ∧
        (q.kind = 1 → ∀ a, q.res / 256 * 327680 + q.res % 256 * 8192 ≤ a → a < q.res / 256 * 327680 + q.res % 256 * 8192 + 8192 →
          readByte t.spm a = 0) ∧
        (q.kind = 2 → ∀ a, a / 65536 = q.res → readByte t.mem a = 0) ∧
        (q.kind ≠ 2 → q.kind ≠ 4 → t.mem = u.mem) ∧ (q.kind ≠ 1 → t.spm = u.spm))
    let passes := fun (v tag : Nat) => ∃ u, u.cedes.find? (fun q => q.id == id) = some { q with verdict := some (v, tag) } ∧
      u.cedes.filter (fun p => p.id != id) = left ∧ (q.kind, q.res) ∈ u.fenced ∧ tagOf u q.kind q.res = some 4095 ∧
      u.mem = s0.mem ∧ u.spm = s0.spm ∧ answered u v tag
    (q.verdict = none → (seized → ¬ held → only 1) ∧
      (seized → held → ∃ t, r = .next t ∧ t.cedes = left ∧ (q.kind, q.res) ∈ t.fenced ∧ tagOf t q.kind q.res = some 4095 ∧
        t.mem = s0.mem ∧ t.spm = s0.spm ∧ (q.kind ≠ 4 → reports s0 t 1)) ∧ (¬ seized → ¬ held → only 3) ∧ (¬ seized → held → hot → only 4) ∧
      (¬ seized → held → ¬ hot → ∀ n, openNotice s0 q.tenant q.kind = some n → passes 0 n.newTag) ∧
      (¬ seized → held → ¬ hot → openNotice s0 q.tenant q.kind = none → passes 2 0)) ∧
    (∀ v tag, q.verdict = some (v, tag) → v = 0 ∨ v = 2 → answered s v tag)) ∧
  (∀ (s : State) (t kind : Nat), kind ≤ 5 →
    ((∀ n ∈ (getTenant s t).notices, ¬ (n.kind = kind ∧ n.closed = true)) → exec (.skidderSeize t kind) s = .next s) ∧
    (∀ n, (getTenant s t).notices.find? (fun n => n.kind == kind && n.closed) = some n →
      let todo := ((n.cands.filter (fun r => !n.ceded.contains r)).take (n.count - n.ceded.length)).drop n.taken
      let gone := fun (u : State) => ∀ m ∈ (getTenant u t).notices, m.seq ≠ n.seq
      (todo = [] → ∃ u, exec (.skidderSeize t kind) s = .next u ∧ gone u ∧ u.mem = s.mem) ∧
      (∀ res rest, todo = res :: rest →
        (quiet (fence s t kind res) kind res = false → exec (.skidderSeize t kind) s = .next (fence s t kind res) ∧
          (kind, res) ∈ (fence s t kind res).fenced ∧ (tagOf s kind res ≠ none →
            tagOf (fence s t kind res) kind res = some 4095)) ∧
        (quiet (fence s t kind res) kind res = true → tagOf s kind res ≠ none → n.newTag < 4095 →
          ∃ u, exec (.skidderSeize t kind) s = .next u ∧ tagOf u kind res = some n.newTag ∧ (kind, res) ∉ u.fenced ∧
            (rest = [] → gone u) ∧
            (kind = 2 → (getTenant u t).lcur = (getTenant s t).lcur +
              (if 65536 * (getTenant s t).lsize < (getTenant s t).lcur + 65536 then 0 else 65536))))))

/-! ### Pre-emption and functions -/

/-- PREEMPT_REQUEST refuses a bad request with STATUS all ones, and else vacates the cores named and the clusters of their gangs,
each cluster with a choice and estimate as R349 orders them: draining groups fetch no more tiles, all others stop, and a cluster
that is saved reserves its part of the save area behind those of the lower clusters. PREEMPT_DRAIN_DEADLINE
saves what is still live at D where it fits; PREEMPT_SAVE saves the drained blocks of a core with their registers, into the
cluster's part, PREEMPT_DISCARD drops them, and PREEMPT_CLUSTER_DONE writes the cluster's record and after the last the count
(R346 to R353). The parts of the save area, and OVR in every record whose ACT exceeds D, are the model's reading (log 49), and so
are the areas that requestOk and statusOk ask for (log 53). -/
def Obligations.preemption : Prop :=
  (∀ (s : State) (bs : List Byte),
    let vac := fun (c : Nat) => c < 768 ∧
      (c ∈ pqCores bs ∨ ∃ d ∈ pqCores bs, d / 4 = c / 4 ∧ ∃ l ∈ coreLaunches s d, l.gang = true)
    (requestOk s bs = false → ∃ t, exec (.preemptRequest bs) s = .next (raiseMsi t 2) ∧ t.preempts = s.preempts ∧
      (statusOk s (pqStatus bs) 4 = true → wrote s t (pqStatus bs) (natToBytes 4 0xFFFFFFFF)) ∧
      (statusOk s (pqStatus bs) 4 = false → t = s)) ∧
    (requestOk s bs = true → ∃ t p, exec (.preemptRequest bs) s = .next t ∧ t.preempts = s.preempts ++ [p] ∧ t.mem = s.mem ∧
      p.id = s.serial ∧ p.tenant = pqTenant bs ∧ p.d = pqD bs ∧ p.sarea = pqSarea bs ∧ p.ssize = pqSsize bs ∧
      p.status = pqStatus bs ∧ p.sused = (p.clusters.map (·.room)).sum ∧ p.clusters.Pairwise (fun q r => q.cluster < r.cluster) ∧
      (∀ c, vac c → ∃ q ∈ p.clusters, q.cluster = c / 4) ∧
      ∀ q ∈ p.clusters, (∀ c, c ∈ q.cores ↔ vac c ∧ c / 4 = q.cluster) ∧
        (∀ pre post, p.clusters = pre ++ q :: post → (∀ c ∈ q.cores, priorChoice s c = none) →
          let drain := maxOver q.cores (drainCost s)
          let save := maxOver q.cores (saveCost s)
          let discards := (∀ c ∈ q.cores, ∀ l ∈ coreLaunches s c, l.disc = true) ∧ 512 ≤ p.d
          let before := (pre.map (·.room)).sum
          let need := (q.cores.map (coreBytes s)).sum
          (drain ≤ p.d → q.choice = 0 ∧ q.est = drain ∧ q.ovr = false) ∧
          (p.d < drain → discards → q.choice = 2 ∧ q.est = 512 ∧ q.ovr = false) ∧
          (p.d < drain → ¬ discards → before + need ≤ p.ssize → q.choice = 1 ∧ q.est = save ∧ q.ovr = decide (p.d < save) ∧
            q.base = before ∧ q.room = need) ∧
          (p.d < drain → ¬ discards → p.ssize < before + need → q.choice = 0 ∧ q.est = drain ∧ q.ovr = true) ∧
          (q.choice ≠ 1 → q.room = 0)) ∧
        ∀ c ∈ q.cores, priorChoice s c = none →
          (q.choice = 0 → ∀ x ∈ slotsOf (getCore s c), (getGroup t c x).drained = true) ∧
          (q.choice ≠ 0 → (getCore s c).regroups = [] → ∀ b ∈ residentBlocks (getCore s c),
            ∀ x ∈ blockSlots (getCore s c) b.1, (getGroup t c x).stop ≠ .run))) ∧
  (∀ (s : State) (req cl : Nat) (p : Preempt) (q : PClus), findPreempt s req = some p → clusterIn p cl = some q →
    let now' := fun (t : State) (q' : PClus) => ∃ p', findPreempt t req = some p' ∧ clusterIn p' cl = some q'
    let late := q.fin = false ∧ q.saving = false ∧ q.choice = 0 ∧ q.c0 + p.d ≤ now s (cl * 4) ∧ stillLive s q = true
    (¬ late → exec (.preemptDrainDeadline req cl) s = .next s) ∧
    (late → let n := ((q.cores.filter (fun c => ownerOf s c == some req)).map (coreBytes s)).sum
      ∃ t, exec (.preemptDrainDeadline req cl) s = .next t ∧ t.mem = s.mem ∧
        (p.ssize < p.sused + n → now' t { q with ovr := true }) ∧
        (p.sused + n ≤ p.ssize → now' t { q with ovr := true, saving := true, base := p.sused, room := n } ∧
          ∃ p', findPreempt t req = some p' ∧ p'.sused = p.sused + n)) ∧
    (∀ c, clusterOf c = cl →
      let may := q.fin = false ∧ (q.choice = 1 ∨ q.saving = true) ∧ c ∈ q.cores ∧ ownerOf s c = some req ∧
        ∀ d ∈ q.cores, d < c → ownerOf s d = some req → residentBlocks (getCore s d) = []
      let u := holdCore s c
      let n := coreBytes u c
      let done := ∀ b ∈ residentBlocks (getCore u c), blockDone u c b.1 = true
      (¬ may → exec (.preemptSave req c) s = .next s) ∧
      (may → ¬ done → exec (.preemptSave req c) s = .next u) ∧
      (may → done → q.room < q.bytes + n → p.ssize < p.sused + n → ∃ t, exec (.preemptSave req c) s = .next t ∧ t.mem = s.mem ∧
        now' t { q with choice := 0, saving := false, ovr := true }) ∧
      (may → done → (q.bytes + n ≤ q.room ∨ p.sused + n ≤ p.ssize) → ∃ t p', exec (.preemptSave req c) s = .next t ∧
        let off := if q.bytes + n ≤ q.room then q.base + q.bytes else p.sused
        findPreempt t req = some p' ∧ p'.sused = max p.sused (off + n) ∧ (∃ q', clusterIn p' cl = some q' ∧ q'.bytes = q.bytes + n) ∧
        (∀ b, blockOf (getCore t c) b = none) ∧
        ∀ b blk, blockOf (getCore s c) b = some blk → ∃ v ∈ t.saved, v.core = c ∧ v.index = b ∧ v.block = blk ∧
          v.inMemory = true ∧ p.sarea + off ≤ v.addr ∧ v.addr + contextSize v ≤ p.sarea + off + n ∧
          ∀ x, x < 48 → (getGroup s c x).live = true → (getGroup s c x).block = b →
            ∃ g, (x, g) ∈ v.groups ∧ g.regs = (savedGroup s c x).regs)) ∧
    (∀ c, clusterOf c = cl →
      let may := q.fin = false ∧ q.choice = 2 ∧ c ∈ q.cores ∧ ownerOf s c = some req
      let bs := (residentBlocks (getCore s c)).map (·.1)
      let u := bs.foldl (fun s b => discardHold s c b) s
      (¬ may → exec (.preemptDiscard req c) s = .next s) ∧
      (may → bs.all (discardDone u c) = false → exec (.preemptDiscard req c) s = .next u) ∧
      (may → bs.all (discardDone u c) = true → ∃ t, exec (.preemptDiscard req c) s = .next t ∧ t.mem = s.mem ∧
        (∀ b, blockOf (getCore t c) b = none) ∧ ∀ v ∈ t.saved, v ∈ s.saved)) ∧
    (q.fin = true ∨ stillLive s q = true → exec (.preemptClusterDone req cl) s = .next s) ∧
    (q.fin = false → stillLive s q = false → ∀ pre post, p.clusters = pre ++ q :: post → (∀ r ∈ pre, r.cluster ≠ cl) →
      let record := natToBytes 4 ((if q.ovr ∨ p.d < q.act then 2 ^ 31 else 0) + q.choice * 2 ^ 28 + q.cluster) ++
        natToBytes 4 (min q.est 0xFFFFFFFF) ++ natToBytes 4 q.act ++ natToBytes 4 q.bytes
      ∃ t, wrote s t (p.status + 16 * pre.length) record ∧
        ((∃ r ∈ pre ++ post, r.fin = false) → exec (.preemptClusterDone req cl) s = .next t ∧ now' t { q with fin := true }) ∧
        ((∀ r ∈ pre ++ post, r.fin = true) → ∃ u, exec (.preemptClusterDone req cl) s = .next (raiseMsi u 2) ∧
          wrote t u (p.status + 0xC00) (natToBytes 4 p.clusters.length) ∧ ∀ r ∈ u.preempts, r.id ≠ req)))

/-- FUNCTION_PAUSE, FUNCTION_PAUSED and FUNCTION_UNPAUSE set a function's FCTL: paused once nothing of the tenant is claimed
or unfinished. FUNCTION_LEVEL_RESET stops every group of the tenant, cancels its copies, and drops its inline packets, its
pre-emptions, whose reserved save areas are then undefined, and its checkpoint operations; FLR_DRAINED, once no request of the
tenant is left, leaves its cores empty, its banks zero and its queues reset, keeps its frames, and journals type 7 (R357 to
R360). The reset of a function without a tenant changes its state and the journal alone, which is the model's choice (log 52).
-/
def Obligations.tenant_functions : Prop :=
  ∀ (s : State) (f : Nat),
    let x := getFctl s f
    let t := x.tenant
    let becomes := fun (r : Host.Outcome State Fault Refusal) (y : Fctl) => ∃ u, r = .next u ∧ u = { s with hub := u.hub } ∧
      getFctl u f = y ∧ ∀ g, g ≠ f → getFctl u g = getFctl s g
    let settled := t = 0 ∨ ((∀ q ∈ queuesOf s t, (getQueue s q).claimed = []) ∧ ∀ l ∈ s.launches, l.tenant ≠ t)
    becomes (exec (.functionPause f) s) { x with pause := true, state := if x.state = 0 then 1 else x.state } ∧
    (x.state = 1 → settled → becomes (exec (.functionPaused f) s) { x with state := 2 }) ∧
    (¬ (x.state = 1 ∧ settled) → exec (.functionPaused f) s = .next s) ∧
    becomes (exec (.functionUnpause f) s) { x with pause := false, state := if x.state = 3 then 3 else 0 } ∧
    (x.flr = true → exec (.functionLevelReset f) s = .next s) ∧
    (x.flr = false → t = 0 → becomes (exec (.functionLevelReset f) s) { x with flr := true, state := 3 }) ∧
    (x.flr = false → t ≠ 0 → ∃ u, exec (.functionLevelReset f) s = .next u ∧ getFctl u f = { x with flr := true, state := 3 } ∧
      ((∀ p ∈ s.preempts, p.tenant = t → ∀ q ∈ p.clusters, q.fin = true ∨ (q.room = 0 ∧ q.bytes = 0)) → u.mem = s.mem) ∧
      (∀ p ∈ u.copies, p.tenant = t → p.cancel = true) ∧ u.spm = s.spm ∧ (∀ c, c ∉ coresOf s t → getCore u c = getCore s c) ∧
      (∀ c, (getCore s c).bound = true → (getCore s c).tid = t → ∀ y, (y < 48 ∧ (getGroup s c y).live = true) ∨ y = 48 →
        (getGroup u c y).frontier = [] ∧ (getGroup u c y).stop = .held) ∧
      (∀ q, (getQueue s q).owner = t → (getQueue u q).inline = none) ∧
      (∀ p ∈ u.preempts, p.tenant = t → ∀ q ∈ p.clusters, q.fin = false → q.choice = 3) ∧
      ∀ o ∈ u.hub.ckops, o.tenant = t → 1 ≤ o.op → o.op ≤ 4 → o.reason ≠ none) ∧
    (x.flr = false ∨ (t ≠ 0 ∧ tenantDrained s t = false) → exec (.flrDrained f) s = .next s) ∧
    (x.flr = true → (t = 0 ∨ tenantDrained s t = true) → ∃ u, exec (.flrDrained f) s = .next (raiseMsi u 3) ∧
      getFctl u f = { x with flr := false, state := 0, pause := false } ∧ u.mem = s.mem ∧
      mget [] u.hub.journal (s.hub.jhead.toNat % 65536) = withCrc (journalBody s.hub.jhead 7 0 t 0 0 (hubCount s 3) 0) ∧
      (t ≠ 0 → (∀ c, (getCore s c).bound = true → (getCore s c).tid = t → (getCore u c).tHandler = 0 ∧
          ∀ y, y ≠ 49 → getGroup u c y = {}) ∧
        (∀ q, (getQueue s q).owner = t → getQueue u q = { owner := t }) ∧
        (∀ l ∈ u.launches, l.tenant ≠ t) ∧ (∀ v ∈ u.saved, v.tenant ≠ t) ∧
        ∀ c b a, b < 40 → bankTagOf s c b = t → c * 327680 + b * 8192 ≤ a → a < c * 327680 + b * 8192 + 8192 →
          readByte u.spm a = 0))

/-! ### The host and starts -/

/-- REGISTER_WRITE and HOST_HART_ACCESS read and write the hub's registers: RBASE and OWNER of a queue slot, whose configuration
is lost where it changes while enabled, a tenant for a resource that has none (the binding register's address, and that a frame
with accesses under way is bound later, are the model's, log 12); a hart's store to a register with an event of its own brings
that event about; a load reads the register named and changes nothing else; to DRAM they and PCIE_INBOUND_WRITE, where a window of
its function admits it, write the bytes given; a write to an interrupt file makes its identity pending. An interrupt is pending
while masked or addressed to no interrupt file, and MSI_UNMASK sends it; PORTS_DOWN puts the queue pairs to a module into ERROR
(R277, R297, R298, R327, R363, R372, R373, R375, R409). The files' addresses are the model's choice (log 103), and so is what
becomes of OWNER of a held slot and of a PCIe write that is admitted nowhere (log 61). -/
def Obligations.host_interface : Prop :=
  (∀ (s : State) (pa : Nat) (v : Dword), ∃ t, exec (.registerWrite pa v) s = .next t ∧
    (∀ (q : Nat) (sys : Bool), q < 64 → pa = (if sys then 0x8000100000 else 0x8000140000) + 4096 * q + 0x50 →
      t = { s with queues := t.queues } ∧ (∀ p, p ≠ q → getQueue t p = getQueue s p) ∧
      getQueue t q = { getQueue s q with rbase := v, lost := (getQueue s q).lost || ((getQueue s q).en && (getQueue s q).rbase != v) }) ∧
    (∀ q, q < 64 → pa = 0x8000140000 + 4096 * q + 0x48 → t = { s with queues := t.queues } ∧
      (getQueue t q).owner = (getQueue s q).owner ∧ (getQueue t q).logs = v.toNat / 256 % 16 ∧
      ∀ p, p ≠ q → getQueue t p = getQueue s p) ∧
    (∀ q, q < 64 → pa = 0x8000100000 + 4096 * q + 0x48 → t = { s with queues := t.queues, tenants := t.tenants } ∧
      (∀ p, p ≠ q → getQueue t p = getQueue s p) ∧ (getQueue t q).owner =
      (if (getQueue s q).owner = 0 ∧ v.toNat / 2 ^ 20 % 4096 ≠ 4095 then v.toNat / 2 ^ 20 % 4096 else (getQueue s q).owner)) ∧
    (pa = 0x8000C00000 →
      let kind := v.toNat / 2 ^ 60
      let tag := v.toNat / 2 ^ 48 % 4096
      let res := v.toNat % 2 ^ 48
      t.mem = s.mem ∧ t.spm = s.spm ∧ (∀ c x, getGroup t c x = getGroup s c x) ∧
      (tag ≠ 0 → tag ≠ 4095 → tagOf s kind res = some 0 → (kind = 2 → frameQuiet s res = true) →
        tagOf t kind res = some tag ∧ res ∉ seizedOf t tag kind ∧ (kind = 0 → (getCore t res).tHandler = 0)) ∧
      (tag = 0 ∨ tag = 4095 ∨ tagOf s kind res ≠ some 0 → t = s))) ∧
  (∀ (s : State) (hart : Nat) (ordered : Bool) (pa size : Nat) (data : List Byte),
    let n := data.length
    let got := fun (t : State) (v : Nat) => mget 0 t.hub.hart hart = v
    (isDram pa = true → ∃ t, exec (.hostHartAccess hart ⟨true, ordered⟩ pa size data) s = .next t ∧ wrote s t pa data) ∧
    (isDram pa = true → poisoned s pa size = false → ∃ t, exec (.hostHartAccess hart ⟨false, ordered⟩ pa size data) s = .next t ∧
      got t (readLE s.mem pa size) ∧ t.mem = s.mem) ∧
    (0x8000000000 ≤ pa → ∃ t, exec (.hostHartAccess hart ⟨false, ordered⟩ pa size data) s = .next t ∧
      t = { s with hub := t.hub, hostSeen := t.hostSeen } ∧ (ordered = false → t.hostSeen = s.hostSeen) ∧
      t.hub.journal = s.hub.journal ∧ t.hub.msi = s.hub.msi ∧
      (size = 4 → (pa = 0x8000600000 → got t s.hub.jhead.toNat) ∧ (pa = 0x8000900000 → got t s.hub.wdctl.toNat) ∧
        (pa = 0x8000900010 → got t s.hub.wdleft.toNat))) ∧
    (let r := exec (.hostHartAccess hart ⟨true, ordered⟩ pa size data) s
      let v := BitVec.ofNat 64 (bytesToNat data)
      (∀ q, q < 64 → (pa = 0x8000100000 + 4096 * q + 0x40 ∨ pa = 0x8000140000 + 4096 * q + 0x40) → n = 4 →
        r = exec (.doorbell q (v.setWidth 32)) s) ∧
      (pa = 0x8000900000 → n = 4 → r = exec (.watchdogControl (v.setWidth 32)) s) ∧
      (pa = 0x8000900008 → n = 4 → r = exec (.watchdogKick (v.setWidth 32)) s) ∧
      (0x8000000000 ≤ pa → (n = 8 ∧ pa % 8 = 0) ∨ (n = 4 ∧ pa % 8 = 4) → r = exec (.registerWrite pa v) s) ∧
      (∀ file ident, hubPageOf pa = .other → imsicFile pa = some file → n = 4 → bytesToNat data = ident → 1 ≤ ident → ident ≤ 255 →
        ∃ t, r = .next t ∧ t = { s with hub := t.hub } ∧ mget false t.hub.imsic (file * 256 + ident) = true)) ∧
    (∀ fn, dmaTarget s fn pa n true = none → exec (.pcieInboundWrite fn pa data) s = .next s) ∧
    (∀ fn, mget [] s.hub.windows fn = [] → dmaTarget s fn pa n true = none) ∧
    (∀ fn a, dmaTarget s fn pa n true = some a →
      (n ≠ 0 → allDram a n = true → ∃ t, exec (.pcieInboundWrite fn pa data) s = .next t ∧ wrote s t a data) ∧
      (n = 0 ∨ (allDram a n = false ∧ imsicFile a = none) → exec (.pcieInboundWrite fn pa data) s = .next s) ∧
      (∀ file ident, allDram a n = false → imsicFile a = some file → n = 4 → bytesToNat data = ident → 1 ≤ ident → ident ≤ 255 →
        ∃ t, exec (.pcieInboundWrite fn pa data) s = .next t ∧ mget false t.hub.imsic (file * 256 + ident) = true ∧
          t = { s with hub := t.hub }))) ∧
  (∀ (s : State) (i : Nat),
    let m := mget {} s.hub.msi i
    let aligned := (imsicFile m.addr.toNat).isSome = true
    let sends := fun (t : State) => t.hub.msiSent = s.hub.msiSent ++ [(m.addr, m.data)]
    (m.mask = true ∨ ¬ aligned → (mget {} (raiseMsi s i).hub.msi i).pend = true ∧ (raiseMsi s i).hub.msiSent = s.hub.msiSent) ∧
    (m.mask = false → aligned → sends (raiseMsi s i) ∧ (raiseMsi s i).hub.msi = s.hub.msi ∧
      ∀ file, imsicFile m.addr.toNat = some file → 1 ≤ m.data.toNat → m.data.toNat ≤ 255 →
        mget false (raiseMsi s i).hub.imsic (file * 256 + m.data.toNat) = true) ∧
    ∃ t, exec (.msiUnmask i) s = .next t ∧ t = { s with hub := t.hub } ∧
      mget {} t.hub.msi i = { m with mask := false, pend := m.pend && !decide aligned } ∧
      (m.pend = true → aligned → sends t) ∧ (m.pend = false ∨ ¬ aligned → t.hub.msiSent = s.hub.msiSent)) ∧
  (∀ (s : State) (m : Nat), (m ∈ s.hub.down → exec (.portsDown m) s = .next s) ∧
    (m ∉ s.hub.down → ∃ t, exec (.portsDown m) s = .next t ∧ t.hub.down = s.hub.down ++ [m] ∧
      ∀ q, (getQp s q).state = 1 → (getQp s q).peerMod = m → (getQp t q).state = 2))

/-- A write to WDCTL with a period sets it and starts the count; the kick word starts it again; neither does once the count
has reached 0; then the module asks for a start, warm unless three have failed. A cold start leaves every register and memory
at its reset value, every unit with what it has counted since it left reset, and the start record at index 0; a warm start
keeps memory but for dirty bytes of lost dies, tags and the bindings of cores and queues, recovers the journal's head, and
invalidates every translation; a start that fails, also at step 7 for want of a verified image in slot NEXT, leaves the module
in reset, with what step 7 measured where it got past that (R386 to R389, R393, R417, R418). What a warm start keeps beyond
R387 is the model's reading (log 57). -/
def Obligations.starts : Prop :=
  ∀ (s : State),
    let hubOnly := fun (t : State) => t = { s with hub := t.hub }
    let nextOk := (if s.mgmt.next then s.mgmt.okB else s.mgmt.okA) = true
    let expired := s.hub.wdctl.getLsbD 31 = true ∧ s.hub.wdleft = 0
    (∀ v : Word, (v.extractLsb' 0 16 = 0 ∨ expired → exec (.watchdogControl v) s = .next s) ∧
      (v.extractLsb' 0 16 ≠ 0 → ¬ expired → ∃ t, exec (.watchdogControl v) s = .next t ∧ hubOnly t ∧ t.hub.wdctl = v &&& 0x8000FFFF ∧
        t.hub.wdleft = if v.getLsbD 31 then (v.extractLsb' 0 16).setWidth 32 else 0) ∧
      (v = 0xA5C3 → s.hub.wdctl.getLsbD 31 = true → s.hub.wdleft ≠ 0 → ∃ t, exec (.watchdogKick v) s = .next t ∧ hubOnly t ∧
        t.hub.wdleft = (s.hub.wdctl.extractLsb' 0 16).setWidth 32) ∧
      (v ≠ 0xA5C3 ∨ s.hub.wdctl.getLsbD 31 = false ∨ s.hub.wdleft = 0 → exec (.watchdogKick v) s = .next s)) ∧
    (s.hub.wdctl.getLsbD 31 = true → s.hub.wdleft = 0 → ∃ t, exec .watchdogExpire s = .next t ∧
      t.hub.wdctl.getLsbD 31 = false ∧ t.mem = s.mem ∧
      t.hub.starting = some (s.hub.starting.getD (decide (3 ≤ s.hub.failedWarm)))) ∧
    (s.hub.wdctl.getLsbD 31 = false ∨ s.hub.wdleft ≠ 0 → exec .watchdogExpire s = .next s) ∧
    (∃ t, exec .powerOn s = .next t ∧ hubOnly t ∧ t.hub.starting = some true ∧ t.hub.held = true) ∧
    (∀ step, s.hub.starting ≠ some true → exec (.coldStart step) s = .next s) ∧
    (s.hub.starting = some true → nextOk → ∃ t, exec (.coldStart 0) s = .next t ∧ moduleUp t = true ∧
      t.mgmt.measure = measured (nextImage s.mgmt) ∧
      t = { State.reset with agenda := s.agenda, cur := s.cur, free := t.free, serial := s.serial, ahead := t.ahead, mgmt := t.mgmt,
                             hub := t.hub } ∧
      t.hub.jhead = 1 ∧ t.hub.jstarts = 1 ∧ t.hub.wdctl = 0x3E8 ∧ t.hub.wdleft = 0 ∧ t.hub.qps = [] ∧ t.hub.msi = [] ∧
      mget [] t.hub.journal 0 = withCrc (journalBody 0 8 0 0 0 0 (hubCount t 3) 0x80000000) ∧ t.mgmt.thermal = s.mgmt.thermal) ∧
    (∀ step dead, s.hub.starting ≠ some false → exec (.warmStart step dead) s = .next s) ∧
    (∀ dead, s.hub.starting = some false → nextOk → mwf {} s.queues = true → mwf {} s.cores = true →
      (∀ r ∈ s.hub.receivers, r.2.applying = none) → ∃ t,
      exec (.warmStart 0 dead) s = .next t ∧ moduleUp t = true ∧ t.mgmt.measure = measured (nextImage s.mgmt) ∧ t.spm = [] ∧ t.launches = [] ∧ t.saved = [] ∧
      (∀ a, (∀ q ∈ s.l2, q.line = a / 256 → dead.getLsbD (homeDie a) = false) → readByte t.mem a = readByte s.mem a) ∧
      t.fenced = [] ∧ t.frameTag = s.frameTag ∧ t.bankTag = s.bankTag ∧ t.laneTag = s.laneTag ∧ t.chunkTag = s.chunkTag ∧
      t.codeTable = s.codeTable ∧ (∀ c, getCore t c = { fTenant := (getCore s c).fTenant }) ∧
      (∀ q, let x := getQueue s q
        getQueue t q = { owner := x.owner, logn := x.logn, logs := x.logs, rbase := x.rbase, ridxa := x.ridxa }) ∧
      (∀ k, (mget {} t.xlat k).v = false) ∧ t.hub.jhead = recoveredHead s.hub.journal + 1 ∧
      t.hub.jstart = recoveredHead s.hub.journal ∧ t.hub.jstarts = s.hub.jstarts + 1) ∧
    (∀ step dead, step ≠ 0 ∨ ¬ nextOk →
      let measures := fun (t : State) => (7 < step → nextOk → t.mgmt.measure = measured (nextImage s.mgmt)) ∧
        (step ≤ 7 ∨ ¬ nextOk → t.mgmt.measure = s.mgmt.measure)
      (s.hub.starting = some true → ∃ t, exec (.coldStart step) s = .next t ∧ moduleUp t = false ∧ measures t) ∧
      (s.hub.starting = some false → ∃ t, exec (.warmStart step dead) s = .next t ∧ moduleUp t = false ∧ measures t ∧
        t.hub.failedWarm = s.hub.failedWarm + 1))

/-! ### Checkpoints and management -/

/-- A status record of a checkpoint operation (R401). -/
def ckStatus (reason frames bytes : Nat) : List Byte :=
  natToBytes 4 (2 ^ 31 + (if reason = 0 then 0 else 2 ^ 30) + reason) ++ natToBytes 4 frames ++ natToBytes 8 bytes

/-- DIRTY_SWAP changes the current buffer and counts the swap; where memory is in canonical form, the buffer just left and ROLL
lie apart and no tracker watches ROLL, it ORs that buffer into ROLL and changes no other byte. ROUND, FINAL, ABORT and ROLLBACK
are refused with reason 5 or 3 in a status record, and else begin: ROUND swaps and, where no frame that it reads is poisoned,
sends every frame of the tenant that the buffer just left names, each with the bytes of memory; FINAL holds the groups of the
tenant's blocks on cores with no REGROUP in progress; ABORT discards what was staged; ROLLBACK stops the tenant's groups; an
unknown command writes all ones. CHECKPOINT_OP_DONE ends an operation and writes its record; a FINAL that commits makes the image
valid, with the launches of that time and nothing staged, and a ROLLBACK to it brings back its launches and contexts, those in a
receiver of this module where one holds the image, and disables the tenant's queues; a launch that has ended since ends without
a second entry; an operation whose queue pair has left READY ends with reason 2 (R394, R398 to R402, R406 to R408). The image kept
in the hub's state, the record area that ROLLBACK asks for and the counts of an operation that fails are the model's (log 58). -/
def Obligations.checkpoints : Prop :=
  ∀ (s : State),
    let tells := fun (r : Host.Outcome State Fault Refusal) (a : Nat) (bs : List Byte) (P : State → Prop) =>
      ∃ u, r = .next (raiseMsi u 7) ∧ wrote s u a bs ∧ P u
    (∀ k, let t := getTracker s k
      let left := if t.cur then t.buf1 else t.buf0
      (∃ u, exec (.dirtySwap k) s = .next u ∧ getTracker u k = { t with cur := !t.cur, swapSeq := t.swapSeq + 1 }) ∧
      (Memory.wf s.mem = true → (left + bufferLen ≤ t.roll ∨ t.roll + bufferLen ≤ left) →
      (∀ p ∈ s.hub.trackers, p.2.en = true → ∀ fr, t.roll / 65536 ≤ fr → fr ≤ (t.roll + bufferLen - 1) / 65536 →
        p.2.tenant ≠ mget 0 s.frameTag fr) →
      ∃ u, exec (.dirtySwap k) s = .next u ∧ getTracker u k = { t with cur := !t.cur, swapSeq := t.swapSeq + 1 } ∧
        (∀ i, i < bufferLen → readByte u.mem (t.roll + i) = readByte s.mem (t.roll + i) ||| readByte s.mem (left + i)) ∧
        ∀ a, a < t.roll ∨ t.roll + bufferLen ≤ a → readByte u.mem a = readByte s.mem a)) ∧
    (∀ c : CkCmd,
      let t := getTracker s c.tracker
      let T := t.tenant
      let bad := fun (n : Nat) => t.en = false ∨ (getQp s c.qp).state ≠ 1 ∨ (getQp s c.qp).tenant ≠ T ∨ statusOk s c.status n = false
      let busy := ∃ o ∈ s.hub.ckops, o.tracker = c.tracker
      let refuses := fun (r : Host.Outcome State Fault Refusal) (why : Nat) =>
        (statusOk s c.status 16 = true → tells r c.status (ckStatus why 0 0) (fun u => u.hub.ckops = s.hub.ckops)) ∧
        (statusOk s c.status 16 = false → r = .next (raiseMsi s 7))
      let begins := fun (r : Host.Outcome State Fault Refusal) (op : Nat) (P : State → CkOp → Prop) => ∃ u o, r = .next u ∧
        o ∈ u.hub.ckops ∧ (s.poison = [] → u.hub.ckops = s.hub.ckops ++ [o]) ∧ o.id = s.serial ∧ o.op = op ∧ o.tracker = c.tracker ∧ o.status = c.status ∧
        o.tenant = T ∧ P u o
      let op := fun (r : Host.Outcome State Fault Refusal) (n size : Nat) (P : State → CkOp → Prop) =>
        (bad size → refuses r 5) ∧ (¬ bad size → busy → refuses r 3) ∧ (¬ bad size → ¬ busy →
          (n = 2 → ∃ p ∈ s.preempts, p.tenant = T) → (n = 2 → refuses r 3)) ∧
        (¬ bad size → ¬ busy → (n = 2 → ∀ p ∈ s.preempts, p.tenant ≠ T) →
          let same := ∀ h ∈ (getImage s T).holds, heldBy s T h.1 h.2 = true
          ((n = 4 → same) → begins r n P) ∧
          (n = 4 → ¬ same → tells r c.status (ckStatus 3 0 0) (fun u => u.hub.ckops = s.hub.ckops)))
      op (exec (.ckRound c) s) 1 16 (fun u o => o.bytes = o.frames * 65552 ∧ (getTracker u c.tracker).cur = !t.cur ∧
        (∀ q ∈ (getImage u T).staged, q ∈ (getImage s T).staged ∨ ∀ i, i < 65536 → readByte q.2 i = readByte u.mem (q.1 * 65536 + i)) ∧
        (s.poison = [] → ∀ fr, fr % 2097152 < 1572864 → frameTagOf s fr = T →
          let bit := fr / 2097152 * 1572864 + fr % 2097152
          bit / 8 < bufferLen → (readByte u.mem ((if t.cur then t.buf1 else t.buf0) + bit / 8)).getLsbD (bit % 8) = true →
            ∃ q ∈ (getImage u T).staged, q.1 = fr)) ∧
      op (exec (.ckFinal c) s) 2 16 (fun u _ => u.mem = s.mem ∧ ∀ k, (getCore s k).bound = true → (getCore s k).tid = T →
        (getCore s k).regroups = [] → ∀ b ∈ residentBlocks (getCore s k), ∀ x ∈ blockSlots (getCore s k) b.1,
          (getGroup u k x).stop ≠ .run) ∧
      op (exec (.ckAbort c) s) 3 16 (fun u _ => u.mem = s.mem ∧ (getImage u T).staged = []) ∧
      op (exec (.ckRollback c) s) 4 272 (fun u _ => u.mem = s.mem ∧
        (∀ p ∈ u.hub.fctl, p.2.tenant = T → T ≠ 0 → p.2.flr = false → p.2.state = 3) ∧ ∀ k, (getCore s k).bound = true → (getCore s k).tid = T →
        ∀ x, x < 48 → (getGroup s k x).live = true → (getGroup u k x).frontier = []) ∧
      (∀ n, (statusOk s c.status 4 = true → tells (exec (.ckcmdInvalid n c) s) c.status (natToBytes 4 0xFFFFFFFF) (fun _ => True)) ∧
        (statusOk s c.status 4 = false → exec (.ckcmdInvalid n c) s = .next (raiseMsi s 7)))) ∧
    (∀ id reason, (∀ o ∈ s.hub.ckops, o.id ≠ id) → exec (.checkpointOpDone id reason) s = .next s) ∧
    (∀ id reason o, s.hub.ckops.find? (fun o => o.id == id) = some o →
      let r := exec (.checkpointOpDone id reason) s
      let im := getImage s o.tenant
      let said := o.reason.getD reason
      let why := if said = 0 ∧ (getQp s o.qp).state ≠ 1 then 2 else said
      let closed := fun (u : State) => ∀ p ∈ u.hub.ckops, p.id ≠ id
      let told := fun (u : State) (reason : Nat) => ∃ n b, ∀ i, i < 16 → ¬ trackedAt u o.status 16 (o.status + i) →
        readByte u.mem (o.status + i) = (ckStatus reason n b).getD i 0
      (o.op ≠ 2 → o.op ≠ 4 → ∃ n b, n ≤ o.frames ∧ b ≤ o.bytes ∧ (why = 0 → n = o.frames ∧ b = o.bytes) ∧
        tells r o.status (ckStatus why n b) (fun u => closed u ∧
          getImage u o.tenant = if why = 0 then im else { im with staged := [] })) ∧
      (o.op = 2 → o.reason = none → finalDrained s o.tenant = false → r = .next s) ∧
      (o.op = 2 → o.reason ≠ none ∨ finalDrained s o.tenant = true → ∃ u, r = .next u ∧ closed u ∧
        (∃ reason, told u reason ∧ (o.reason ≠ none ∨ s.poison = [] → reason = why)) ∧
        (why ≠ 0 → getImage u o.tenant = { im with staged := [] }) ∧
        (why = 0 → s.poison = [] → (getImage u o.tenant).valid = true ∧ (getImage u o.tenant).staged = [] ∧
          (getImage u o.tenant).launches = s.launches.filter (fun l => l.tenant == o.tenant))) ∧
      (o.op = 4 → tenantDrained s o.tenant = false → r = .next s) ∧
      (o.op = 4 → tenantDrained s o.tenant = true →
        (im.valid = false → tells r o.status (ckStatus 5 0 0) closed) ∧
        (im.valid = true → why ≠ 0 → tells r o.status (ckStatus why 0 0) closed) ∧
        (im.valid = true → why = 0 → ∃ u, r = .next (raiseMsi u 7) ∧ closed u ∧ told u 0 ∧
          u.launches = s.launches.filter (fun l => l.tenant != o.tenant) ++ im.launches.map (fun l =>
            match findLaunch s l.id with
            | some m => { l with started := l.started || m.started }
            | none => { l with started := true, inJournal := true }) ∧
          (let others := s.saved.filter (fun v => v.tenant != o.tenant)
           (localImage s o.tenant = none → u.saved = others ++ im.contexts) ∧
           ∀ r, localImage s o.tenant = some r → u.saved = others ++ areaContexts s (contextBase r + 256) im.contexts) ∧
          ∀ q ∈ queuesOf s o.tenant, (getQueue u q).en = false ∧ (getQueue u q).state = 0)))

/-- RECEIVER_ENABLE is taken only where the regions have their sizes, lie in system frames and the queue pair is
READY. STAGE_RECORD puts a record into staging, or discards staging where it does not fit, which the source is told; COMMIT_APPLY
writes the staged frames into the image's slots with their directory entries, then the context area, then ILAST, and confirms
that, or refuses and changes nothing (R403 to R405). That a commit is checked whole and then applied in a step of its own, between
which a start may come, is the model's reading (log 59). -/
def Obligations.receivers : Prop :=
  ∀ (s : State) (k : Nat),
    let r := getRecv s k
    (∀ qp, let y := { r with qp := qp }
      (recvOk s k y = true → 2 ≤ r.ssize ∧ 1 ≤ r.csize ∧ r.csize + 2 ≤ r.isize ∧ (getQp s qp).state = 1 ∧
        systemBytes s r.sbase (65536 * r.ssize) = true ∧ systemBytes s r.ibase (65536 * r.isize) = true ∧
        ∃ t, exec (.receiverEnable k qp) s = .next t ∧ t = { s with hub := t.hub } ∧ getRecv t k = { y with en := true }) ∧
      (recvOk s k y = false → exec (.receiverEnable k qp) s = .next s)) ∧
    (∀ kind frame seq data,
      let n := (16 + data.length + 255) / 256 * 256
      let x := exec (.stageRecord k kind frame seq data) s
      (r.en = false → x = .next s) ∧
      (r.en = true → 65536 * r.ssize < r.sused + n → ∃ t, x = .next t ∧ t = { s with hub := t.hub } ∧
        t.hub.answers = s.hub.answers ++ [(r.qp, 4)] ∧ getRecv t k = { r with sused := 0, staged := [] }) ∧
      (r.en = true → r.sused + n ≤ 65536 * r.ssize → ∃ t, x = .next t ∧
        getRecv t k = { r with sused := r.sused + n, staged := r.staged ++ [⟨kind, frame, seq, data⟩] } ∧
        wrote s t (r.sbase + r.sused) (natToBytes 8 frame ++ natToBytes 8 seq.toNat ++ data))) ∧
    (∀ tenant seq,
      let area := contextArea tenant seq (r.staged.filter (fun q => q.kind == 1)) (r.staged.filter (fun q => q.kind == 2))
      let frames := r.staged.filter (fun q => q.kind == 0)
      let x := exec (.commitApply k tenant seq) s
      (r.en = false → x = .next s) ∧
      (r.en = true → 65536 * r.csize < area.length ∨ applyFrames r s frames = none →
        x = .next { s with hub := { s.hub with answers := s.hub.answers ++ [(r.qp, 4)] } }) ∧
      (r.en = true → area.length ≤ 65536 * r.csize → ∀ s1, applyFrames r s frames = some s1 → ∃ t, x = .next t ∧
        (r.applying ≠ some (tenant, seq) → t = { s with hub := t.hub } ∧ t.hub.answers = s.hub.answers ∧
          getRecv t k = { r with applying := some (tenant, seq) }) ∧
        (r.applying = some (tenant, seq) → t.hub.answers = s.hub.answers ++ [(r.qp, 0)] ∧
          getRecv t k = { r with ilast := seq, sused := 0, staged := [], applying := none } ∧
          wrote s1 t (r.ibase + 65536 * (r.isize - r.csize)) area))) ∧
    (∀ q, (∀ d, d < dirSlots r → dirEntry s r d ≠ some q.frame ∧ dirEntry s r d ≠ none) → applyFrame r s q = none) ∧
    (∀ q d, slotFor s r q.frame = some d → d < dirSlots r ∧ (dirEntry s r d = some q.frame ∨ dirEntry s r d = none) ∧
      ∃ s1 s2, applyFrame r s q = some s2 ∧ wrote s s1 (r.ibase + 65536 * (dirFrames r + d)) q.data ∧
        wrote s1 s2 (r.ibase + 8 * d) (natToBytes 8 (2 ^ 63 + q.frame % 2 ^ 36)))

/-- While a management command runs another is dropped and counted. LOGRD, STAGE, ACTIVATE, ATTEST, START, CONFIG, LIMIT and an
unknown command end with the codes of R413 and have the effects of R413, R415 and R417; MGMT_COMMAND_DONE reports the code and
raises MSI 6. A sensor sample is kept, with the counts of soft errors; a critical reading puts the module into reset, and a
reading above its warning limit holds its die back until every sensor of it is released (R412 to R418). What ATTEST's report and
the log's records hold beside the manual's words is open (logs 54 and 55), and where an image's header has its fields is the
model's reading (log 102). -/
def Obligations.management : Prop :=
  ∀ (s : State),
    let m := s.mgmt
    let starting := s.hub.starting ≠ none
    let valid := if m.act then m.okA else m.okB
    let ends := fun (r : Host.Outcome State Fault Refusal) (op code : Nat) (P : State → Prop) => ∃ t, r = .next t ∧
      t.mgmt.cmd = some ⟨op, code⟩ ∧ P t
    let same := fun (t : State) => t.mem = s.mem ∧ t.hub = s.hub ∧ t.mgmt = { m with cmd := t.mgmt.cmd }
    (∀ c, m.cmd = some c → ∀ i, (∃ b f n, i = .mgLogrd b f n) ∨ (∃ b n, i = .mgStage b n) ∨ i = .mgActivate ∨
        (∃ b n, i = .mgAttest b n) ∨ (∃ c, i = .mgStart c) ∨ (∃ n e, i = .mgConfig n e) ∨ (∃ n v, i = .mgLimit n v) ∨
        (∃ o, i = .mcmdInvalid o) → exec i s = .next { s with mgmt := { m with drop := min (m.drop + 1) 16383 } }) ∧
    (m.cmd = none →
      (∀ b f n, let ok := 1 ≤ n ∧ n ≤ 1024 ∧ bufferOk s b (32 * n) = true
        (ok → ends (exec (.mgLogrd b f n) s) 1 0 (fun t =>
          wrote s t b ((List.range n).flatMap (fun i => padTo 32 (mget [] m.log ((f + i) % 32768)))))) ∧
        (¬ ok → ends (exec (.mgLogrd b f n) s) 1 1 same)) ∧
      (∀ b n, let img := readBytes s.mem b n
        let v := (Config.imageHeader img).version
        let good := poisonedIn s b n = false ∧ imageOk img = true
        let r := exec (.mgStage b n) s
        (starting → ends r 2 4 same) ∧
        (¬ starting → bufferOk s b n = false → ends r 2 1 same) ∧
        (¬ starting → bufferOk s b n = true → poisonedIn s b n = true → ends r 2 2 (fun t => t.mem = s.mem)) ∧
        (¬ starting → bufferOk s b n = true → poisonedIn s b n = false → imageOk img = false → ends r 2 2 same) ∧
        (¬ starting → bufferOk s b n = true → good → v.toNat < Config.minVersion.toNat → ends r 2 3 same) ∧
        (¬ starting → bufferOk s b n = true → good → Config.minVersion.toNat ≤ v.toNat →
          ends r 2 0 (fun t => (if m.act then t.mgmt.fwA = v ∧ t.mgmt.okA = true ∧ t.mgmt.imageA = img ∧ t.mgmt.fwB = m.fwB
            else t.mgmt.fwB = v ∧ t.mgmt.okB = true ∧ t.mgmt.imageB = img ∧ t.mgmt.fwA = m.fwA) ∧ t.mem = s.mem))) ∧
      ((starting → ends (exec .mgActivate s) 3 4 same) ∧
        (¬ starting → valid = false → ends (exec .mgActivate s) 3 1 same) ∧
        (¬ starting → valid = true → ends (exec .mgActivate s) 3 0 (fun t => t.mgmt.next = !m.act ∧ t.mgmt.fresh = true ∧
          t.mgmt.act = m.act))) ∧
      (∀ b nonce,
        let report := Config.attestReport nonce m.modid Config.stepping [m.fwA, m.fwB, mcfgWord m] m.measure (1048576 - m.xleft)
        (m.xleft = 0 → ends (exec (.mgAttest b nonce) s) 4 5 same) ∧
        (m.xleft ≠ 0 → bufferOk s b report.length = false → ends (exec (.mgAttest b nonce) s) 4 1 same) ∧
        (m.xleft ≠ 0 → bufferOk s b report.length = true → ends (exec (.mgAttest b nonce) s) 4 0 (fun t =>
          wrote s t b report ∧ t.mgmt.xleft = m.xleft - 1))) ∧
      (∀ cold, ends (exec (.mgStart cold) s) 5 0 (fun t =>
        t.hub.starting = some (s.hub.starting.getD (cold || decide (3 ≤ s.hub.failedWarm))))) ∧
      (∀ n e, (starting → ends (exec (.mgConfig n e) s) 6 4 same) ∧
        (¬ starting → 575 < n → ends (exec (.mgConfig n e) s) 6 1 same) ∧
        (¬ starting → n ≤ 575 → ends (exec (.mgConfig n e) s) 6 0 (fun t => t.mgmt.nextModid = n ∧ t.mgmt.nextEp = e ∧
          t.mgmt.modid = m.modid ∧ t.mgmt.ep = m.ep))) ∧
      (∀ i v, let ok := i ≤ 87 ∧ limitValue i v < criticalOf i
        (ok → ends (exec (.mgLimit i v) s) 7 0 (fun t => warningOf t.mgmt i = limitValue i v ∧
          ∀ j, j ≠ i → warningOf t.mgmt j = warningOf m j)) ∧
        (¬ ok → ends (exec (.mgLimit i v) s) 7 1 same)) ∧
      (∀ op, ends (exec (.mcmdInvalid op) s) op 1 same) ∧
      exec .mgmtCommandDone s = .next s) ∧
    (∀ c, m.cmd = some c → ∃ t, exec .mgmtCommandDone s = .next (raiseMsi t 6) ∧
      t = { s with mgmt := { m with cmd := none, err := c.code != 0, last := c.op, code := c.code } }) ∧
    (∀ thermal rails,
      let now' := reading thermal rails
      ∃ t, exec (.sensorSample thermal rails) s = .next t ∧ t.mgmt.thermal = thermal ∧ t.mgmt.rails = rails ∧
        t.mgmt.sample = m.sample + 1 ∧ t.mem = s.mem ∧
        (∀ i, i < 16 → mget 0 t.mgmt.soft i = min (mget 0 s.corrected (i / 4 * 8 + i % 4)) (2 ^ 32 - 1)) ∧
        (t.hub.held = true ↔ s.hub.held = true ∨ ∃ i, i < 88 ∧ criticalOf i < now' i) ∧
        ∀ d, d < 5 → ((∃ i ∈ sensorsOf d, warningOf m i < now' i) → t.hub.throttle.getD d false = true) ∧
          ((∀ i ∈ sensorsOf d, released m i (now' i) = true) → t.hub.throttle.getD d false = false) ∧
          ((∀ i ∈ sensorsOf d, now' i ≤ warningOf m i) → (∃ i ∈ sensorsOf d, released m i (now' i) = false) →
            t.hub.throttle.getD d false = s.hub.throttle.getD d false))

/-! ### Frames and invariants -/

/-- What an instruction leaves as it was when its entries go on, are moved, are parked, trap, wait or stand at a translation:
from the state in which it has had its effect nothing changes but, in its core, the frontier, running entry, stop state and
latches of groups, the use of its issue slot, the raised traps, and the model's counters. Results going into flight leave
every register as it was, results already visible apart, every flag, memory, and every group but the members (R67, R68, R281).
A trap of the handler slot itself is not meant: it ends the handler's context (R279). The statements above give every encoded
instruction's next state in these forms, so this is the frame of them all. -/
def Obligations.frames : Prop :=
  (∀ (q : Issue) (f : Fields) (t u : State) (next : Bool) (p : Park) (r : TrapReq),
    mwf {} (getCore t q.core).groups = true →
    (u = q.onward f t ∨ u = q.moved f t ∨ u = q.parked f next p t ∨ (u = q.trapped f next r t ∧ 48 ∉ r.slots) ∨ u = q.waits f t ∨
      u = stepFree t) →
      onlyCore q.core t u ∧ sameMemory t u ∧
      getCore u q.core = { getCore t q.core with
        groups := (getCore u q.core).groups, raised := (getCore u q.core).raised, slots := (getCore u q.core).slots } ∧
      ∀ y, let g := getGroup t q.core y
        let h := getGroup u q.core y
        keepsPlace g h ∧ h.regs = g.regs ∧ h.pend = g.pend ∧ h.fpflags = g.fpflags ∧ h.live = g.live ∧
        (y ∉ q.present f → y ∉ r.slots → h.frontier = g.frontier ∧ h.stop = g.stop)) ∧
  (∀ (s : State) (c : Nat) (f : Fields) (ms : Members) (lat : Option Nat) (n : Nat) (val : State → Nat → Nat → List Word),
    (ms.map (·.slot)).Nodup →
    let t := postResults s c f ms lat n val
    onlyCore c s t ∧ sameMemory s t ∧ getCore t c = { getCore s c with groups := (getCore t c).groups } ∧
    ∀ y, let g := getGroup s c y
      let h := getGroup t c y
      keepsPlace g h ∧ keepsValues (now s c) g h ∧ h.frontier = g.frontier ∧ h.stop = g.stop ∧ h.live = g.live ∧
      (y ∉ ms.map (·.slot) → h = g))

/-- No encoded instruction writes memory or a scratchpad bank when it issues: its stores stand in a queue, its copies with
the engines, and their writes are events of their own (R161, R191, R267). -/
def Obligations.instructions_leave_memory : Prop :=
  ∀ (i : Instr) (s t : State), isEvent i = false → exec i s = .next t → t.mem = s.mem ∧ t.spm = s.spm

/-- Every step keeps memory, the stored values of DRAM and the scratchpads in canonical form. -/
def Obligations.memory_stays_canonical : Prop := ∀ s t : State, MemoryCanonical s → step s = .next t → MemoryCanonical t
end

