-- ==== Sys2Proof/Laws/Map.lean ====
section
/-! SUPPORT. Laws of sparse tables and of memory: a read after a write, and the canonical form that every operation
keeps. -/

namespace Sys2Proof.Laws
open Sys2Proof Sys2Proof.Machine

variable {α : Type}

/-! ### Reading after a change -/

@[simp] theorem mget_nil (d : α) (k : Nat) : mget d [] k = d := rfl

theorem mget_merase (d : α) (m : SMap α) (k j : Nat) : mget d (merase m k) j = if j = k then d else mget d m j := by
  induction m with
  | nil => simp [merase]
  | cons q t ih =>
    obtain ⟨i, v⟩ := q
    by_cases hik : i = k
    · subst hik
      by_cases hj : j = i
      · subst hj; simpa [merase] using ih
      · simp [merase, mget, ih, hj, Ne.symm hj]
    · by_cases hij : i = j
      · subst hij; simp [merase, mget, hik]
      · simp [merase, mget, hik, hij, ih]

theorem mget_mput_ne (d : α) (m : SMap α) (k j : Nat) (x : α) (h : j ≠ k) : mget d (mput m k x) j = mget d m j := by
  induction m with
  | nil => simp [mput, mget, Ne.symm h]
  | cons q t ih =>
    obtain ⟨i, v⟩ := q
    unfold mput
    split
    · simp [mget, Ne.symm h]
    · simp [mget, ih]

theorem mget_mput_same (d : α) (m : SMap α) (k : Nat) (x : α) (h : ∀ v, (k, v) ∉ m) : mget d (mput m k x) k = x := by
  induction m with
  | nil => simp [mput, mget]
  | cons q t ih =>
    obtain ⟨i, v⟩ := q
    have hi : i ≠ k := fun e => h v (by simp [e])
    have ht : ∀ v, (k, v) ∉ t := fun v hv => h v (by simp [hv])
    unfold mput
    split
    · simp [mget]
    · simp [mget, hi, ih ht]

theorem not_mem_merase (m : SMap α) (k : Nat) (v : α) : (k, v) ∉ merase m k := by
  induction m with
  | nil => simp [merase]
  | cons q t ih =>
    obtain ⟨i, w⟩ := q
    unfold merase
    split
    · exact ih
    · rename_i h
      simp only [List.mem_cons, Prod.mk.injEq, not_or, not_and]
      exact ⟨fun e => absurd e.symm h, ih⟩

/-- What a table holds after one key is set. -/
theorem mget_mset [DecidableEq α] (d : α) (m : SMap α) (k j : Nat) (x : α) :
    mget d (mset d m k x) j = if j = k then x else mget d m j := by
  unfold mset
  split
  · rename_i hx; rw [mget_merase, hx]
  · by_cases h : j = k
    · subst h; simp [mget_mput_same d _ _ x (not_mem_merase m j)]
    · rw [mget_mput_ne d _ _ _ x h, mget_merase, if_neg h, if_neg h]

@[simp] theorem mget_mset_same [DecidableEq α] (d : α) (m : SMap α) (k : Nat) (x : α) : mget d (mset d m k x) k = x := by
  simp [mget_mset]

theorem mget_mset_ne [DecidableEq α] (d : α) (m : SMap α) {k j : Nat} (x : α) (h : j ≠ k) :
    mget d (mset d m k x) j = mget d m j := by simp [mget_mset, h]

/-! ### Canonical form -/

theorem mwfFrom_merase [DecidableEq α] (d : α) (m : SMap α) (k : Nat) :
    ∀ lo, mwfFrom d lo m = true → mwfFrom d lo (merase m k) = true := by
  induction m with
  | nil => intro lo _; cases lo <;> rfl
  | cons q t ih =>
    obtain ⟨i, v⟩ := q
    intro lo h
    unfold merase
    split
    · rename_i hik
      cases lo with
      | none =>
        simp only [mwfFrom, Bool.and_eq_true] at h
        have := ih _ h.2
        revert this
        cases merase t k with
        | nil => intro; rfl
        | cons r u => obtain ⟨j, w⟩ := r; simp only [mwfFrom, Bool.and_eq_true]; exact fun g => ⟨g.1.2, g.2⟩
      | some lo =>
        simp only [mwfFrom, Bool.and_eq_true, decide_eq_true_eq] at h
        have := ih _ h.2
        revert this
        cases merase t k with
        | nil => intro; rfl
        | cons r u =>
          obtain ⟨j, w⟩ := r
          simp only [mwfFrom, Bool.and_eq_true, decide_eq_true_eq]
          exact fun g => ⟨⟨by omega, g.1.2⟩, g.2⟩
    · cases lo <;> simp only [mwfFrom, Bool.and_eq_true] at h ⊢ <;> exact ⟨h.1, ih _ h.2⟩

theorem mwfFrom_mput [DecidableEq α] (d : α) (m : SMap α) (k : Nat) (x : α) (hx : x ≠ d) :
    ∀ lo, (∀ v, (k, v) ∉ m) → (∀ l, lo = some l → l < k) → mwfFrom d lo m = true → mwfFrom d lo (mput m k x) = true := by
  induction m with
  | nil =>
    intro lo _ hlo _
    cases lo with
    | none => simp [mput, mwfFrom, hx]
    | some l => simp [mput, mwfFrom, hx, hlo l rfl]
  | cons q t ih =>
    obtain ⟨i, v⟩ := q
    intro lo hk hlo h
    have hi : i ≠ k := fun e => hk v (by simp [e])
    have ht : ∀ v, (k, v) ∉ t := fun v hv => hk v (by simp [hv])
    unfold mput
    split
    · rename_i hlt
      cases lo with
      | none =>
        simp only [mwfFrom, Bool.and_eq_true, decide_eq_true_eq] at h ⊢
        exact ⟨by simpa using hx, ⟨hlt, h.1⟩, h.2⟩
      | some l =>
        simp only [mwfFrom, Bool.and_eq_true, decide_eq_true_eq] at h ⊢
        exact ⟨⟨hlo l rfl, by simpa using hx⟩, ⟨hlt, h.1.2⟩, h.2⟩
    · rename_i hge
      have hgt : i < k := by omega
      cases lo <;> simp only [mwfFrom, Bool.and_eq_true] at h ⊢ <;>
        exact ⟨h.1, ih _ ht (fun l e => by cases e; exact hgt) h.2⟩

/-- Setting a key keeps the canonical form. -/
theorem mwf_mset [DecidableEq α] (d : α) (m : SMap α) (k : Nat) (x : α) (h : mwf d m = true) :
    mwf d (mset d m k x) = true := by
  unfold mset
  split
  · exact mwfFrom_merase d m k none h
  · rename_i hx
    exact mwfFrom_mput d _ k x hx none (not_mem_merase m k) (by simp) (mwfFrom_merase d m k none h)

theorem mwfFrom_filter [DecidableEq α] (d : α) (p : Nat × α → Bool) (m : SMap α) :
    ∀ lo, mwfFrom d lo m = true → mwfFrom d lo (m.filter p) = true := by
  induction m with
  | nil => intro lo _; cases lo <;> rfl
  | cons q t ih =>
    obtain ⟨i, v⟩ := q
    intro lo h
    by_cases hp : p (i, v)
    · rw [List.filter_cons_of_pos hp]
      cases lo <;> simp only [mwfFrom, Bool.and_eq_true] at h ⊢ <;> exact ⟨h.1, ih _ h.2⟩
    · rw [List.filter_cons_of_neg hp]
      cases lo with
      | none =>
        simp only [mwfFrom, Bool.and_eq_true] at h
        have := ih _ h.2
        revert this
        cases List.filter p t with
        | nil => intro; rfl
        | cons r u => obtain ⟨j, w⟩ := r; simp only [mwfFrom, Bool.and_eq_true]; exact fun g => ⟨g.1.2, g.2⟩
      | some lo =>
        simp only [mwfFrom, Bool.and_eq_true, decide_eq_true_eq] at h
        have := ih _ h.2
        revert this
        cases List.filter p t with
        | nil => intro; rfl
        | cons r u =>
          obtain ⟨j, w⟩ := r
          simp only [mwfFrom, Bool.and_eq_true, decide_eq_true_eq]
          exact fun g => ⟨⟨by omega, g.1.2⟩, g.2⟩

/-- Leaving entries out keeps the canonical form. -/
theorem mwf_filter [DecidableEq α] (d : α) (p : Nat × α → Bool) (m : SMap α) (h : mwf d m = true) :
    mwf d (m.filter p) = true := mwfFrom_filter d p m none h

/-! ### Memory -/

theorem readByte_writeByte (m : List Host.Cell) (a b : Nat) (x : Byte) :
    readByte (writeByte m a x) b = if b = a then x else readByte m b := mget_mset 0 m a b x

theorem wf_writeByte (m : List Host.Cell) (a : Nat) (x : Byte) (h : Memory.wf m = true) :
    Memory.wf (writeByte m a x) = true := mwf_mset 0 m a x h

/-- Writing bytes keeps memory's canonical form. -/
theorem wf_writeBytes (bs : List Byte) : ∀ (m : List Host.Cell) (a : Nat), Memory.wf m = true →
    Memory.wf (writeBytes m a bs) = true := by
  induction bs with
  | nil => exact fun _ _ h => h
  | cons x xs ih => exact fun m a h => ih _ _ (wf_writeByte m a x h)

theorem wf_writeLE (m : List Host.Cell) (a n v : Nat) (h : Memory.wf m = true) : Memory.wf (writeLE m a n v) = true :=
  wf_writeBytes _ _ _ h

/-- Every byte outside the written ones is left alone, and those written read back. -/
theorem readByte_writeBytes (bs : List Byte) : ∀ (m : List Host.Cell) (a b : Nat),
    readByte (writeBytes m a bs) b = if a ≤ b ∧ b < a + bs.length then bs.getD (b - a) 0 else readByte m b := by
  induction bs with
  | nil => intro m a b; rw [if_neg (by simp)]; rfl
  | cons x xs ih =>
    intro m a b
    unfold writeBytes
    rw [ih, readByte_writeByte]
    by_cases h1 : b = a
    · subst h1
      have : ¬ (b + 1 ≤ b ∧ b < b + 1 + xs.length) := by omega
      have h2 : b ≤ b ∧ b < b + (x :: xs).length := by simp
      rw [if_neg this, if_pos rfl, if_pos h2]
      simp
    · by_cases h2 : a + 1 ≤ b ∧ b < a + 1 + xs.length
      · have h3 : a ≤ b ∧ b < a + (x :: xs).length := by simp only [List.length_cons]; omega
        rw [if_pos h2, if_pos h3]
        obtain ⟨k, hk⟩ : ∃ k, b - a = k + 1 := ⟨b - a - 1, by omega⟩
        have : b - (a + 1) = k := by omega
        rw [this, hk]; simp
      · have h3 : ¬ (a ≤ b ∧ b < a + (x :: xs).length) := by simp only [List.length_cons]; omega
        rw [if_neg h2, if_neg h1, if_neg h3]

theorem readByte_writeBytes_outside (m : List Host.Cell) (a b : Nat) (bs : List Byte) (h : b < a ∨ a + bs.length ≤ b) :
    readByte (writeBytes m a bs) b = readByte m b := by
  rw [readByte_writeBytes, if_neg (by omega)]

@[simp] theorem length_natToBytes (n v : Nat) : (natToBytes n v).length = n := by
  induction n generalizing v with
  | zero => rfl
  | succ n ih => simp [natToBytes, ih]

end Sys2Proof.Laws
end

