-- ==== Sys2Proof/Laws/Groups.lean ====
section
/-! SUPPORT. Cores, groups, tenants, queue slots and queue pairs read after an update, and what the shared operations over
the slots of a core leave as it was. -/

namespace Sys2Proof.Laws
open Sys2Proof Sys2Proof.Machine Sys2Proof.Safety

/-! ### Reads after updates -/

theorem getCore_setCore (s : State) (c d : Nat) (k : Core) : getCore (setCore s c k) d = if d = c then k else getCore s d :=
  mget_mset ({} : Core) s.cores c d k

theorem getCore_updCore (s : State) (c d : Nat) (h : Core → Core) :
    getCore (updCore s c h) d = if d = c then h (getCore s c) else getCore s d := getCore_setCore ..

@[simp] theorem getCore_updCore_same (s : State) (c : Nat) (h : Core → Core) : getCore (updCore s c h) c = h (getCore s c) := by
  rw [getCore_updCore, if_pos rfl]

theorem getCore_updCore_ne (s : State) {c d : Nat} (h : Core → Core) (hd : d ≠ c) : getCore (updCore s c h) d = getCore s d := by
  rw [getCore_updCore, if_neg hd]

theorem group_withGroup (k : Core) (x y : Nat) (g : Group) : (k.withGroup x g).group y = if y = x then g else k.group y :=
  mget_mset ({} : Group) k.groups x y g

@[simp] theorem group_withGroup_same (k : Core) (x : Nat) (g : Group) : (k.withGroup x g).group x = g := by
  rw [group_withGroup, if_pos rfl]

theorem getGroup_updGroup (s : State) (c x d y : Nat) (h : Group → Group) :
    getGroup (updGroup s c x h) d y = if d = c ∧ y = x then h (getGroup s c x) else getGroup s d y := by
  unfold updGroup setGroup
  rw [getGroup, getCore_updCore]
  split
  · rename_i hd
    subst hd
    rw [group_withGroup]
    by_cases hy : y = x <;> simp [hy, getGroup]
  · rename_i hd
    rw [if_neg (fun e => hd e.1)]
    rfl

@[simp] theorem getGroup_updGroup_same (s : State) (c x : Nat) (h : Group → Group) :
    getGroup (updGroup s c x h) c x = h (getGroup s c x) := by rw [getGroup_updGroup, if_pos ⟨rfl, rfl⟩]

theorem getTenant_setTenant (s : State) (t u : Nat) (x : Tenant) :
    getTenant (setTenant s t x) u = if u = t then x else getTenant s u := mget_mset ({} : Tenant) s.tenants t u x

theorem getQueue_setQueue (s : State) (q p : Nat) (x : QSlot) :
    getQueue (setQueue s q x) p = if p = q then x else getQueue s p := mget_mset ({} : QSlot) s.queues q p x

theorem getQp_setQp (s : State) (q p : Nat) (x : Qp) : getQp (setQp s q x) p = if p = q then x else getQp s p :=
  mget_mset ({} : Qp) s.hub.qps q p x

theorem regAt_setReg (g : Group) (r l : Nat) (v : Word) (r' l' : Nat) :
    regAt (setReg g r l v) r' l' = if cellKey r' l' = cellKey r l then v else regAt g r' l' :=
  mget_mset 0 g.regs _ _ v

/-- Registers and lanes have cells of their own. -/
theorem cellKey_inj {r l r' l' : Nat} (hl : l < 64) (hl' : l' < 64) : cellKey r l = cellKey r' l' ↔ r = r' ∧ l = l' := by
  unfold cellKey
  omega

/-! ### Updates over slots -/

/-- What an update over distinct slots does to each slot. -/
theorem group_updSlots (xs : List Nat) (h : Group → Group) : ∀ (k : Core) (y : Nat), xs.Nodup →
    (updSlots k xs h).group y = if y ∈ xs then h (k.group y) else k.group y := by
  induction xs with
  | nil => intro k y _; simp [updSlots]
  | cons x xs ih =>
    intro k y hn
    rw [List.nodup_cons] at hn
    have := ih (k.withGroup x (h (k.group x))) y hn.2
    rw [updSlots, List.foldl_cons]
    rw [updSlots] at this
    rw [this, group_withGroup]
    by_cases hy : y = x
    · subst hy; simp [hn.1]
    · simp [hy]

/-- An update over slots leaves the rest of the core as it was. -/
theorem updSlots_core (xs : List Nat) (h : Group → Group) : ∀ k : Core, updSlots k xs h = { k with groups := (updSlots k xs h).groups } := by
  induction xs with
  | nil => exact fun _ => rfl
  | cons x xs ih =>
    intro k
    have := ih (k.withGroup x (h (k.group x)))
    rw [updSlots, List.foldl_cons]
    rw [updSlots] at this
    exact this

/-! ### Raising a trap -/

/-- Step 1 of R281: nothing outside the core changes but the number given; one more raised trap, and its groups stopped,
unless the handler slot itself traps. -/
theorem raiseTrap_eq (s : State) (c : Nat) (r : TrapReq) :
    raiseTrap s c r = { s with cores := (raiseTrap s c r).cores, serial := s.serial + 1 } ∧
    (∀ d, d ≠ c → getCore (raiseTrap s c r) d = getCore s d) ∧
    (r.slots.contains handlerCtx = false → (getCore (raiseTrap s c r) c).raised = (getCore s c).raised ++
      [⟨s.serial, r.cls, r.info, r.addr, r.pc, r.slots, r.origin, r.replay, r.masks, false⟩]) ∧
    (r.slots.contains handlerCtx = false → r.slots.Nodup → ∀ y, getGroup (raiseTrap s c r) c y =
      if y ∈ r.slots then stopGroup s.serial (getGroup s c y) else getGroup s c y) := by
  refine ⟨?_, fun d hd => ?_, fun hh => ?_, fun hh hn y => ?_⟩
  · unfold raiseTrap
    split <;> rfl
  · unfold raiseTrap
    split <;> exact getCore_updCore_ne _ _ hd
  · unfold raiseTrap
    rw [if_neg (by rw [hh]; decide)]
    rw [getCore_updCore_same]
    dsimp only
    rw [updSlots_core]
    rfl
  · unfold raiseTrap
    rw [if_neg (by rw [hh]; decide)]
    rw [getGroup, getCore_updCore_same]
    exact group_updSlots _ _ _ _ hn

/-- A trap of the handler slot itself is a fault in the handler (R279). -/
theorem raiseTrap_handler (s : State) (c : Nat) (r : TrapReq) (h : r.slots.contains handlerCtx = true) :
    getCore (raiseTrap s c r) c = handlerFault (getCore s c) := by
  unfold raiseTrap
  rw [if_pos h]
  exact getCore_updCore_same _ _ _

end Sys2Proof.Laws
end

