-- ==== Sys2Proof/Laws/State.lean ====
section
/-! SUPPORT. What each update of the state does to each of its fields. -/

namespace Sys2Proof.Machine
open Sys2Proof

@[simp] theorem setCore_agenda (s : State) (c : Nat) (k : Core) : (setCore s c k).agenda = s.agenda := rfl
@[simp] theorem setCore_cur (s : State) (c : Nat) (k : Core) : (setCore s c k).cur = s.cur := rfl
@[simp] theorem setCore_free (s : State) (c : Nat) (k : Core) : (setCore s c k).free = s.free := rfl
@[simp] theorem setCore_serial (s : State) (c : Nat) (k : Core) : (setCore s c k).serial = s.serial := rfl
@[simp] theorem setCore_mem (s : State) (c : Nat) (k : Core) : (setCore s c k).mem = s.mem := rfl
@[simp] theorem setCore_dram (s : State) (c : Nat) (k : Core) : (setCore s c k).dram = s.dram := rfl
@[simp] theorem setCore_spm (s : State) (c : Nat) (k : Core) : (setCore s c k).spm = s.spm := rfl
@[simp] theorem setCore_stamps (s : State) (c : Nat) (k : Core) : (setCore s c k).stamps = s.stamps := rfl
@[simp] theorem setCore_trails (s : State) (c : Nat) (k : Core) : (setCore s c k).trails = s.trails := rfl
@[simp] theorem setCore_hostSeen (s : State) (c : Nat) (k : Core) : (setCore s c k).hostSeen = s.hostSeen := rfl
@[simp] theorem setCore_poison (s : State) (c : Nat) (k : Core) : (setCore s c k).poison = s.poison := rfl
@[simp] theorem setCore_badSpm (s : State) (c : Nat) (k : Core) : (setCore s c k).badSpm = s.badSpm := rfl
@[simp] theorem setCore_corrected (s : State) (c : Nat) (k : Core) : (setCore s c k).corrected = s.corrected := rfl
@[simp] theorem setCore_l2 (s : State) (c : Nat) (k : Core) : (setCore s c k).l2 = s.l2 := rfl
@[simp] theorem setCore_frameTag (s : State) (c : Nat) (k : Core) : (setCore s c k).frameTag = s.frameTag := rfl
@[simp] theorem setCore_bankTag (s : State) (c : Nat) (k : Core) : (setCore s c k).bankTag = s.bankTag := rfl
@[simp] theorem setCore_chunkTag (s : State) (c : Nat) (k : Core) : (setCore s c k).chunkTag = s.chunkTag := rfl
@[simp] theorem setCore_laneTag (s : State) (c : Nat) (k : Core) : (setCore s c k).laneTag = s.laneTag := rfl
@[simp] theorem setCore_fenced (s : State) (c : Nat) (k : Core) : (setCore s c k).fenced = s.fenced := rfl
@[simp] theorem setCore_xlat (s : State) (c : Nat) (k : Core) : (setCore s c k).xlat = s.xlat := rfl
@[simp] theorem setCore_xlPtr (s : State) (c : Nat) (k : Core) : (setCore s c k).xlPtr = s.xlPtr := rfl
@[simp] theorem setCore_walks (s : State) (c : Nat) (k : Core) : (setCore s c k).walks = s.walks := rfl
@[simp] theorem setCore_misses (s : State) (c : Nat) (k : Core) : (setCore s c k).misses = s.misses := rfl
@[simp] theorem setCore_dies (s : State) (c : Nat) (k : Core) : (setCore s c k).dies = s.dies := rfl
@[simp] theorem setCore_ahead (s : State) (c : Nat) (k : Core) : (setCore s c k).ahead = s.ahead := rfl
@[simp] theorem setCore_cores (s : State) (c : Nat) (k : Core) : (setCore s c k).cores = mset {} s.cores c k := rfl
@[simp] theorem setCore_tables (s : State) (c : Nat) (k : Core) : (setCore s c k).tables = s.tables := rfl
@[simp] theorem setCore_biases (s : State) (c : Nat) (k : Core) : (setCore s c k).biases = s.biases := rfl
@[simp] theorem setCore_mxReqs (s : State) (c : Nat) (k : Core) : (setCore s c k).mxReqs = s.mxReqs := rfl
@[simp] theorem setCore_mxOps (s : State) (c : Nat) (k : Core) : (setCore s c k).mxOps = s.mxOps := rfl
@[simp] theorem setCore_copies (s : State) (c : Nat) (k : Core) : (setCore s c k).copies = s.copies := rfl
@[simp] theorem setCore_engines (s : State) (c : Nat) (k : Core) : (setCore s c k).engines = s.engines := rfl
@[simp] theorem setCore_budget (s : State) (c : Nat) (k : Core) : (setCore s c k).budget = s.budget := rfl
@[simp] theorem setCore_cedes (s : State) (c : Nat) (k : Core) : (setCore s c k).cedes = s.cedes := rfl
@[simp] theorem setCore_tenants (s : State) (c : Nat) (k : Core) : (setCore s c k).tenants = s.tenants := rfl
@[simp] theorem setCore_queues (s : State) (c : Nat) (k : Core) : (setCore s c k).queues = s.queues := rfl
@[simp] theorem setCore_launches (s : State) (c : Nat) (k : Core) : (setCore s c k).launches = s.launches := rfl
@[simp] theorem setCore_codeTable (s : State) (c : Nat) (k : Core) : (setCore s c k).codeTable = s.codeTable := rfl
@[simp] theorem setCore_saved (s : State) (c : Nat) (k : Core) : (setCore s c k).saved = s.saved := rfl
@[simp] theorem setCore_preempts (s : State) (c : Nat) (k : Core) : (setCore s c k).preempts = s.preempts := rfl
@[simp] theorem setCore_wrote (s : State) (c : Nat) (k : Core) : (setCore s c k).wrote = s.wrote := rfl
@[simp] theorem setCore_hub (s : State) (c : Nat) (k : Core) : (setCore s c k).hub = s.hub := rfl
@[simp] theorem setCore_mgmt (s : State) (c : Nat) (k : Core) : (setCore s c k).mgmt = s.mgmt := rfl

@[simp] theorem updCore_agenda (s : State) (c : Nat) (h : Core → Core) : (updCore s c h).agenda = s.agenda := rfl
@[simp] theorem updCore_cur (s : State) (c : Nat) (h : Core → Core) : (updCore s c h).cur = s.cur := rfl
@[simp] theorem updCore_free (s : State) (c : Nat) (h : Core → Core) : (updCore s c h).free = s.free := rfl
@[simp] theorem updCore_serial (s : State) (c : Nat) (h : Core → Core) : (updCore s c h).serial = s.serial := rfl
@[simp] theorem updCore_mem (s : State) (c : Nat) (h : Core → Core) : (updCore s c h).mem = s.mem := rfl
@[simp] theorem updCore_dram (s : State) (c : Nat) (h : Core → Core) : (updCore s c h).dram = s.dram := rfl
@[simp] theorem updCore_spm (s : State) (c : Nat) (h : Core → Core) : (updCore s c h).spm = s.spm := rfl
@[simp] theorem updCore_stamps (s : State) (c : Nat) (h : Core → Core) : (updCore s c h).stamps = s.stamps := rfl
@[simp] theorem updCore_trails (s : State) (c : Nat) (h : Core → Core) : (updCore s c h).trails = s.trails := rfl
@[simp] theorem updCore_hostSeen (s : State) (c : Nat) (h : Core → Core) : (updCore s c h).hostSeen = s.hostSeen := rfl
@[simp] theorem updCore_poison (s : State) (c : Nat) (h : Core → Core) : (updCore s c h).poison = s.poison := rfl
@[simp] theorem updCore_badSpm (s : State) (c : Nat) (h : Core → Core) : (updCore s c h).badSpm = s.badSpm := rfl
@[simp] theorem updCore_corrected (s : State) (c : Nat) (h : Core → Core) : (updCore s c h).corrected = s.corrected := rfl
@[simp] theorem updCore_l2 (s : State) (c : Nat) (h : Core → Core) : (updCore s c h).l2 = s.l2 := rfl
@[simp] theorem updCore_frameTag (s : State) (c : Nat) (h : Core → Core) : (updCore s c h).frameTag = s.frameTag := rfl
@[simp] theorem updCore_bankTag (s : State) (c : Nat) (h : Core → Core) : (updCore s c h).bankTag = s.bankTag := rfl
@[simp] theorem updCore_chunkTag (s : State) (c : Nat) (h : Core → Core) : (updCore s c h).chunkTag = s.chunkTag := rfl
@[simp] theorem updCore_laneTag (s : State) (c : Nat) (h : Core → Core) : (updCore s c h).laneTag = s.laneTag := rfl
@[simp] theorem updCore_fenced (s : State) (c : Nat) (h : Core → Core) : (updCore s c h).fenced = s.fenced := rfl
@[simp] theorem updCore_xlat (s : State) (c : Nat) (h : Core → Core) : (updCore s c h).xlat = s.xlat := rfl
@[simp] theorem updCore_xlPtr (s : State) (c : Nat) (h : Core → Core) : (updCore s c h).xlPtr = s.xlPtr := rfl
@[simp] theorem updCore_walks (s : State) (c : Nat) (h : Core → Core) : (updCore s c h).walks = s.walks := rfl
@[simp] theorem updCore_misses (s : State) (c : Nat) (h : Core → Core) : (updCore s c h).misses = s.misses := rfl
@[simp] theorem updCore_dies (s : State) (c : Nat) (h : Core → Core) : (updCore s c h).dies = s.dies := rfl
@[simp] theorem updCore_ahead (s : State) (c : Nat) (h : Core → Core) : (updCore s c h).ahead = s.ahead := rfl
@[simp] theorem updCore_cores (s : State) (c : Nat) (h : Core → Core) : (updCore s c h).cores = mset {} s.cores c (h (getCore s c)) := rfl
@[simp] theorem updCore_tables (s : State) (c : Nat) (h : Core → Core) : (updCore s c h).tables = s.tables := rfl
@[simp] theorem updCore_biases (s : State) (c : Nat) (h : Core → Core) : (updCore s c h).biases = s.biases := rfl
@[simp] theorem updCore_mxReqs (s : State) (c : Nat) (h : Core → Core) : (updCore s c h).mxReqs = s.mxReqs := rfl
@[simp] theorem updCore_mxOps (s : State) (c : Nat) (h : Core → Core) : (updCore s c h).mxOps = s.mxOps := rfl
@[simp] theorem updCore_copies (s : State) (c : Nat) (h : Core → Core) : (updCore s c h).copies = s.copies := rfl
@[simp] theorem updCore_engines (s : State) (c : Nat) (h : Core → Core) : (updCore s c h).engines = s.engines := rfl
@[simp] theorem updCore_budget (s : State) (c : Nat) (h : Core → Core) : (updCore s c h).budget = s.budget := rfl
@[simp] theorem updCore_cedes (s : State) (c : Nat) (h : Core → Core) : (updCore s c h).cedes = s.cedes := rfl
@[simp] theorem updCore_tenants (s : State) (c : Nat) (h : Core → Core) : (updCore s c h).tenants = s.tenants := rfl
@[simp] theorem updCore_queues (s : State) (c : Nat) (h : Core → Core) : (updCore s c h).queues = s.queues := rfl
@[simp] theorem updCore_launches (s : State) (c : Nat) (h : Core → Core) : (updCore s c h).launches = s.launches := rfl
@[simp] theorem updCore_codeTable (s : State) (c : Nat) (h : Core → Core) : (updCore s c h).codeTable = s.codeTable := rfl
@[simp] theorem updCore_saved (s : State) (c : Nat) (h : Core → Core) : (updCore s c h).saved = s.saved := rfl
@[simp] theorem updCore_preempts (s : State) (c : Nat) (h : Core → Core) : (updCore s c h).preempts = s.preempts := rfl
@[simp] theorem updCore_wrote (s : State) (c : Nat) (h : Core → Core) : (updCore s c h).wrote = s.wrote := rfl
@[simp] theorem updCore_hub (s : State) (c : Nat) (h : Core → Core) : (updCore s c h).hub = s.hub := rfl
@[simp] theorem updCore_mgmt (s : State) (c : Nat) (h : Core → Core) : (updCore s c h).mgmt = s.mgmt := rfl

@[simp] theorem setGroup_agenda (s : State) (c x : Nat) (g : Group) : (setGroup s c x g).agenda = s.agenda := rfl
@[simp] theorem setGroup_cur (s : State) (c x : Nat) (g : Group) : (setGroup s c x g).cur = s.cur := rfl
@[simp] theorem setGroup_free (s : State) (c x : Nat) (g : Group) : (setGroup s c x g).free = s.free := rfl
@[simp] theorem setGroup_serial (s : State) (c x : Nat) (g : Group) : (setGroup s c x g).serial = s.serial := rfl
@[simp] theorem setGroup_mem (s : State) (c x : Nat) (g : Group) : (setGroup s c x g).mem = s.mem := rfl
@[simp] theorem setGroup_dram (s : State) (c x : Nat) (g : Group) : (setGroup s c x g).dram = s.dram := rfl
@[simp] theorem setGroup_spm (s : State) (c x : Nat) (g : Group) : (setGroup s c x g).spm = s.spm := rfl
@[simp] theorem setGroup_stamps (s : State) (c x : Nat) (g : Group) : (setGroup s c x g).stamps = s.stamps := rfl
@[simp] theorem setGroup_trails (s : State) (c x : Nat) (g : Group) : (setGroup s c x g).trails = s.trails := rfl
@[simp] theorem setGroup_hostSeen (s : State) (c x : Nat) (g : Group) : (setGroup s c x g).hostSeen = s.hostSeen := rfl
@[simp] theorem setGroup_poison (s : State) (c x : Nat) (g : Group) : (setGroup s c x g).poison = s.poison := rfl
@[simp] theorem setGroup_badSpm (s : State) (c x : Nat) (g : Group) : (setGroup s c x g).badSpm = s.badSpm := rfl
@[simp] theorem setGroup_corrected (s : State) (c x : Nat) (g : Group) : (setGroup s c x g).corrected = s.corrected := rfl
@[simp] theorem setGroup_l2 (s : State) (c x : Nat) (g : Group) : (setGroup s c x g).l2 = s.l2 := rfl
@[simp] theorem setGroup_frameTag (s : State) (c x : Nat) (g : Group) : (setGroup s c x g).frameTag = s.frameTag := rfl
@[simp] theorem setGroup_bankTag (s : State) (c x : Nat) (g : Group) : (setGroup s c x g).bankTag = s.bankTag := rfl
@[simp] theorem setGroup_chunkTag (s : State) (c x : Nat) (g : Group) : (setGroup s c x g).chunkTag = s.chunkTag := rfl
@[simp] theorem setGroup_laneTag (s : State) (c x : Nat) (g : Group) : (setGroup s c x g).laneTag = s.laneTag := rfl
@[simp] theorem setGroup_fenced (s : State) (c x : Nat) (g : Group) : (setGroup s c x g).fenced = s.fenced := rfl
@[simp] theorem setGroup_xlat (s : State) (c x : Nat) (g : Group) : (setGroup s c x g).xlat = s.xlat := rfl
@[simp] theorem setGroup_xlPtr (s : State) (c x : Nat) (g : Group) : (setGroup s c x g).xlPtr = s.xlPtr := rfl
@[simp] theorem setGroup_walks (s : State) (c x : Nat) (g : Group) : (setGroup s c x g).walks = s.walks := rfl
@[simp] theorem setGroup_misses (s : State) (c x : Nat) (g : Group) : (setGroup s c x g).misses = s.misses := rfl
@[simp] theorem setGroup_dies (s : State) (c x : Nat) (g : Group) : (setGroup s c x g).dies = s.dies := rfl
@[simp] theorem setGroup_ahead (s : State) (c x : Nat) (g : Group) : (setGroup s c x g).ahead = s.ahead := rfl
@[simp] theorem setGroup_cores (s : State) (c x : Nat) (g : Group) : (setGroup s c x g).cores = mset {} s.cores c ((getCore s c).withGroup x g) := rfl
@[simp] theorem setGroup_tables (s : State) (c x : Nat) (g : Group) : (setGroup s c x g).tables = s.tables := rfl
@[simp] theorem setGroup_biases (s : State) (c x : Nat) (g : Group) : (setGroup s c x g).biases = s.biases := rfl
@[simp] theorem setGroup_mxReqs (s : State) (c x : Nat) (g : Group) : (setGroup s c x g).mxReqs = s.mxReqs := rfl
@[simp] theorem setGroup_mxOps (s : State) (c x : Nat) (g : Group) : (setGroup s c x g).mxOps = s.mxOps := rfl
@[simp] theorem setGroup_copies (s : State) (c x : Nat) (g : Group) : (setGroup s c x g).copies = s.copies := rfl
@[simp] theorem setGroup_engines (s : State) (c x : Nat) (g : Group) : (setGroup s c x g).engines = s.engines := rfl
@[simp] theorem setGroup_budget (s : State) (c x : Nat) (g : Group) : (setGroup s c x g).budget = s.budget := rfl
@[simp] theorem setGroup_cedes (s : State) (c x : Nat) (g : Group) : (setGroup s c x g).cedes = s.cedes := rfl
@[simp] theorem setGroup_tenants (s : State) (c x : Nat) (g : Group) : (setGroup s c x g).tenants = s.tenants := rfl
@[simp] theorem setGroup_queues (s : State) (c x : Nat) (g : Group) : (setGroup s c x g).queues = s.queues := rfl
@[simp] theorem setGroup_launches (s : State) (c x : Nat) (g : Group) : (setGroup s c x g).launches = s.launches := rfl
@[simp] theorem setGroup_codeTable (s : State) (c x : Nat) (g : Group) : (setGroup s c x g).codeTable = s.codeTable := rfl
@[simp] theorem setGroup_saved (s : State) (c x : Nat) (g : Group) : (setGroup s c x g).saved = s.saved := rfl
@[simp] theorem setGroup_preempts (s : State) (c x : Nat) (g : Group) : (setGroup s c x g).preempts = s.preempts := rfl
@[simp] theorem setGroup_wrote (s : State) (c x : Nat) (g : Group) : (setGroup s c x g).wrote = s.wrote := rfl
@[simp] theorem setGroup_hub (s : State) (c x : Nat) (g : Group) : (setGroup s c x g).hub = s.hub := rfl
@[simp] theorem setGroup_mgmt (s : State) (c x : Nat) (g : Group) : (setGroup s c x g).mgmt = s.mgmt := rfl

@[simp] theorem updGroup_agenda (s : State) (c x : Nat) (h : Group → Group) : (updGroup s c x h).agenda = s.agenda := rfl
@[simp] theorem updGroup_cur (s : State) (c x : Nat) (h : Group → Group) : (updGroup s c x h).cur = s.cur := rfl
@[simp] theorem updGroup_free (s : State) (c x : Nat) (h : Group → Group) : (updGroup s c x h).free = s.free := rfl
@[simp] theorem updGroup_serial (s : State) (c x : Nat) (h : Group → Group) : (updGroup s c x h).serial = s.serial := rfl
@[simp] theorem updGroup_mem (s : State) (c x : Nat) (h : Group → Group) : (updGroup s c x h).mem = s.mem := rfl
@[simp] theorem updGroup_dram (s : State) (c x : Nat) (h : Group → Group) : (updGroup s c x h).dram = s.dram := rfl
@[simp] theorem updGroup_spm (s : State) (c x : Nat) (h : Group → Group) : (updGroup s c x h).spm = s.spm := rfl
@[simp] theorem updGroup_stamps (s : State) (c x : Nat) (h : Group → Group) : (updGroup s c x h).stamps = s.stamps := rfl
@[simp] theorem updGroup_trails (s : State) (c x : Nat) (h : Group → Group) : (updGroup s c x h).trails = s.trails := rfl
@[simp] theorem updGroup_hostSeen (s : State) (c x : Nat) (h : Group → Group) : (updGroup s c x h).hostSeen = s.hostSeen := rfl
@[simp] theorem updGroup_poison (s : State) (c x : Nat) (h : Group → Group) : (updGroup s c x h).poison = s.poison := rfl
@[simp] theorem updGroup_badSpm (s : State) (c x : Nat) (h : Group → Group) : (updGroup s c x h).badSpm = s.badSpm := rfl
@[simp] theorem updGroup_corrected (s : State) (c x : Nat) (h : Group → Group) : (updGroup s c x h).corrected = s.corrected := rfl
@[simp] theorem updGroup_l2 (s : State) (c x : Nat) (h : Group → Group) : (updGroup s c x h).l2 = s.l2 := rfl
@[simp] theorem updGroup_frameTag (s : State) (c x : Nat) (h : Group → Group) : (updGroup s c x h).frameTag = s.frameTag := rfl
@[simp] theorem updGroup_bankTag (s : State) (c x : Nat) (h : Group → Group) : (updGroup s c x h).bankTag = s.bankTag := rfl
@[simp] theorem updGroup_chunkTag (s : State) (c x : Nat) (h : Group → Group) : (updGroup s c x h).chunkTag = s.chunkTag := rfl
@[simp] theorem updGroup_laneTag (s : State) (c x : Nat) (h : Group → Group) : (updGroup s c x h).laneTag = s.laneTag := rfl
@[simp] theorem updGroup_fenced (s : State) (c x : Nat) (h : Group → Group) : (updGroup s c x h).fenced = s.fenced := rfl
@[simp] theorem updGroup_xlat (s : State) (c x : Nat) (h : Group → Group) : (updGroup s c x h).xlat = s.xlat := rfl
@[simp] theorem updGroup_xlPtr (s : State) (c x : Nat) (h : Group → Group) : (updGroup s c x h).xlPtr = s.xlPtr := rfl
@[simp] theorem updGroup_walks (s : State) (c x : Nat) (h : Group → Group) : (updGroup s c x h).walks = s.walks := rfl
@[simp] theorem updGroup_misses (s : State) (c x : Nat) (h : Group → Group) : (updGroup s c x h).misses = s.misses := rfl
@[simp] theorem updGroup_dies (s : State) (c x : Nat) (h : Group → Group) : (updGroup s c x h).dies = s.dies := rfl
@[simp] theorem updGroup_ahead (s : State) (c x : Nat) (h : Group → Group) : (updGroup s c x h).ahead = s.ahead := rfl
@[simp] theorem updGroup_cores (s : State) (c x : Nat) (h : Group → Group) : (updGroup s c x h).cores = mset {} s.cores c ((getCore s c).withGroup x (h ((getCore s c).group x))) := rfl
@[simp] theorem updGroup_tables (s : State) (c x : Nat) (h : Group → Group) : (updGroup s c x h).tables = s.tables := rfl
@[simp] theorem updGroup_biases (s : State) (c x : Nat) (h : Group → Group) : (updGroup s c x h).biases = s.biases := rfl
@[simp] theorem updGroup_mxReqs (s : State) (c x : Nat) (h : Group → Group) : (updGroup s c x h).mxReqs = s.mxReqs := rfl
@[simp] theorem updGroup_mxOps (s : State) (c x : Nat) (h : Group → Group) : (updGroup s c x h).mxOps = s.mxOps := rfl
@[simp] theorem updGroup_copies (s : State) (c x : Nat) (h : Group → Group) : (updGroup s c x h).copies = s.copies := rfl
@[simp] theorem updGroup_engines (s : State) (c x : Nat) (h : Group → Group) : (updGroup s c x h).engines = s.engines := rfl
@[simp] theorem updGroup_budget (s : State) (c x : Nat) (h : Group → Group) : (updGroup s c x h).budget = s.budget := rfl
@[simp] theorem updGroup_cedes (s : State) (c x : Nat) (h : Group → Group) : (updGroup s c x h).cedes = s.cedes := rfl
@[simp] theorem updGroup_tenants (s : State) (c x : Nat) (h : Group → Group) : (updGroup s c x h).tenants = s.tenants := rfl
@[simp] theorem updGroup_queues (s : State) (c x : Nat) (h : Group → Group) : (updGroup s c x h).queues = s.queues := rfl
@[simp] theorem updGroup_launches (s : State) (c x : Nat) (h : Group → Group) : (updGroup s c x h).launches = s.launches := rfl
@[simp] theorem updGroup_codeTable (s : State) (c x : Nat) (h : Group → Group) : (updGroup s c x h).codeTable = s.codeTable := rfl
@[simp] theorem updGroup_saved (s : State) (c x : Nat) (h : Group → Group) : (updGroup s c x h).saved = s.saved := rfl
@[simp] theorem updGroup_preempts (s : State) (c x : Nat) (h : Group → Group) : (updGroup s c x h).preempts = s.preempts := rfl
@[simp] theorem updGroup_wrote (s : State) (c x : Nat) (h : Group → Group) : (updGroup s c x h).wrote = s.wrote := rfl
@[simp] theorem updGroup_hub (s : State) (c x : Nat) (h : Group → Group) : (updGroup s c x h).hub = s.hub := rfl
@[simp] theorem updGroup_mgmt (s : State) (c x : Nat) (h : Group → Group) : (updGroup s c x h).mgmt = s.mgmt := rfl

@[simp] theorem setDie_agenda (s : State) (d : Nat) (x : Die) : (setDie s d x).agenda = s.agenda := rfl
@[simp] theorem setDie_cur (s : State) (d : Nat) (x : Die) : (setDie s d x).cur = s.cur := rfl
@[simp] theorem setDie_free (s : State) (d : Nat) (x : Die) : (setDie s d x).free = s.free := rfl
@[simp] theorem setDie_serial (s : State) (d : Nat) (x : Die) : (setDie s d x).serial = s.serial := rfl
@[simp] theorem setDie_mem (s : State) (d : Nat) (x : Die) : (setDie s d x).mem = s.mem := rfl
@[simp] theorem setDie_dram (s : State) (d : Nat) (x : Die) : (setDie s d x).dram = s.dram := rfl
@[simp] theorem setDie_spm (s : State) (d : Nat) (x : Die) : (setDie s d x).spm = s.spm := rfl
@[simp] theorem setDie_stamps (s : State) (d : Nat) (x : Die) : (setDie s d x).stamps = s.stamps := rfl
@[simp] theorem setDie_trails (s : State) (d : Nat) (x : Die) : (setDie s d x).trails = s.trails := rfl
@[simp] theorem setDie_hostSeen (s : State) (d : Nat) (x : Die) : (setDie s d x).hostSeen = s.hostSeen := rfl
@[simp] theorem setDie_poison (s : State) (d : Nat) (x : Die) : (setDie s d x).poison = s.poison := rfl
@[simp] theorem setDie_badSpm (s : State) (d : Nat) (x : Die) : (setDie s d x).badSpm = s.badSpm := rfl
@[simp] theorem setDie_corrected (s : State) (d : Nat) (x : Die) : (setDie s d x).corrected = s.corrected := rfl
@[simp] theorem setDie_l2 (s : State) (d : Nat) (x : Die) : (setDie s d x).l2 = s.l2 := rfl
@[simp] theorem setDie_frameTag (s : State) (d : Nat) (x : Die) : (setDie s d x).frameTag = s.frameTag := rfl
@[simp] theorem setDie_bankTag (s : State) (d : Nat) (x : Die) : (setDie s d x).bankTag = s.bankTag := rfl
@[simp] theorem setDie_chunkTag (s : State) (d : Nat) (x : Die) : (setDie s d x).chunkTag = s.chunkTag := rfl
@[simp] theorem setDie_laneTag (s : State) (d : Nat) (x : Die) : (setDie s d x).laneTag = s.laneTag := rfl
@[simp] theorem setDie_fenced (s : State) (d : Nat) (x : Die) : (setDie s d x).fenced = s.fenced := rfl
@[simp] theorem setDie_xlat (s : State) (d : Nat) (x : Die) : (setDie s d x).xlat = s.xlat := rfl
@[simp] theorem setDie_xlPtr (s : State) (d : Nat) (x : Die) : (setDie s d x).xlPtr = s.xlPtr := rfl
@[simp] theorem setDie_walks (s : State) (d : Nat) (x : Die) : (setDie s d x).walks = s.walks := rfl
@[simp] theorem setDie_misses (s : State) (d : Nat) (x : Die) : (setDie s d x).misses = s.misses := rfl
@[simp] theorem setDie_dies (s : State) (d : Nat) (x : Die) : (setDie s d x).dies = mset {} s.dies d x := rfl
@[simp] theorem setDie_ahead (s : State) (d : Nat) (x : Die) : (setDie s d x).ahead = s.ahead := rfl
@[simp] theorem setDie_cores (s : State) (d : Nat) (x : Die) : (setDie s d x).cores = s.cores := rfl
@[simp] theorem setDie_tables (s : State) (d : Nat) (x : Die) : (setDie s d x).tables = s.tables := rfl
@[simp] theorem setDie_biases (s : State) (d : Nat) (x : Die) : (setDie s d x).biases = s.biases := rfl
@[simp] theorem setDie_mxReqs (s : State) (d : Nat) (x : Die) : (setDie s d x).mxReqs = s.mxReqs := rfl
@[simp] theorem setDie_mxOps (s : State) (d : Nat) (x : Die) : (setDie s d x).mxOps = s.mxOps := rfl
@[simp] theorem setDie_copies (s : State) (d : Nat) (x : Die) : (setDie s d x).copies = s.copies := rfl
@[simp] theorem setDie_engines (s : State) (d : Nat) (x : Die) : (setDie s d x).engines = s.engines := rfl
@[simp] theorem setDie_budget (s : State) (d : Nat) (x : Die) : (setDie s d x).budget = s.budget := rfl
@[simp] theorem setDie_cedes (s : State) (d : Nat) (x : Die) : (setDie s d x).cedes = s.cedes := rfl
@[simp] theorem setDie_tenants (s : State) (d : Nat) (x : Die) : (setDie s d x).tenants = s.tenants := rfl
@[simp] theorem setDie_queues (s : State) (d : Nat) (x : Die) : (setDie s d x).queues = s.queues := rfl
@[simp] theorem setDie_launches (s : State) (d : Nat) (x : Die) : (setDie s d x).launches = s.launches := rfl
@[simp] theorem setDie_codeTable (s : State) (d : Nat) (x : Die) : (setDie s d x).codeTable = s.codeTable := rfl
@[simp] theorem setDie_saved (s : State) (d : Nat) (x : Die) : (setDie s d x).saved = s.saved := rfl
@[simp] theorem setDie_preempts (s : State) (d : Nat) (x : Die) : (setDie s d x).preempts = s.preempts := rfl
@[simp] theorem setDie_wrote (s : State) (d : Nat) (x : Die) : (setDie s d x).wrote = s.wrote := rfl
@[simp] theorem setDie_hub (s : State) (d : Nat) (x : Die) : (setDie s d x).hub = s.hub := rfl
@[simp] theorem setDie_mgmt (s : State) (d : Nat) (x : Die) : (setDie s d x).mgmt = s.mgmt := rfl

@[simp] theorem setTenant_agenda (s : State) (t : Nat) (x : Tenant) : (setTenant s t x).agenda = s.agenda := rfl
@[simp] theorem setTenant_cur (s : State) (t : Nat) (x : Tenant) : (setTenant s t x).cur = s.cur := rfl
@[simp] theorem setTenant_free (s : State) (t : Nat) (x : Tenant) : (setTenant s t x).free = s.free := rfl
@[simp] theorem setTenant_serial (s : State) (t : Nat) (x : Tenant) : (setTenant s t x).serial = s.serial := rfl
@[simp] theorem setTenant_mem (s : State) (t : Nat) (x : Tenant) : (setTenant s t x).mem = s.mem := rfl
@[simp] theorem setTenant_dram (s : State) (t : Nat) (x : Tenant) : (setTenant s t x).dram = s.dram := rfl
@[simp] theorem setTenant_spm (s : State) (t : Nat) (x : Tenant) : (setTenant s t x).spm = s.spm := rfl
@[simp] theorem setTenant_stamps (s : State) (t : Nat) (x : Tenant) : (setTenant s t x).stamps = s.stamps := rfl
@[simp] theorem setTenant_trails (s : State) (t : Nat) (x : Tenant) : (setTenant s t x).trails = s.trails := rfl
@[simp] theorem setTenant_hostSeen (s : State) (t : Nat) (x : Tenant) : (setTenant s t x).hostSeen = s.hostSeen := rfl
@[simp] theorem setTenant_poison (s : State) (t : Nat) (x : Tenant) : (setTenant s t x).poison = s.poison := rfl
@[simp] theorem setTenant_badSpm (s : State) (t : Nat) (x : Tenant) : (setTenant s t x).badSpm = s.badSpm := rfl
@[simp] theorem setTenant_corrected (s : State) (t : Nat) (x : Tenant) : (setTenant s t x).corrected = s.corrected := rfl
@[simp] theorem setTenant_l2 (s : State) (t : Nat) (x : Tenant) : (setTenant s t x).l2 = s.l2 := rfl
@[simp] theorem setTenant_frameTag (s : State) (t : Nat) (x : Tenant) : (setTenant s t x).frameTag = s.frameTag := rfl
@[simp] theorem setTenant_bankTag (s : State) (t : Nat) (x : Tenant) : (setTenant s t x).bankTag = s.bankTag := rfl
@[simp] theorem setTenant_chunkTag (s : State) (t : Nat) (x : Tenant) : (setTenant s t x).chunkTag = s.chunkTag := rfl
@[simp] theorem setTenant_laneTag (s : State) (t : Nat) (x : Tenant) : (setTenant s t x).laneTag = s.laneTag := rfl
@[simp] theorem setTenant_fenced (s : State) (t : Nat) (x : Tenant) : (setTenant s t x).fenced = s.fenced := rfl
@[simp] theorem setTenant_xlat (s : State) (t : Nat) (x : Tenant) : (setTenant s t x).xlat = s.xlat := rfl
@[simp] theorem setTenant_xlPtr (s : State) (t : Nat) (x : Tenant) : (setTenant s t x).xlPtr = s.xlPtr := rfl
@[simp] theorem setTenant_walks (s : State) (t : Nat) (x : Tenant) : (setTenant s t x).walks = s.walks := rfl
@[simp] theorem setTenant_misses (s : State) (t : Nat) (x : Tenant) : (setTenant s t x).misses = s.misses := rfl
@[simp] theorem setTenant_dies (s : State) (t : Nat) (x : Tenant) : (setTenant s t x).dies = s.dies := rfl
@[simp] theorem setTenant_ahead (s : State) (t : Nat) (x : Tenant) : (setTenant s t x).ahead = s.ahead := rfl
@[simp] theorem setTenant_cores (s : State) (t : Nat) (x : Tenant) : (setTenant s t x).cores = s.cores := rfl
@[simp] theorem setTenant_tables (s : State) (t : Nat) (x : Tenant) : (setTenant s t x).tables = s.tables := rfl
@[simp] theorem setTenant_biases (s : State) (t : Nat) (x : Tenant) : (setTenant s t x).biases = s.biases := rfl
@[simp] theorem setTenant_mxReqs (s : State) (t : Nat) (x : Tenant) : (setTenant s t x).mxReqs = s.mxReqs := rfl
@[simp] theorem setTenant_mxOps (s : State) (t : Nat) (x : Tenant) : (setTenant s t x).mxOps = s.mxOps := rfl
@[simp] theorem setTenant_copies (s : State) (t : Nat) (x : Tenant) : (setTenant s t x).copies = s.copies := rfl
@[simp] theorem setTenant_engines (s : State) (t : Nat) (x : Tenant) : (setTenant s t x).engines = s.engines := rfl
@[simp] theorem setTenant_budget (s : State) (t : Nat) (x : Tenant) : (setTenant s t x).budget = s.budget := rfl
@[simp] theorem setTenant_cedes (s : State) (t : Nat) (x : Tenant) : (setTenant s t x).cedes = s.cedes := rfl
@[simp] theorem setTenant_tenants (s : State) (t : Nat) (x : Tenant) : (setTenant s t x).tenants = mset {} s.tenants t x := rfl
@[simp] theorem setTenant_queues (s : State) (t : Nat) (x : Tenant) : (setTenant s t x).queues = s.queues := rfl
@[simp] theorem setTenant_launches (s : State) (t : Nat) (x : Tenant) : (setTenant s t x).launches = s.launches := rfl
@[simp] theorem setTenant_codeTable (s : State) (t : Nat) (x : Tenant) : (setTenant s t x).codeTable = s.codeTable := rfl
@[simp] theorem setTenant_saved (s : State) (t : Nat) (x : Tenant) : (setTenant s t x).saved = s.saved := rfl
@[simp] theorem setTenant_preempts (s : State) (t : Nat) (x : Tenant) : (setTenant s t x).preempts = s.preempts := rfl
@[simp] theorem setTenant_wrote (s : State) (t : Nat) (x : Tenant) : (setTenant s t x).wrote = s.wrote := rfl
@[simp] theorem setTenant_hub (s : State) (t : Nat) (x : Tenant) : (setTenant s t x).hub = s.hub := rfl
@[simp] theorem setTenant_mgmt (s : State) (t : Nat) (x : Tenant) : (setTenant s t x).mgmt = s.mgmt := rfl

@[simp] theorem setQueue_agenda (s : State) (q : Nat) (x : QSlot) : (setQueue s q x).agenda = s.agenda := rfl
@[simp] theorem setQueue_cur (s : State) (q : Nat) (x : QSlot) : (setQueue s q x).cur = s.cur := rfl
@[simp] theorem setQueue_free (s : State) (q : Nat) (x : QSlot) : (setQueue s q x).free = s.free := rfl
@[simp] theorem setQueue_serial (s : State) (q : Nat) (x : QSlot) : (setQueue s q x).serial = s.serial := rfl
@[simp] theorem setQueue_mem (s : State) (q : Nat) (x : QSlot) : (setQueue s q x).mem = s.mem := rfl
@[simp] theorem setQueue_dram (s : State) (q : Nat) (x : QSlot) : (setQueue s q x).dram = s.dram := rfl
@[simp] theorem setQueue_spm (s : State) (q : Nat) (x : QSlot) : (setQueue s q x).spm = s.spm := rfl
@[simp] theorem setQueue_stamps (s : State) (q : Nat) (x : QSlot) : (setQueue s q x).stamps = s.stamps := rfl
@[simp] theorem setQueue_trails (s : State) (q : Nat) (x : QSlot) : (setQueue s q x).trails = s.trails := rfl
@[simp] theorem setQueue_hostSeen (s : State) (q : Nat) (x : QSlot) : (setQueue s q x).hostSeen = s.hostSeen := rfl
@[simp] theorem setQueue_poison (s : State) (q : Nat) (x : QSlot) : (setQueue s q x).poison = s.poison := rfl
@[simp] theorem setQueue_badSpm (s : State) (q : Nat) (x : QSlot) : (setQueue s q x).badSpm = s.badSpm := rfl
@[simp] theorem setQueue_corrected (s : State) (q : Nat) (x : QSlot) : (setQueue s q x).corrected = s.corrected := rfl
@[simp] theorem setQueue_l2 (s : State) (q : Nat) (x : QSlot) : (setQueue s q x).l2 = s.l2 := rfl
@[simp] theorem setQueue_frameTag (s : State) (q : Nat) (x : QSlot) : (setQueue s q x).frameTag = s.frameTag := rfl
@[simp] theorem setQueue_bankTag (s : State) (q : Nat) (x : QSlot) : (setQueue s q x).bankTag = s.bankTag := rfl
@[simp] theorem setQueue_chunkTag (s : State) (q : Nat) (x : QSlot) : (setQueue s q x).chunkTag = s.chunkTag := rfl
@[simp] theorem setQueue_laneTag (s : State) (q : Nat) (x : QSlot) : (setQueue s q x).laneTag = s.laneTag := rfl
@[simp] theorem setQueue_fenced (s : State) (q : Nat) (x : QSlot) : (setQueue s q x).fenced = s.fenced := rfl
@[simp] theorem setQueue_xlat (s : State) (q : Nat) (x : QSlot) : (setQueue s q x).xlat = s.xlat := rfl
@[simp] theorem setQueue_xlPtr (s : State) (q : Nat) (x : QSlot) : (setQueue s q x).xlPtr = s.xlPtr := rfl
@[simp] theorem setQueue_walks (s : State) (q : Nat) (x : QSlot) : (setQueue s q x).walks = s.walks := rfl
@[simp] theorem setQueue_misses (s : State) (q : Nat) (x : QSlot) : (setQueue s q x).misses = s.misses := rfl
@[simp] theorem setQueue_dies (s : State) (q : Nat) (x : QSlot) : (setQueue s q x).dies = s.dies := rfl
@[simp] theorem setQueue_ahead (s : State) (q : Nat) (x : QSlot) : (setQueue s q x).ahead = s.ahead := rfl
@[simp] theorem setQueue_cores (s : State) (q : Nat) (x : QSlot) : (setQueue s q x).cores = s.cores := rfl
@[simp] theorem setQueue_tables (s : State) (q : Nat) (x : QSlot) : (setQueue s q x).tables = s.tables := rfl
@[simp] theorem setQueue_biases (s : State) (q : Nat) (x : QSlot) : (setQueue s q x).biases = s.biases := rfl
@[simp] theorem setQueue_mxReqs (s : State) (q : Nat) (x : QSlot) : (setQueue s q x).mxReqs = s.mxReqs := rfl
@[simp] theorem setQueue_mxOps (s : State) (q : Nat) (x : QSlot) : (setQueue s q x).mxOps = s.mxOps := rfl
@[simp] theorem setQueue_copies (s : State) (q : Nat) (x : QSlot) : (setQueue s q x).copies = s.copies := rfl
@[simp] theorem setQueue_engines (s : State) (q : Nat) (x : QSlot) : (setQueue s q x).engines = s.engines := rfl
@[simp] theorem setQueue_budget (s : State) (q : Nat) (x : QSlot) : (setQueue s q x).budget = s.budget := rfl
@[simp] theorem setQueue_cedes (s : State) (q : Nat) (x : QSlot) : (setQueue s q x).cedes = s.cedes := rfl
@[simp] theorem setQueue_tenants (s : State) (q : Nat) (x : QSlot) : (setQueue s q x).tenants = s.tenants := rfl
@[simp] theorem setQueue_queues (s : State) (q : Nat) (x : QSlot) : (setQueue s q x).queues = mset {} s.queues q x := rfl
@[simp] theorem setQueue_launches (s : State) (q : Nat) (x : QSlot) : (setQueue s q x).launches = s.launches := rfl
@[simp] theorem setQueue_codeTable (s : State) (q : Nat) (x : QSlot) : (setQueue s q x).codeTable = s.codeTable := rfl
@[simp] theorem setQueue_saved (s : State) (q : Nat) (x : QSlot) : (setQueue s q x).saved = s.saved := rfl
@[simp] theorem setQueue_preempts (s : State) (q : Nat) (x : QSlot) : (setQueue s q x).preempts = s.preempts := rfl
@[simp] theorem setQueue_wrote (s : State) (q : Nat) (x : QSlot) : (setQueue s q x).wrote = s.wrote := rfl
@[simp] theorem setQueue_hub (s : State) (q : Nat) (x : QSlot) : (setQueue s q x).hub = s.hub := rfl
@[simp] theorem setQueue_mgmt (s : State) (q : Nat) (x : QSlot) : (setQueue s q x).mgmt = s.mgmt := rfl

@[simp] theorem setHub_agenda (s : State) (h : Hub → Hub) : (setHub s h).agenda = s.agenda := rfl
@[simp] theorem setHub_cur (s : State) (h : Hub → Hub) : (setHub s h).cur = s.cur := rfl
@[simp] theorem setHub_free (s : State) (h : Hub → Hub) : (setHub s h).free = s.free := rfl
@[simp] theorem setHub_serial (s : State) (h : Hub → Hub) : (setHub s h).serial = s.serial := rfl
@[simp] theorem setHub_mem (s : State) (h : Hub → Hub) : (setHub s h).mem = s.mem := rfl
@[simp] theorem setHub_dram (s : State) (h : Hub → Hub) : (setHub s h).dram = s.dram := rfl
@[simp] theorem setHub_spm (s : State) (h : Hub → Hub) : (setHub s h).spm = s.spm := rfl
@[simp] theorem setHub_stamps (s : State) (h : Hub → Hub) : (setHub s h).stamps = s.stamps := rfl
@[simp] theorem setHub_trails (s : State) (h : Hub → Hub) : (setHub s h).trails = s.trails := rfl
@[simp] theorem setHub_hostSeen (s : State) (h : Hub → Hub) : (setHub s h).hostSeen = s.hostSeen := rfl
@[simp] theorem setHub_poison (s : State) (h : Hub → Hub) : (setHub s h).poison = s.poison := rfl
@[simp] theorem setHub_badSpm (s : State) (h : Hub → Hub) : (setHub s h).badSpm = s.badSpm := rfl
@[simp] theorem setHub_corrected (s : State) (h : Hub → Hub) : (setHub s h).corrected = s.corrected := rfl
@[simp] theorem setHub_l2 (s : State) (h : Hub → Hub) : (setHub s h).l2 = s.l2 := rfl
@[simp] theorem setHub_frameTag (s : State) (h : Hub → Hub) : (setHub s h).frameTag = s.frameTag := rfl
@[simp] theorem setHub_bankTag (s : State) (h : Hub → Hub) : (setHub s h).bankTag = s.bankTag := rfl
@[simp] theorem setHub_chunkTag (s : State) (h : Hub → Hub) : (setHub s h).chunkTag = s.chunkTag := rfl
@[simp] theorem setHub_laneTag (s : State) (h : Hub → Hub) : (setHub s h).laneTag = s.laneTag := rfl
@[simp] theorem setHub_fenced (s : State) (h : Hub → Hub) : (setHub s h).fenced = s.fenced := rfl
@[simp] theorem setHub_xlat (s : State) (h : Hub → Hub) : (setHub s h).xlat = s.xlat := rfl
@[simp] theorem setHub_xlPtr (s : State) (h : Hub → Hub) : (setHub s h).xlPtr = s.xlPtr := rfl
@[simp] theorem setHub_walks (s : State) (h : Hub → Hub) : (setHub s h).walks = s.walks := rfl
@[simp] theorem setHub_misses (s : State) (h : Hub → Hub) : (setHub s h).misses = s.misses := rfl
@[simp] theorem setHub_dies (s : State) (h : Hub → Hub) : (setHub s h).dies = s.dies := rfl
@[simp] theorem setHub_ahead (s : State) (h : Hub → Hub) : (setHub s h).ahead = s.ahead := rfl
@[simp] theorem setHub_cores (s : State) (h : Hub → Hub) : (setHub s h).cores = s.cores := rfl
@[simp] theorem setHub_tables (s : State) (h : Hub → Hub) : (setHub s h).tables = s.tables := rfl
@[simp] theorem setHub_biases (s : State) (h : Hub → Hub) : (setHub s h).biases = s.biases := rfl
@[simp] theorem setHub_mxReqs (s : State) (h : Hub → Hub) : (setHub s h).mxReqs = s.mxReqs := rfl
@[simp] theorem setHub_mxOps (s : State) (h : Hub → Hub) : (setHub s h).mxOps = s.mxOps := rfl
@[simp] theorem setHub_copies (s : State) (h : Hub → Hub) : (setHub s h).copies = s.copies := rfl
@[simp] theorem setHub_engines (s : State) (h : Hub → Hub) : (setHub s h).engines = s.engines := rfl
@[simp] theorem setHub_budget (s : State) (h : Hub → Hub) : (setHub s h).budget = s.budget := rfl
@[simp] theorem setHub_cedes (s : State) (h : Hub → Hub) : (setHub s h).cedes = s.cedes := rfl
@[simp] theorem setHub_tenants (s : State) (h : Hub → Hub) : (setHub s h).tenants = s.tenants := rfl
@[simp] theorem setHub_queues (s : State) (h : Hub → Hub) : (setHub s h).queues = s.queues := rfl
@[simp] theorem setHub_launches (s : State) (h : Hub → Hub) : (setHub s h).launches = s.launches := rfl
@[simp] theorem setHub_codeTable (s : State) (h : Hub → Hub) : (setHub s h).codeTable = s.codeTable := rfl
@[simp] theorem setHub_saved (s : State) (h : Hub → Hub) : (setHub s h).saved = s.saved := rfl
@[simp] theorem setHub_preempts (s : State) (h : Hub → Hub) : (setHub s h).preempts = s.preempts := rfl
@[simp] theorem setHub_wrote (s : State) (h : Hub → Hub) : (setHub s h).wrote = s.wrote := rfl
@[simp] theorem setHub_hub (s : State) (h : Hub → Hub) : (setHub s h).hub = h s.hub := rfl
@[simp] theorem setHub_mgmt (s : State) (h : Hub → Hub) : (setHub s h).mgmt = s.mgmt := rfl

@[simp] theorem setMgmt_agenda (s : State) (h : Mgmt → Mgmt) : (setMgmt s h).agenda = s.agenda := rfl
@[simp] theorem setMgmt_cur (s : State) (h : Mgmt → Mgmt) : (setMgmt s h).cur = s.cur := rfl
@[simp] theorem setMgmt_free (s : State) (h : Mgmt → Mgmt) : (setMgmt s h).free = s.free := rfl
@[simp] theorem setMgmt_serial (s : State) (h : Mgmt → Mgmt) : (setMgmt s h).serial = s.serial := rfl
@[simp] theorem setMgmt_mem (s : State) (h : Mgmt → Mgmt) : (setMgmt s h).mem = s.mem := rfl
@[simp] theorem setMgmt_dram (s : State) (h : Mgmt → Mgmt) : (setMgmt s h).dram = s.dram := rfl
@[simp] theorem setMgmt_spm (s : State) (h : Mgmt → Mgmt) : (setMgmt s h).spm = s.spm := rfl
@[simp] theorem setMgmt_stamps (s : State) (h : Mgmt → Mgmt) : (setMgmt s h).stamps = s.stamps := rfl
@[simp] theorem setMgmt_trails (s : State) (h : Mgmt → Mgmt) : (setMgmt s h).trails = s.trails := rfl
@[simp] theorem setMgmt_hostSeen (s : State) (h : Mgmt → Mgmt) : (setMgmt s h).hostSeen = s.hostSeen := rfl
@[simp] theorem setMgmt_poison (s : State) (h : Mgmt → Mgmt) : (setMgmt s h).poison = s.poison := rfl
@[simp] theorem setMgmt_badSpm (s : State) (h : Mgmt → Mgmt) : (setMgmt s h).badSpm = s.badSpm := rfl
@[simp] theorem setMgmt_corrected (s : State) (h : Mgmt → Mgmt) : (setMgmt s h).corrected = s.corrected := rfl
@[simp] theorem setMgmt_l2 (s : State) (h : Mgmt → Mgmt) : (setMgmt s h).l2 = s.l2 := rfl
@[simp] theorem setMgmt_frameTag (s : State) (h : Mgmt → Mgmt) : (setMgmt s h).frameTag = s.frameTag := rfl
@[simp] theorem setMgmt_bankTag (s : State) (h : Mgmt → Mgmt) : (setMgmt s h).bankTag = s.bankTag := rfl
@[simp] theorem setMgmt_chunkTag (s : State) (h : Mgmt → Mgmt) : (setMgmt s h).chunkTag = s.chunkTag := rfl
@[simp] theorem setMgmt_laneTag (s : State) (h : Mgmt → Mgmt) : (setMgmt s h).laneTag = s.laneTag := rfl
@[simp] theorem setMgmt_fenced (s : State) (h : Mgmt → Mgmt) : (setMgmt s h).fenced = s.fenced := rfl
@[simp] theorem setMgmt_xlat (s : State) (h : Mgmt → Mgmt) : (setMgmt s h).xlat = s.xlat := rfl
@[simp] theorem setMgmt_xlPtr (s : State) (h : Mgmt → Mgmt) : (setMgmt s h).xlPtr = s.xlPtr := rfl
@[simp] theorem setMgmt_walks (s : State) (h : Mgmt → Mgmt) : (setMgmt s h).walks = s.walks := rfl
@[simp] theorem setMgmt_misses (s : State) (h : Mgmt → Mgmt) : (setMgmt s h).misses = s.misses := rfl
@[simp] theorem setMgmt_dies (s : State) (h : Mgmt → Mgmt) : (setMgmt s h).dies = s.dies := rfl
@[simp] theorem setMgmt_ahead (s : State) (h : Mgmt → Mgmt) : (setMgmt s h).ahead = s.ahead := rfl
@[simp] theorem setMgmt_cores (s : State) (h : Mgmt → Mgmt) : (setMgmt s h).cores = s.cores := rfl
@[simp] theorem setMgmt_tables (s : State) (h : Mgmt → Mgmt) : (setMgmt s h).tables = s.tables := rfl
@[simp] theorem setMgmt_biases (s : State) (h : Mgmt → Mgmt) : (setMgmt s h).biases = s.biases := rfl
@[simp] theorem setMgmt_mxReqs (s : State) (h : Mgmt → Mgmt) : (setMgmt s h).mxReqs = s.mxReqs := rfl
@[simp] theorem setMgmt_mxOps (s : State) (h : Mgmt → Mgmt) : (setMgmt s h).mxOps = s.mxOps := rfl
@[simp] theorem setMgmt_copies (s : State) (h : Mgmt → Mgmt) : (setMgmt s h).copies = s.copies := rfl
@[simp] theorem setMgmt_engines (s : State) (h : Mgmt → Mgmt) : (setMgmt s h).engines = s.engines := rfl
@[simp] theorem setMgmt_budget (s : State) (h : Mgmt → Mgmt) : (setMgmt s h).budget = s.budget := rfl
@[simp] theorem setMgmt_cedes (s : State) (h : Mgmt → Mgmt) : (setMgmt s h).cedes = s.cedes := rfl
@[simp] theorem setMgmt_tenants (s : State) (h : Mgmt → Mgmt) : (setMgmt s h).tenants = s.tenants := rfl
@[simp] theorem setMgmt_queues (s : State) (h : Mgmt → Mgmt) : (setMgmt s h).queues = s.queues := rfl
@[simp] theorem setMgmt_launches (s : State) (h : Mgmt → Mgmt) : (setMgmt s h).launches = s.launches := rfl
@[simp] theorem setMgmt_codeTable (s : State) (h : Mgmt → Mgmt) : (setMgmt s h).codeTable = s.codeTable := rfl
@[simp] theorem setMgmt_saved (s : State) (h : Mgmt → Mgmt) : (setMgmt s h).saved = s.saved := rfl
@[simp] theorem setMgmt_preempts (s : State) (h : Mgmt → Mgmt) : (setMgmt s h).preempts = s.preempts := rfl
@[simp] theorem setMgmt_wrote (s : State) (h : Mgmt → Mgmt) : (setMgmt s h).wrote = s.wrote := rfl
@[simp] theorem setMgmt_hub (s : State) (h : Mgmt → Mgmt) : (setMgmt s h).hub = s.hub := rfl
@[simp] theorem setMgmt_mgmt (s : State) (h : Mgmt → Mgmt) : (setMgmt s h).mgmt = h s.mgmt := rfl

@[simp] theorem stepFree_agenda (s : State) : (stepFree s).agenda = s.agenda := rfl
@[simp] theorem stepFree_cur (s : State) : (stepFree s).cur = s.cur := rfl
@[simp] theorem stepFree_free (s : State) : (stepFree s).free = s.free + 1 := rfl
@[simp] theorem stepFree_serial (s : State) : (stepFree s).serial = s.serial := rfl
@[simp] theorem stepFree_mem (s : State) : (stepFree s).mem = s.mem := rfl
@[simp] theorem stepFree_dram (s : State) : (stepFree s).dram = s.dram := rfl
@[simp] theorem stepFree_spm (s : State) : (stepFree s).spm = s.spm := rfl
@[simp] theorem stepFree_stamps (s : State) : (stepFree s).stamps = s.stamps := rfl
@[simp] theorem stepFree_trails (s : State) : (stepFree s).trails = s.trails := rfl
@[simp] theorem stepFree_hostSeen (s : State) : (stepFree s).hostSeen = s.hostSeen := rfl
@[simp] theorem stepFree_poison (s : State) : (stepFree s).poison = s.poison := rfl
@[simp] theorem stepFree_badSpm (s : State) : (stepFree s).badSpm = s.badSpm := rfl
@[simp] theorem stepFree_corrected (s : State) : (stepFree s).corrected = s.corrected := rfl
@[simp] theorem stepFree_l2 (s : State) : (stepFree s).l2 = s.l2 := rfl
@[simp] theorem stepFree_frameTag (s : State) : (stepFree s).frameTag = s.frameTag := rfl
@[simp] theorem stepFree_bankTag (s : State) : (stepFree s).bankTag = s.bankTag := rfl
@[simp] theorem stepFree_chunkTag (s : State) : (stepFree s).chunkTag = s.chunkTag := rfl
@[simp] theorem stepFree_laneTag (s : State) : (stepFree s).laneTag = s.laneTag := rfl
@[simp] theorem stepFree_fenced (s : State) : (stepFree s).fenced = s.fenced := rfl
@[simp] theorem stepFree_xlat (s : State) : (stepFree s).xlat = s.xlat := rfl
@[simp] theorem stepFree_xlPtr (s : State) : (stepFree s).xlPtr = s.xlPtr := rfl
@[simp] theorem stepFree_walks (s : State) : (stepFree s).walks = s.walks := rfl
@[simp] theorem stepFree_misses (s : State) : (stepFree s).misses = s.misses := rfl
@[simp] theorem stepFree_dies (s : State) : (stepFree s).dies = s.dies := rfl
@[simp] theorem stepFree_ahead (s : State) : (stepFree s).ahead = s.ahead := rfl
@[simp] theorem stepFree_cores (s : State) : (stepFree s).cores = s.cores := rfl
@[simp] theorem stepFree_tables (s : State) : (stepFree s).tables = s.tables := rfl
@[simp] theorem stepFree_biases (s : State) : (stepFree s).biases = s.biases := rfl
@[simp] theorem stepFree_mxReqs (s : State) : (stepFree s).mxReqs = s.mxReqs := rfl
@[simp] theorem stepFree_mxOps (s : State) : (stepFree s).mxOps = s.mxOps := rfl
@[simp] theorem stepFree_copies (s : State) : (stepFree s).copies = s.copies := rfl
@[simp] theorem stepFree_engines (s : State) : (stepFree s).engines = s.engines := rfl
@[simp] theorem stepFree_budget (s : State) : (stepFree s).budget = s.budget := rfl
@[simp] theorem stepFree_cedes (s : State) : (stepFree s).cedes = s.cedes := rfl
@[simp] theorem stepFree_tenants (s : State) : (stepFree s).tenants = s.tenants := rfl
@[simp] theorem stepFree_queues (s : State) : (stepFree s).queues = s.queues := rfl
@[simp] theorem stepFree_launches (s : State) : (stepFree s).launches = s.launches := rfl
@[simp] theorem stepFree_codeTable (s : State) : (stepFree s).codeTable = s.codeTable := rfl
@[simp] theorem stepFree_saved (s : State) : (stepFree s).saved = s.saved := rfl
@[simp] theorem stepFree_preempts (s : State) : (stepFree s).preempts = s.preempts := rfl
@[simp] theorem stepFree_wrote (s : State) : (stepFree s).wrote = s.wrote := rfl
@[simp] theorem stepFree_hub (s : State) : (stepFree s).hub = s.hub := rfl
@[simp] theorem stepFree_mgmt (s : State) : (stepFree s).mgmt = s.mgmt := rfl

@[simp] theorem Core.withGroup_fTenant (k : Core) (x : Nat) (g : Group) : (k.withGroup x g).fTenant = k.fTenant := rfl
@[simp] theorem Core.withGroup_tHandler (k : Core) (x : Nat) (g : Group) : (k.withGroup x g).tHandler = k.tHandler := rfl
@[simp] theorem Core.withGroup_nspm (k : Core) (x : Nat) (g : Group) : (k.withGroup x g).nspm = k.nspm := rfl
@[simp] theorem Core.withGroup_l1 (k : Core) (x : Nat) (g : Group) : (k.withGroup x g).l1 = k.l1 := rfl
@[simp] theorem Core.withGroup_tlb (k : Core) (x : Nat) (g : Group) : (k.withGroup x g).tlb = k.tlb := rfl
@[simp] theorem Core.withGroup_ibuf (k : Core) (x : Nat) (g : Group) : (k.withGroup x g).ibuf = k.ibuf := rfl
@[simp] theorem Core.withGroup_ibad (k : Core) (x : Nat) (g : Group) : (k.withGroup x g).ibad = k.ibad := rfl
@[simp] theorem Core.withGroup_blocks (k : Core) (x : Nat) (g : Group) : (k.withGroup x g).blocks = k.blocks := rfl
@[simp] theorem Core.withGroup_groups (k : Core) (x : Nat) (g : Group) : (k.withGroup x g).groups = mset {} k.groups x g := rfl
@[simp] theorem Core.withGroup_alloc (k : Core) (x : Nat) (g : Group) : (k.withGroup x g).alloc = k.alloc := rfl
@[simp] theorem Core.withGroup_regroups (k : Core) (x : Nat) (g : Group) : (k.withGroup x g).regroups = k.regroups := rfl
@[simp] theorem Core.withGroup_growq (k : Core) (x : Nat) (g : Group) : (k.withGroup x g).growq = k.growq := rfl
@[simp] theorem Core.withGroup_raised (k : Core) (x : Nat) (g : Group) : (k.withGroup x g).raised = k.raised := rfl
@[simp] theorem Core.withGroup_framesH (k : Core) (x : Nat) (g : Group) : (k.withGroup x g).framesH = k.framesH := rfl
@[simp] theorem Core.withGroup_framesF (k : Core) (x : Nat) (g : Group) : (k.withGroup x g).framesF = k.framesF := rfl
@[simp] theorem Core.withGroup_curH (k : Core) (x : Nat) (g : Group) : (k.withGroup x g).curH = k.curH := rfl
@[simp] theorem Core.withGroup_curF (k : Core) (x : Nat) (g : Group) : (k.withGroup x g).curF = k.curF := rfl
@[simp] theorem Core.withGroup_partsH (k : Core) (x : Nat) (g : Group) : (k.withGroup x g).partsH = k.partsH := rfl
@[simp] theorem Core.withGroup_partsF (k : Core) (x : Nat) (g : Group) : (k.withGroup x g).partsF = k.partsF := rfl
@[simp] theorem Core.withGroup_flight (k : Core) (x : Nat) (g : Group) : (k.withGroup x g).flight = k.flight := rfl
@[simp] theorem Core.withGroup_prefs (k : Core) (x : Nat) (g : Group) : (k.withGroup x g).prefs = k.prefs := rfl
@[simp] theorem Core.withGroup_csrPend (k : Core) (x : Nat) (g : Group) : (k.withGroup x g).csrPend = k.csrPend := rfl
@[simp] theorem Core.withGroup_slots (k : Core) (x : Nat) (g : Group) : (k.withGroup x g).slots = k.slots := rfl
@[simp] theorem Core.withGroup_trails (k : Core) (x : Nat) (g : Group) : (k.withGroup x g).trails = k.trails := rfl
@[simp] theorem Core.withGroup_performed (k : Core) (x : Nat) (g : Group) : (k.withGroup x g).performed = k.performed := rfl
@[simp] theorem Core.withGroup_moving (k : Core) (x : Nat) (g : Group) : (k.withGroup x g).moving = k.moving := rfl

end Sys2Proof.Machine
end

