-- ==== Sys2Proof/Laws/Issue.lean ====
section
/-! SUPPORT. What issuing comes to: one lemma for an instruction that is ready, by the outcome of its effect. -/

namespace Sys2Proof.Laws
open Sys2Proof Sys2Proof.Machine Sys2Proof.Safety

/-- What becomes of the issuing entries, by the outcome of the effect. -/
def settled (q : Issue) (f : Fields) : Res → State
  | .ok t => q.onward f t
  | .moved t => q.moved f t
  | .park next p t => q.parked f next p t
  | .wait t => q.waits f t
  | .stay t => stepFree t
  | .trap next r t => q.trapped f next r t

theorem issueNow_eq (f : Fields) (body : Dword → Members → State → Res) (q : Issue)
    (h : rbOf (getCore q.s1 q.core) q.op f q.xs = none)
    (hc : struckOf (getCore q.s1 q.core) q.op f (q.members f) = none) :
    issueNow q.op f body q.s1 q.core q.e.pc (wideOf f) q.xs = settled q f (body q.e.pc (q.members f) q.s1) := by
  unfold issueNow
  rw [h]
  dsimp only
  rw [show q.xs.map (memberOf q.s1 q.core f q.e.pc (wideOf f)) = q.members f from rfl, hc]
  change (match body q.e.pc (q.members f) q.s1 with | .ok _ => _ | .moved _ => _ | .park _ _ _ => _ | .wait _ => _ | .stay _ => _ | .trap _ _ _ => _) = _
  cases body q.e.pc (q.members f) q.s1 <;> rfl

/-- An instruction that is ready takes effect, whatever its effect is. -/
theorem issue_of_ready {op : Nat} {f : Fields} {q : Issue} (body : Dword → Members → State → Res) (h : Ready op f q) :
    issue op f body q.s = .next (settled q f (body q.e.pc (q.members f) q.s1)) := by
  have hs := h.gathers
  have hu := h.slot
  have hop := h.same
  subst hop
  rw [← issueNow_eq f body q h.bound h.clean]
  unfold issue
  rw [show q.s.cur.1 = q.core from rfl, show q.s.cur.2 = q.ctx from rfl]
  dsimp only
  rw [h.running]
  dsimp only
  rw [h.free]
  dsimp only
  by_cases hl : f.scope = .lane
  · rw [if_pos hl] at hs ⊢
    have hw : wideOf f = false := by simp [wideOf, hl]
    rw [Issue.use, Issue.members, hs.1, hs.2, hw, List.map_singleton] at hu
    rw [hs.1, hs.2, hw, if_pos hu]
  · rw [if_neg hl] at hs ⊢
    obtain ⟨hset, hxs, hconf, hs1, hc, hm⟩ := hs
    have hw : wideOf f = true := by simp [wideOf, hl]
    have hfree : rdvFree q.s1 q.core q.op f q.e.pc q.xs = true := by
      rw [rdvFree, hm, Bool.true_and]
      rw [Issue.use, Issue.members, hw] at hu
      exact hu
    unfold issueWide
    have h1 : ¬ (f.scope = .set ∧ ((getCore q.s q.core).group q.ctx).setId = none) := fun hh => hset hh.1 hh.2
    dsimp only
    rw [if_neg h1, ← hxs, hconf]
    dsimp only
    rw [← hs1, if_pos (by rw [hc, hfree]; rfl), hw]

/-- The context that issues is the one that `cur` names after the arrival as well. -/
theorem cur_of_ready {op : Nat} {f : Fields} {q : Issue} (h : Ready op f q) : q.s1.cur = q.s.cur := by
  have hs := h.gathers
  by_cases hl : f.scope = .lane
  · rw [if_pos hl] at hs; rw [hs.1]
  · rw [if_neg hl] at hs; rw [hs.2.2.2.1]; rfl

end Sys2Proof.Laws
end

