-- ==== Sys2Proof/Laws/Memory.lean ====
section
/-! SUPPORT. What the operations over L2, DRAM and the scratchpads do: which of them change no location, what a write at a
home leaves, and that every one of them keeps the canonical form. -/

namespace Sys2Proof.Laws
open Sys2Proof Sys2Proof.Machine Sys2Proof.Safety

/-! ### Operations that change no location -/

@[simp] theorem l2Upd_mem (s : State) (n : Nat) (h : L2Line → L2Line) : (l2Upd s n h).mem = s.mem := rfl
@[simp] theorem l2Upd_dram (s : State) (n : Nat) (h : L2Line → L2Line) : (l2Upd s n h).dram = s.dram := rfl
@[simp] theorem l2Upd_spm (s : State) (n : Nat) (h : L2Line → L2Line) : (l2Upd s n h).spm = s.spm := rfl
@[simp] theorem l2Clean_mem (s : State) (q : L2Line) : (l2Clean s q).mem = s.mem := rfl
@[simp] theorem l2Clean_spm (s : State) (q : L2Line) : (l2Clean s q).spm = s.spm := rfl
@[simp] theorem l2Evict_mem (s : State) (q : L2Line) : (l2Evict s q).mem = s.mem := rfl
@[simp] theorem l2Evict_spm (s : State) (q : L2Line) : (l2Evict s q).spm = s.spm := rfl

/-- Allocating a line in L2 changes no location, no scratchpad byte, and neither tags nor the hub. -/
theorem l2Alloc_same (s : State) (n v : Nat) : (l2Alloc s n v).mem = s.mem ∧ (l2Alloc s n v).spm = s.spm ∧
    (l2Alloc s n v).hub = s.hub ∧ (l2Alloc s n v).frameTag = s.frameTag := by
  unfold l2Alloc
  split
  · exact ⟨rfl, rfl, rfl, rfl⟩
  · exact ⟨rfl, rfl, rfl, rfl⟩
  · dsimp only
    split <;> exact ⟨rfl, rfl, rfl, rfl⟩

/-- A read at the home changes no location and no scratchpad byte. -/
theorem l2Read_same (s : State) (n : Nat) (v : Option Nat) (b : Bool) :
    (l2Read s n v b).mem = s.mem ∧ (l2Read s n v b).spm = s.spm := by
  unfold l2Read
  dsimp only
  split
  · exact ⟨rfl, rfl⟩
  · split
    · exact ⟨rfl, rfl⟩
    · exact ⟨(l2Alloc_same _ _ _).1, (l2Alloc_same _ _ _).2.1⟩

/-! ### Writes -/

theorem l2PutByte_same (s : State) (a : Nat) (v : Byte) : (l2PutByte s a v).mem = writeByte s.mem a v ∧
    (l2PutByte s a v).spm = s.spm ∧ (l2PutByte s a v).hub = s.hub ∧ (l2PutByte s a v).frameTag = s.frameTag := by
  unfold l2PutByte
  split
  · exact ⟨rfl, rfl, rfl, rfl⟩
  · refine ⟨rfl, ?_, ?_, ?_⟩ <;> dsimp only [l2Upd] <;> split <;> rfl

theorem putBytes_same (bs : List Byte) : ∀ (s : State) (a : Nat), (putBytes s a bs).mem = writeBytes s.mem a bs ∧
    (putBytes s a bs).spm = s.spm ∧ (putBytes s a bs).hub = s.hub ∧ (putBytes s a bs).frameTag = s.frameTag := by
  induction bs with
  | nil => exact fun _ _ => ⟨rfl, rfl, rfl, rfl⟩
  | cons x xs ih =>
    intro s a
    obtain ⟨h1, h2, h3, h4⟩ := ih (l2PutByte s a x) (a + 1)
    obtain ⟨g1, g2, g3, g4⟩ := l2PutByte_same s a x
    exact ⟨by rw [putBytes, h1, g1, writeBytes], by rw [putBytes, h2, g2], by rw [putBytes, h3, g3], by rw [putBytes, h4, g4]⟩

/-- The bit that a tracker sets is at the address that `trackedAt` names; no other byte changes. -/
theorem trackOnes_same (tag bit : Nat) (ts : List (Nat × Tracker)) : ∀ s : State,
    let t := ts.foldl (trackOne tag bit) s
    t.spm = s.spm ∧ t.hub = s.hub ∧ t.frameTag = s.frameTag ∧ t.dram = s.dram ∧
    (Memory.wf s.mem = true → Memory.wf t.mem = true) ∧
    ∀ a, (∀ q ∈ ts, q.2.en = true → q.2.tenant = tag → a ≠ (if q.2.cur then q.2.buf1 else q.2.buf0) + bit / 8) →
      readByte t.mem a = readByte s.mem a := by
  induction ts with
  | nil => exact fun _ => ⟨rfl, rfl, rfl, rfl, id, fun _ _ => rfl⟩
  | cons q ts ih =>
    intro s
    obtain ⟨h1, h2, h3, h4, h5, h6⟩ := ih (trackOne tag bit s q)
    have g : (trackOne tag bit s q).spm = s.spm ∧ (trackOne tag bit s q).hub = s.hub ∧
        (trackOne tag bit s q).frameTag = s.frameTag ∧ (trackOne tag bit s q).dram = s.dram ∧
        (Memory.wf s.mem = true → Memory.wf (trackOne tag bit s q).mem = true) ∧
        ∀ a, (q.2.en = true → q.2.tenant = tag → a ≠ (if q.2.cur then q.2.buf1 else q.2.buf0) + bit / 8) →
          readByte (trackOne tag bit s q).mem a = readByte s.mem a := by
      unfold trackOne
      dsimp only
      split
      · rename_i h
        rw [Bool.and_eq_true, beq_iff_eq] at h
        exact ⟨rfl, rfl, rfl, rfl, fun w => wf_writeByte _ _ _ w, fun a ha => by
          rw [readByte_writeByte, if_neg (ha h.1 h.2)]⟩
      · exact ⟨rfl, rfl, rfl, rfl, id, fun _ _ => rfl⟩
    obtain ⟨g1, g2, g3, g4, g5, g6⟩ := g
    exact ⟨h1.trans g1, h2.trans g2, h3.trans g3, h4.trans g4, fun w => h5 (g5 w), fun a ha =>
      (h6 a (fun r hr => ha r (List.mem_cons_of_mem _ hr))).trans (g6 a (ha q (List.mem_cons_self ..)))⟩

theorem trackerBit_same (s : State) (fr : Nat) : (trackerBit s fr).spm = s.spm ∧ (trackerBit s fr).hub = s.hub ∧
    (trackerBit s fr).frameTag = s.frameTag ∧ (trackerBit s fr).dram = s.dram ∧
    (Memory.wf s.mem = true → Memory.wf (trackerBit s fr).mem = true) ∧
    ∀ a, (∀ t ∈ s.hub.trackers, t.2.en = true → t.2.tenant = mget 0 s.frameTag fr →
        a ≠ (if t.2.cur then t.2.buf1 else t.2.buf0) + (fr / 2097152 % 4 * 1572864 + fr % 2097152) / 8) →
      readByte (trackerBit s fr).mem a = readByte s.mem a :=
  trackOnes_same _ _ _ s

theorem trackerBits_same (frs : List Nat) : ∀ (s : State), (frs.foldl trackerBit s).spm = s.spm ∧
    (frs.foldl trackerBit s).hub = s.hub ∧ (frs.foldl trackerBit s).frameTag = s.frameTag ∧
    (frs.foldl trackerBit s).dram = s.dram ∧ (Memory.wf s.mem = true → Memory.wf (frs.foldl trackerBit s).mem = true) ∧
    ∀ a, (∀ fr ∈ frs, ∀ t ∈ s.hub.trackers, t.2.en = true → t.2.tenant = mget 0 s.frameTag fr →
        a ≠ (if t.2.cur then t.2.buf1 else t.2.buf0) + (fr / 2097152 % 4 * 1572864 + fr % 2097152) / 8) →
      readByte (frs.foldl trackerBit s).mem a = readByte s.mem a := by
  induction frs with
  | nil => exact fun _ => ⟨rfl, rfl, rfl, rfl, id, fun _ _ => rfl⟩
  | cons fr frs ih =>
    intro s
    obtain ⟨h1, h2, h3, h4, h5, h6⟩ := ih (trackerBit s fr)
    obtain ⟨g1, g2, g3, g4, g5, g6⟩ := trackerBit_same s fr
    refine ⟨by rw [List.foldl_cons, h1, g1], by rw [List.foldl_cons, h2, g2], by rw [List.foldl_cons, h3, g3],
      by rw [List.foldl_cons, h4, g4], fun w => h5 (g5 w), fun a ha => ?_⟩
    rw [List.foldl_cons, h6 a ?_, g6 a (ha fr (List.mem_cons_self ..))]
    intro fr' hf t ht
    rw [g2] at ht
    rw [g3]
    exact ha fr' (List.mem_cons_of_mem _ hf) t ht

theorem allocs_same (ls : List Nat) (v : Nat) : ∀ s : State, (ls.foldl (fun s l => l2Alloc s l v) s).mem = s.mem ∧
    (ls.foldl (fun s l => l2Alloc s l v) s).spm = s.spm ∧ (ls.foldl (fun s l => l2Alloc s l v) s).hub = s.hub ∧
    (ls.foldl (fun s l => l2Alloc s l v) s).frameTag = s.frameTag := by
  induction ls with
  | nil => exact fun _ => ⟨rfl, rfl, rfl, rfl⟩
  | cons l ls ih =>
    intro s
    obtain ⟨h1, h2, h3, h4⟩ := ih (l2Alloc s l v)
    obtain ⟨g1, g2, g3, g4⟩ := l2Alloc_same s l v
    exact ⟨by rw [List.foldl_cons, h1, g1], by rw [List.foldl_cons, h2, g2], by rw [List.foldl_cons, h3, g3], by rw [List.foldl_cons, h4, g4]⟩

/-- The state in which a home write puts its bytes. -/
theorem homeWrite_eq (s : State) (a : Nat) (bs : List Byte) (ins : Option Nat) (hb : bs ≠ []) : ∃ s1 : State,
    homeWrite s a bs ins = (framesOf a bs.length).foldl trackerBit (clearPoison (putBytes s1 a bs) a bs.length) ∧
    s1.mem = s.mem ∧ s1.spm = s.spm ∧ s1.hub = s.hub ∧ s1.frameTag = s.frameTag := by
  unfold homeWrite
  rw [if_neg (by simpa using hb)]
  cases ins with
  | none => exact ⟨_, rfl, rfl, rfl, rfl, rfl⟩
  | some v =>
    obtain ⟨h1, h2, h3, h4⟩ := allocs_same (linesOf a bs.length) v s
    exact ⟨_, rfl, h1, h2, h3, h4⟩

/-- What a write at its home does: its bytes read back, every other byte of memory is as it was, bits of dirty trackers
apart; scratchpads, tags and the hub are as they were. -/
theorem homeWrite_spec (s : State) (a : Nat) (bs : List Byte) (ins : Option Nat) :
    wrote s (homeWrite s a bs ins) a bs ∧ (homeWrite s a bs ins).spm = s.spm ∧ (homeWrite s a bs ins).hub = s.hub ∧
    (homeWrite s a bs ins).frameTag = s.frameTag := by
  by_cases hb : bs = []
  · subst hb
    exact ⟨⟨fun _ _ _ => rfl, fun i h => absurd h (by simp)⟩, rfl, rfl, rfl⟩
  · obtain ⟨s1, he, h1, h2, h3, h4⟩ := homeWrite_eq s a bs ins hb
    obtain ⟨p1, p2, p3, p4⟩ := putBytes_same bs s1 a
    obtain ⟨t1, t2, t3, -, -, t6⟩ := trackerBits_same (framesOf a bs.length) (clearPoison (putBytes s1 a bs) a bs.length)
    have hl : 1 ≤ bs.length := List.length_pos_iff.mpr hb
    have hr : ∀ b, ¬ trackedAt s a bs.length b → readByte (homeWrite s a bs ins).mem b = readByte (writeBytes s.mem a bs) b := by
      intro b hn
      rw [he, t6 b ?_]
      · exact congrArg (readByte · b) (p1.trans (by rw [h1]))
      · intro fr hf t ht he' ht' hc
        refine hn ⟨t, ?_, fr, ?_, ?_, he', ?_, hc⟩
        · have : t ∈ (putBytes s1 a bs).hub.trackers := ht
          rwa [p3, h3] at this
        · simp only [framesOf, List.mem_map, List.mem_range] at hf
          obtain ⟨k, -, rfl⟩ := hf
          omega
        · simp only [framesOf, List.mem_map, List.mem_range] at hf
          obtain ⟨k, hk, rfl⟩ := hf
          omega
        · rw [ht']
          show mget 0 (putBytes s1 a bs).frameTag fr = mget 0 s.frameTag fr
          rw [p4, h4]
    refine ⟨⟨fun b ho hn => ?_, fun i hi hn => ?_⟩, ?_, ?_, ?_⟩
    · rw [hr b hn, readByte_writeBytes_outside _ _ _ _ ho]
    · rw [hr _ hn, readByte_writeBytes, if_pos (by omega)]
      congr 1; omega
    · rw [he, t1]; exact p2.trans h2
    · rw [he, t2]; exact p3.trans h3
    · rw [he, t3]; exact p4.trans h4

/-! ### Canonical form -/

/-- The canonical form depends on the three tables of bytes alone. -/
theorem canonical_of_same {s t : State} (h : MemoryCanonical s) (hm : t.mem = s.mem) (hd : t.dram = s.dram) (hp : t.spm = s.spm) :
    MemoryCanonical t := by
  unfold MemoryCanonical; rw [hm, hd, hp]; exact h

theorem wf_foldl_writeByte {α : Type} (key : α → Nat) (val : List Host.Cell → α → Byte) (xs : List α) : ∀ m : List Host.Cell,
    Memory.wf m = true → Memory.wf (xs.foldl (fun m x => writeByte m (key x) (val m x)) m) = true := by
  induction xs with
  | nil => exact fun _ h => h
  | cons x xs ih => exact fun m h => ih _ (wf_writeByte _ _ _ h)

theorem wf_filter (p : Nat × Byte → Bool) (m : List Host.Cell) (h : Memory.wf m = true) : Memory.wf (m.filter p) = true :=
  mwf_filter 0 p m h

theorem canonical_l2Clean {s : State} (q : L2Line) (h : MemoryCanonical s) : MemoryCanonical (l2Clean s q) :=
  ⟨h.1, wf_foldl_writeByte id (fun _ _ => 0) _ _ h.2.1, h.2.2⟩

theorem canonical_l2Evict {s : State} (q : L2Line) (h : MemoryCanonical s) : MemoryCanonical (l2Evict s q) :=
  canonical_l2Clean q h

theorem canonical_l2Drop {s : State} (q : L2Line) (h : MemoryCanonical s) : MemoryCanonical (l2Drop s q) := by
  have : ∀ (xs : List Nat) (m d : List Host.Cell), Memory.wf m = true → Memory.wf d = true →
      Memory.wf (xs.foldl (fun (m : List Host.Cell × List Host.Cell) a =>
        (writeByte m.1 a (readByte m.2 a), writeByte m.2 a 0)) (m, d)).1 = true ∧
      Memory.wf (xs.foldl (fun (m : List Host.Cell × List Host.Cell) a =>
        (writeByte m.1 a (readByte m.2 a), writeByte m.2 a 0)) (m, d)).2 = true := by
    intro xs
    induction xs with
    | nil => exact fun _ _ hm hd => ⟨hm, hd⟩
    | cons x xs ih => exact fun m d hm hd => ih _ _ (wf_writeByte _ _ _ hm) (wf_writeByte _ _ _ hd)
  exact ⟨(this _ _ _ h.1 h.2.1).1, (this _ _ _ h.1 h.2.1).2, h.2.2⟩

theorem canonical_l2Alloc {s : State} (n v : Nat) (h : MemoryCanonical s) : MemoryCanonical (l2Alloc s n v) := by
  unfold l2Alloc
  split
  · exact h
  · exact h
  · dsimp only
    split
    · exact canonical_of_same (canonical_l2Evict (s := _) _ (canonical_of_same h rfl rfl rfl)) rfl rfl rfl
    · exact canonical_of_same h rfl rfl rfl

theorem canonical_l2Read {s : State} (n : Nat) (v : Option Nat) (b : Bool) (h : MemoryCanonical s) :
    MemoryCanonical (l2Read s n v b) := by
  unfold l2Read
  dsimp only
  split
  · exact canonical_of_same h rfl rfl rfl
  · split
    · exact h
    · exact canonical_of_same (canonical_l2Alloc _ _ h) rfl rfl rfl

theorem canonical_l2PutByte {s : State} (a : Nat) (v : Byte) (h : MemoryCanonical s) : MemoryCanonical (l2PutByte s a v) := by
  unfold l2PutByte
  split
  · exact ⟨wf_writeByte _ _ _ h.1, h.2.1, h.2.2⟩
  · refine ⟨wf_writeByte _ _ _ h.1, ?_, ?_⟩ <;> dsimp only [l2Upd] <;> split
    · exact h.2.1
    · exact wf_writeByte _ _ _ h.2.1
    · exact h.2.2
    · exact h.2.2

theorem canonical_putBytes (bs : List Byte) : ∀ {s : State} (a : Nat), MemoryCanonical s → MemoryCanonical (putBytes s a bs) := by
  induction bs with
  | nil => exact fun _ h => h
  | cons x xs ih => exact fun a h => ih (a + 1) (canonical_l2PutByte a x h)

theorem canonical_trackerBits {s : State} (frs : List Nat) (h : MemoryCanonical s) : MemoryCanonical (frs.foldl trackerBit s) := by
  obtain ⟨h1, -, -, h4, h5, -⟩ := trackerBits_same frs s
  exact ⟨h5 h.1, by rw [h4]; exact h.2.1, by rw [h1]; exact h.2.2⟩

/-- Every kind of write to DRAM keeps the canonical form. -/
theorem canonical_homeWrite {s : State} (a : Nat) (bs : List Byte) (ins : Option Nat) (h : MemoryCanonical s) :
    MemoryCanonical (homeWrite s a bs ins) := by
  have allocs : ∀ (ls : List Nat) (v : Nat) (s : State), MemoryCanonical s →
      MemoryCanonical (ls.foldl (fun s l => l2Alloc s l v) s) := by
    intro ls v
    induction ls with
    | nil => exact fun _ h => h
    | cons l ls ih => exact fun s h => ih _ (canonical_l2Alloc _ _ h)
  unfold homeWrite
  split
  · exact h
  · refine canonical_trackerBits _ (canonical_of_same (s := putBytes _ a bs) (canonical_putBytes bs a ?_) rfl rfl rfl)
    cases ins with
    | none => exact h
    | some v => exact allocs _ _ _ h

theorem canonical_hubWrite {s : State} (a : Nat) (bs : List Byte) (h : MemoryCanonical s) : MemoryCanonical (hubWrite s a bs) :=
  canonical_homeWrite a bs _ h

/-- Writes to scratchpads, and scrubbing, keep the canonical form. -/
theorem canonical_spmWrite {s : State} (w n key : Nat) (bs : List Byte) (h : MemoryCanonical s) :
    MemoryCanonical (spmWrite s w n key bs) :=
  ⟨h.1, h.2.1, wf_writeBytes bs _ _ h.2.2⟩

theorem canonical_zeroBanks {s : State} (c lo hi : Nat) (h : MemoryCanonical s) : MemoryCanonical (zeroBanks s c lo hi) :=
  ⟨h.1, h.2.1, wf_filter _ _ h.2.2⟩

theorem canonical_zeroFrame {s : State} (frame : Nat) (h : MemoryCanonical s) : MemoryCanonical (zeroFrame s frame) :=
  ⟨wf_filter _ _ h.1, wf_filter _ _ h.2.1, h.2.2⟩

theorem canonical_setNspm {s : State} (c n : Nat) (h : MemoryCanonical s) : MemoryCanonical (setNspm s c n) := by
  unfold setNspm
  dsimp only
  split
  · exact h
  · exact canonical_of_same (canonical_zeroBanks _ _ _ h) rfl rfl rfl

theorem canonical_loseDirty {s : State} (dead : BitVec 4) (h : MemoryCanonical s) : MemoryCanonical (loseDirty s dead) := by
  have : ∀ (qs : List L2Line) (s : State), MemoryCanonical s → MemoryCanonical (qs.foldl l2Drop s) := by
    intro qs
    induction qs with
    | nil => exact fun _ h => h
    | cons q qs ih => exact fun s h => ih _ (canonical_l2Drop q h)
  have h1 := this (s.l2.filter (fun q => dead.getLsbD (homeDie (q.line * 256)))) s h
  exact ⟨h1.1, rfl, h1.2.2⟩

end Sys2Proof.Laws
end

