-- ==== Sys2Proof/Laws/PerInstr.lean ====
section
/-! SUPPORT. One lemma per instruction: its opcode and its fields rebuild it, and its opcode has a row. -/

namespace Sys2Proof.Laws.RoundTrip
open Sys2Proof Sys2Proof.Machine

/-- What a well-formed instruction with an opcode is made of: its opcode and its fields, of which the decoder builds it
again, and a row of the opcode table. -/
def Statement (i : Instr) : Prop :=
  wellFormed i = true → ∀ op f, opcodeOf i = some op → fieldsOf i = some f →
    buildInstr op f = some i ∧ op < 1024 ∧ (opRow op).isSome = true

/-- An event has no opcode. -/
theorem of_none {i : Instr} (h : opcodeOf i = none) : Statement i :=
  fun _ _ _ h1 _ => by rw [h] at h1; cases h1

/-- An opcode, its fields and its row. -/
theorem of_some {i : Instr} {op : Nat} {f : Fields} (h1 : opcodeOf i = some op) (h2 : fieldsOf i = some f)
    (hb : wellFormed i = true → buildInstr op f = some i) (hl : op < 1024 ∧ (opRow op).isSome = true) : Statement i := fun w _ _ g1 g2 => by
  rw [h1] at g1; rw [h2] at g2; cases g1; cases g2; exact ⟨hb w, hl⟩

theorem nop (f : Fields) : Statement (.nop f) := of_some rfl rfl (fun _ => rfl) (by decide)
theorem iadd (f : Fields) : Statement (.iadd f) := of_some rfl rfl (fun _ => rfl) (by decide)
theorem isub (f : Fields) : Statement (.isub f) := of_some rfl rfl (fun _ => rfl) (by decide)
theorem iadd64 (f : Fields) : Statement (.iadd64 f) := of_some rfl rfl (fun _ => rfl) (by decide)
theorem isub64 (f : Fields) : Statement (.isub64 f) := of_some rfl rfl (fun _ => rfl) (by decide)
theorem imul (f : Fields) : Statement (.imul f) := of_some rfl rfl (fun _ => rfl) (by decide)
theorem imulh (f : Fields) : Statement (.imulh f) := of_some rfl rfl (fun _ => rfl) (by decide)
theorem imad (f : Fields) : Statement (.imad f) := of_some rfl rfl (fun _ => rfl) (by decide)
theorem imadw (f : Fields) : Statement (.imadw f) := of_some rfl rfl (fun _ => rfl) (by decide)
theorem imin (f : Fields) : Statement (.imin f) := of_some rfl rfl (fun _ => rfl) (by decide)
theorem imax (f : Fields) : Statement (.imax f) := of_some rfl rfl (fun _ => rfl) (by decide)
theorem iabs (f : Fields) : Statement (.iabs f) := of_some rfl rfl (fun _ => rfl) (by decide)
theorem idiv (f : Fields) : Statement (.idiv f) := of_some rfl rfl (fun _ => rfl) (by decide)
theorem irem (f : Fields) : Statement (.irem f) := of_some rfl rfl (fun _ => rfl) (by decide)
theorem icmp (f : Fields) : Statement (.icmp f) := of_some rfl rfl (fun _ => rfl) (by decide)
theorem sel (f : Fields) : Statement (.sel f) := of_some rfl rfl (fun _ => rfl) (by decide)
theorem and (f : Fields) : Statement (.and f) := of_some rfl rfl (fun _ => rfl) (by decide)
theorem or (f : Fields) : Statement (.or f) := of_some rfl rfl (fun _ => rfl) (by decide)
theorem xor (f : Fields) : Statement (.xor f) := of_some rfl rfl (fun _ => rfl) (by decide)
theorem andn (f : Fields) : Statement (.andn f) := of_some rfl rfl (fun _ => rfl) (by decide)
theorem not (f : Fields) : Statement (.not f) := of_some rfl rfl (fun _ => rfl) (by decide)
theorem lop3 (f : Fields) : Statement (.lop3 f) := of_some rfl rfl (fun _ => rfl) (by decide)
theorem shl (f : Fields) : Statement (.shl f) := of_some rfl rfl (fun _ => rfl) (by decide)
theorem shr (f : Fields) : Statement (.shr f) := of_some rfl rfl (fun _ => rfl) (by decide)
theorem sar (f : Fields) : Statement (.sar f) := of_some rfl rfl (fun _ => rfl) (by decide)
theorem shf (f : Fields) : Statement (.shf f) := of_some rfl rfl (fun _ => rfl) (by decide)
theorem bfe (f : Fields) : Statement (.bfe f) := of_some rfl rfl (fun _ => rfl) (by decide)
theorem bfi (f : Fields) : Statement (.bfi f) := of_some rfl rfl (fun _ => rfl) (by decide)
theorem popc (f : Fields) : Statement (.popc f) := of_some rfl rfl (fun _ => rfl) (by decide)
theorem clz (f : Fields) : Statement (.clz f) := of_some rfl rfl (fun _ => rfl) (by decide)
theorem brev (f : Fields) : Statement (.brev f) := of_some rfl rfl (fun _ => rfl) (by decide)
theorem lea (f : Fields) : Statement (.lea f) := of_some rfl rfl (fun _ => rfl) (by decide)
theorem mov (f : Fields) : Statement (.mov f) := of_some rfl rfl (fun _ => rfl) (by decide)
theorem movi (f : Fields) : Statement (.movi f) := of_some rfl rfl (fun _ => rfl) (by decide)
theorem iaddi (f : Fields) : Statement (.iaddi f) := of_some rfl rfl (fun _ => rfl) (by decide)
theorem icmpi (f : Fields) : Statement (.icmpi f) := of_some rfl rfl (fun _ => rfl) (by decide)
theorem andi (f : Fields) : Statement (.andi f) := of_some rfl rfl (fun _ => rfl) (by decide)
theorem ori (f : Fields) : Statement (.ori f) := of_some rfl rfl (fun _ => rfl) (by decide)
theorem xori (f : Fields) : Statement (.xori f) := of_some rfl rfl (fun _ => rfl) (by decide)
theorem perm (f : Fields) : Statement (.perm f) := of_some rfl rfl (fun _ => rfl) (by decide)
theorem shuf (f : Fields) : Statement (.shuf f) := of_some rfl rfl (fun _ => rfl) (by decide)
theorem sread (f : Fields) : Statement (.sread f) := of_some rfl rfl (fun _ => rfl) (by decide)
theorem vote (f : Fields) : Statement (.vote f) := of_some rfl rfl (fun _ => rfl) (by decide)
theorem elect (f : Fields) : Statement (.elect f) := of_some rfl rfl (fun _ => rfl) (by decide)
theorem reduce (f : Fields) : Statement (.reduce f) := of_some rfl rfl (fun _ => rfl) (by decide)
theorem scan (f : Fields) : Statement (.scan f) := of_some rfl rfl (fun _ => rfl) (by decide)
theorem matchMask (f : Fields) : Statement (.matchMask f) := of_some rfl rfl (fun _ => rfl) (by decide)
theorem fadd (f : Fields) : Statement (.fadd f) := of_some rfl rfl (fun _ => rfl) (by decide)
theorem fsub (f : Fields) : Statement (.fsub f) := of_some rfl rfl (fun _ => rfl) (by decide)
theorem fmul (f : Fields) : Statement (.fmul f) := of_some rfl rfl (fun _ => rfl) (by decide)
theorem ffma (f : Fields) : Statement (.ffma f) := of_some rfl rfl (fun _ => rfl) (by decide)
theorem fmin (f : Fields) : Statement (.fmin f) := of_some rfl rfl (fun _ => rfl) (by decide)
theorem fmax (f : Fields) : Statement (.fmax f) := of_some rfl rfl (fun _ => rfl) (by decide)
theorem fcmp (f : Fields) : Statement (.fcmp f) := of_some rfl rfl (fun _ => rfl) (by decide)
theorem frnd (f : Fields) : Statement (.frnd f) := of_some rfl rfl (fun _ => rfl) (by decide)
theorem frcp (f : Fields) : Statement (.frcp f) := of_some rfl rfl (fun _ => rfl) (by decide)
theorem frsq (f : Fields) : Statement (.frsq f) := of_some rfl rfl (fun _ => rfl) (by decide)
theorem fsqrt (f : Fields) : Statement (.fsqrt f) := of_some rfl rfl (fun _ => rfl) (by decide)
theorem fdiv (f : Fields) : Statement (.fdiv f) := of_some rfl rfl (fun _ => rfl) (by decide)
theorem fexp2 (f : Fields) : Statement (.fexp2 f) := of_some rfl rfl (fun _ => rfl) (by decide)
theorem flog2 (f : Fields) : Statement (.flog2 f) := of_some rfl rfl (fun _ => rfl) (by decide)
theorem fsin (f : Fields) : Statement (.fsin f) := of_some rfl rfl (fun _ => rfl) (by decide)
theorem fcos (f : Fields) : Statement (.fcos f) := of_some rfl rfl (fun _ => rfl) (by decide)
theorem fclass (f : Fields) : Statement (.fclass f) := of_some rfl rfl (fun _ => rfl) (by decide)
theorem padd2 (f : Fields) : Statement (.padd2 f) := of_some rfl rfl (fun _ => rfl) (by decide)
theorem pmul2 (f : Fields) : Statement (.pmul2 f) := of_some rfl rfl (fun _ => rfl) (by decide)
theorem pfma2 (f : Fields) : Statement (.pfma2 f) := of_some rfl rfl (fun _ => rfl) (by decide)
theorem pmin2 (f : Fields) : Statement (.pmin2 f) := of_some rfl rfl (fun _ => rfl) (by decide)
theorem pmax2 (f : Fields) : Statement (.pmax2 f) := of_some rfl rfl (fun _ => rfl) (by decide)
theorem pdot2 (f : Fields) : Statement (.pdot2 f) := of_some rfl rfl (fun _ => rfl) (by decide)
theorem cvt (f : Fields) : Statement (.cvt f) := of_some rfl rfl (fun _ => rfl) (by decide)
theorem cvtpk (f : Fields) : Statement (.cvtpk f) := of_some rfl rfl (fun _ => rfl) (by decide)
theorem cvtn (f : Fields) : Statement (.cvtn f) := of_some rfl rfl (fun _ => rfl) (by decide)
theorem cvtw (f : Fields) : Statement (.cvtw f) := of_some rfl rfl (fun _ => rfl) (by decide)
theorem terpk (f : Fields) : Statement (.terpk f) := of_some rfl rfl (fun _ => rfl) (by decide)
theorem terunpk (f : Fields) : Statement (.terunpk f) := of_some rfl rfl (fun _ => rfl) (by decide)
theorem scacc (f : Fields) : Statement (.scacc f) := of_some rfl rfl (fun _ => rfl) (by decide)
theorem bra (f : Fields) : Statement (.bra f) := of_some rfl rfl (fun _ => rfl) (by decide)
theorem brx (f : Fields) : Statement (.brx f) := of_some rfl rfl (fun _ => rfl) (by decide)
theorem call (f : Fields) : Statement (.call f) := of_some rfl rfl (fun _ => rfl) (by decide)
theorem callx (f : Fields) : Statement (.callx f) := of_some rfl rfl (fun _ => rfl) (by decide)
theorem ret (f : Fields) : Statement (.ret f) := of_some rfl rfl (fun _ => rfl) (by decide)
theorem exit (f : Fields) : Statement (.exit f) := of_some rfl rfl (fun _ => rfl) (by decide)
theorem yield (f : Fields) : Statement (.yield f) := of_some rfl rfl (fun _ => rfl) (by decide)
theorem bkpt (f : Fields) : Statement (.bkpt f) := of_some rfl rfl (fun _ => rfl) (by decide)
theorem sync (f : Fields) : Statement (.sync f) := of_some rfl rfl (fun _ => rfl) (by decide)
theorem setjoin (f : Fields) : Statement (.setjoin f) := of_some rfl rfl (fun _ => rfl) (by decide)
theorem setleave (f : Fields) : Statement (.setleave f) := of_some rfl rfl (fun _ => rfl) (by decide)
theorem regroup (f : Fields) : Statement (.regroup f) := of_some rfl rfl (fun _ => rfl) (by decide)
theorem rghome (f : Fields) : Statement (.rghome f) := of_some rfl rfl (fun _ => rfl) (by decide)
theorem regroupCommit (core block role : Nat) : Statement (.regroupCommit core block role) := of_none rfl
theorem regroupPreemptTimeout (core block role : Nat) : Statement (.regroupPreemptTimeout core block role) := of_none rfl
theorem grow (f : Fields) : Statement (.grow f) := of_some rfl rfl (fun _ => rfl) (by decide)
theorem growGrant (core : Nat) : Statement (.growGrant core) := of_none rfl
theorem shrink (f : Fields) : Statement (.shrink f) := of_some rfl rfl (fun _ => rfl) (by decide)
theorem compaction (core : Nat) : Statement (.compaction core) := of_none rfl
theorem rendezvousComplete (core ctx : Nat) (pc : Dword) : Statement (.rendezvousComplete core ctx pc) := of_none rfl
theorem ld (f : Fields) : Statement (.ld f) := of_some rfl rfl (fun _ => rfl) (by decide)
theorem st (f : Fields) : Statement (.st f) := of_some rfl rfl (fun _ => rfl) (by decide)
theorem lds (f : Fields) : Statement (.lds f) := of_some rfl rfl (fun _ => rfl) (by decide)
theorem sts (f : Fields) : Statement (.sts f) := of_some rfl rfl (fun _ => rfl) (by decide)
theorem atom (f : Fields) : Statement (.atom f) := of_some rfl rfl (fun _ => rfl) (by decide)
theorem atoms (f : Fields) : Statement (.atoms f) := of_some rfl rfl (fun _ => rfl) (by decide)
theorem red (f : Fields) : Statement (.red f) := of_some rfl rfl (fun _ => rfl) (by decide)
theorem fence (f : Fields) : Statement (.fence f) := of_some rfl rfl (fun _ => rfl) (by decide)
theorem cctl (f : Fields) : Statement (.cctl f) := of_some rfl rfl (fun _ => rfl) (by decide)
theorem pref (f : Fields) : Statement (.pref f) := of_some rfl rfl (fun _ => rfl) (by decide)
theorem loadReturn (core ctx id : Nat) (lanes : Mask) : Statement (.loadReturn core ctx id lanes) := of_none rfl
theorem storeLeaveQueue (core ctx : Nat) : Statement (.storeLeaveQueue core ctx) := of_none rfl
theorem storeAck (core id lane : Nat) : Statement (.storeAck core id lane) := of_none rfl
theorem atomicPerform (core id lane : Nat) : Statement (.atomicPerform core id lane) := of_none rfl
theorem pageWalk (die id : Nat) : Statement (.pageWalk die id) := of_none rfl
theorem mma (f : Fields) : Statement (.mma f) := of_some rfl rfl (fun _ => rfl) (by decide)
theorem mmas (f : Fields) : Statement (.mmas f) := of_some rfl rfl (fun _ => rfl) (by decide)
theorem mmat (f : Fields) : Statement (.mmat f) := of_some rfl rfl (fun _ => rfl) (by decide)
theorem matrixGrant (cluster : Nat) : Statement (.matrixGrant cluster) := of_none rfl
theorem matrixComplete (id : Nat) : Statement (.matrixComplete id) := of_none rfl
theorem oprdy (f : Fields) : Statement (.oprdy f) := of_some rfl rfl (fun _ => rfl) (by decide)
theorem actld (f : Fields) : Statement (.actld f) := of_some rfl rfl (fun _ => rfl) (by decide)
theorem xvset (f : Fields) : Statement (.xvset f) := of_some rfl rfl (fun w => by
  have h : f.mod = 0 := by simp only [wellFormed, Bool.and_eq_true, beq_iff_eq] at w; exact w.2
  simp [buildInstr, h]) (by decide)
theorem xvsetRd (f : Fields) : Statement (.xvsetRd f) := of_some rfl rfl (fun w => by
  have h : f.mod = 1 := by simp only [wellFormed, Bool.and_eq_true, beq_iff_eq] at w; exact w.2
  simp [buildInstr, h]) (by decide)
theorem mxstat (f : Fields) : Statement (.mxstat f) := of_some rfl rfl (fun _ => rfl) (by decide)
theorem cpy (f : Fields) : Statement (.cpy f) := of_some rfl rfl (fun _ => rfl) (by decide)
theorem cpyg (f : Fields) : Statement (.cpyg f) := of_some rfl rfl (fun _ => rfl) (by decide)
theorem cpys (f : Fields) : Statement (.cpys f) := of_some rfl rfl (fun _ => rfl) (by decide)
theorem copyChunk (id : Nat) : Statement (.copyChunk id) := of_none rfl
theorem copyComplete (id : Nat) : Statement (.copyComplete id) := of_none rfl
theorem budgetRefill (die : Nat) : Statement (.budgetRefill die) := of_none rfl
theorem htest (f : Fields) : Statement (.htest f) := of_some rfl rfl (fun _ => rfl) (by decide)
theorem hmov (f : Fields) : Statement (.hmov f) := of_some rfl rfl (fun _ => rfl) (by decide)
theorem hcancel (f : Fields) : Statement (.hcancel f) := of_some rfl rfl (fun _ => rfl) (by decide)
theorem hwait (f : Fields) : Statement (.hwait f) := of_some rfl rfl (fun _ => rfl) (by decide)
theorem tfetch (f : Fields) : Statement (.tfetch f) := of_some rfl rfl (fun _ => rfl) (by decide)
theorem tret (f : Fields) : Statement (.tret f) := of_some rfl rfl (fun _ => rfl) (by decide)
theorem lpost (f : Fields) : Statement (.lpost f) := of_some rfl rfl (fun _ => rfl) (by decide)
theorem linkTransmit (id : Nat) : Statement (.linkTransmit id) := of_none rfl
theorem linkRequestArrive (req : RemoteReq) : Statement (.linkRequestArrive req) := of_none rfl
theorem linkResponse (id cause chunks : Nat) (data : List Byte) : Statement (.linkResponse id cause chunks data) := of_none rfl
theorem flitTimeout (lane : Nat) : Statement (.flitTimeout lane) := of_none rfl
theorem laneRetrainFail (lane : Nat) : Statement (.laneRetrainFail lane) := of_none rfl
theorem qpError (qp : Nat) (peerDown : Bool) : Statement (.qpError qp peerDown) := of_none rfl
theorem trap (f : Fields) : Statement (.trap f) := of_some rfl rfl (fun _ => rfl) (by decide)
theorem trapTake (core id : Nat) : Statement (.trapTake core id) := of_none rfl
theorem frameDeliver (core : Nat) (firmware : Bool) : Statement (.frameDeliver core firmware) := of_none rfl
theorem eret (f : Fields) : Statement (.eret f) := of_some rfl rfl (fun _ => rfl) (by decide)
theorem winrd (f : Fields) : Statement (.winrd f) := of_some rfl rfl (fun _ => rfl) (by decide)
theorem winwr (f : Fields) : Statement (.winwr f) := of_some rfl rfl (fun _ => rfl) (by decide)
theorem rqrd (f : Fields) : Statement (.rqrd f) := of_some rfl rfl (fun _ => rfl) (by decide)
theorem rqwr (f : Fields) : Statement (.rqwr f) := of_some rfl rfl (fun _ => rfl) (by decide)
theorem csrrd (f : Fields) : Statement (.csrrd f) := of_some rfl rfl (fun _ => rfl) (by decide)
theorem csrwr (f : Fields) : Statement (.csrwr f) := of_some rfl rfl (fun _ => rfl) (by decide)
theorem tNoticeWrite (core ctx : Nat) : Statement (.tNoticeWrite core ctx) := of_none rfl
theorem tXlatWrite (core ctx : Nat) : Statement (.tXlatWrite core ctx) := of_none rfl
theorem ifence (f : Fields) : Statement (.ifence f) := of_some rfl rfl (fun _ => rfl) (by decide)
theorem xbld (f : Fields) : Statement (.xbld f) := of_some rfl rfl (fun _ => rfl) (by decide)
theorem xbinv (f : Fields) : Statement (.xbinv f) := of_some rfl rfl (fun _ => rfl) (by decide)
theorem xbrd (f : Fields) : Statement (.xbrd f) := of_some rfl rfl (fun _ => rfl) (by decide)
theorem cede (f : Fields) : Statement (.cede f) := of_some rfl rfl (fun _ => rfl) (by decide)
theorem cedeArrival (id : Nat) : Statement (.cedeArrival id) := of_none rfl
theorem fwcall (f : Fields) : Statement (.fwcall f) := of_some rfl rfl (fun _ => rfl) (by decide)
theorem gstop (f : Fields) : Statement (.gstop f) := of_some rfl rfl (fun _ => rfl) (by decide)
theorem nwait (f : Fields) : Statement (.nwait f) := of_some rfl rfl (fun _ => rfl) (by decide)
theorem slotRelease (core ctx : Nat) : Statement (.slotRelease core ctx) := of_none rfl
theorem launchWrite (q : Nat) (bytes : List Byte) : Statement (.launchWrite q bytes) := of_none rfl
theorem doorbell (q : Nat) (v : Word) : Statement (.doorbell q v) := of_none rfl
theorem queueEnable (q : Nat) : Statement (.queueEnable q) := of_none rfl
theorem queueDisable (q : Nat) : Statement (.queueDisable q) := of_none rfl
theorem queueStopped (q : Nat) : Statement (.queueStopped q) := of_none rfl
theorem queueReset (q : Nat) (restart : Word) : Statement (.queueReset q restart) := of_none rfl
theorem packetClaim (q : Nat) : Statement (.packetClaim q) := of_none rfl
theorem packetSlotReread (q : Nat) (pos : Word) : Statement (.packetSlotReread q pos) := of_none rfl
theorem packetCheck (q : Nat) (pos : Word) : Statement (.packetCheck q pos) := of_none rfl
theorem blockPlace (launch core : Nat) : Statement (.blockPlace launch core) := of_none rfl
theorem launchComplete (launch : Nat) : Statement (.launchComplete launch) := of_none rfl
theorem gangMigrate (core block target : Nat) : Statement (.gangMigrate core block target) := of_none rfl
theorem firmwareEndLaunch (launch : Nat) : Statement (.firmwareEndLaunch launch) := of_none rfl
theorem noticePost (tenant : Nat) (kind count deadline : Nat) (cands : List Nat) (newTag : Nat) : Statement (.noticePost tenant kind count deadline cands newTag) := of_none rfl
theorem noticeDeadline (tenant kind : Nat) : Statement (.noticeDeadline tenant kind) := of_none rfl
theorem skidderSeize (tenant kind : Nat) : Statement (.skidderSeize tenant kind) := of_none rfl
theorem preemptRequest (bytes : List Byte) : Statement (.preemptRequest bytes) := of_none rfl
theorem preemptDrainDeadline (req cluster : Nat) : Statement (.preemptDrainDeadline req cluster) := of_none rfl
theorem preemptSave (req core : Nat) : Statement (.preemptSave req core) := of_none rfl
theorem preemptDiscard (req core : Nat) : Statement (.preemptDiscard req core) := of_none rfl
theorem preemptClusterDone (req cluster : Nat) : Statement (.preemptClusterDone req cluster) := of_none rfl
theorem blockResume (id core : Nat) : Statement (.blockResume id core) := of_none rfl
theorem functionLevelReset (f : Nat) : Statement (.functionLevelReset f) := of_none rfl
theorem flrDrained (f : Nat) : Statement (.flrDrained f) := of_none rfl
theorem functionPause (f : Nat) : Statement (.functionPause f) := of_none rfl
theorem functionPaused (f : Nat) : Statement (.functionPaused f) := of_none rfl
theorem functionUnpause (f : Nat) : Statement (.functionUnpause f) := of_none rfl
theorem qpSetReady (qp : Nat) (peer : PeerView) : Statement (.qpSetReady qp peer) := of_none rfl
theorem qpTeardown (qp : Nat) : Statement (.qpTeardown qp) := of_none rfl
theorem msiUnmask (i : Nat) : Statement (.msiUnmask i) := of_none rfl
theorem pcieInboundWrite (fn pa : Nat) (data : List Byte) : Statement (.pcieInboundWrite fn pa data) := of_none rfl
theorem watchdogControl (v : Word) : Statement (.watchdogControl v) := of_none rfl
theorem watchdogKick (v : Word) : Statement (.watchdogKick v) := of_none rfl
theorem watchdogExpire : Statement (.watchdogExpire) := of_none rfl
theorem powerOn : Statement (.powerOn) := of_none rfl
theorem coldStart (failStep : Nat) : Statement (.coldStart failStep) := of_none rfl
theorem warmStart (failStep : Nat) (deadDies : BitVec 4) : Statement (.warmStart failStep deadDies) := of_none rfl
theorem dirtySwap (k : Nat) : Statement (.dirtySwap k) := of_none rfl
theorem ckRound (cmd : CkCmd) : Statement (.ckRound cmd) := of_none rfl
theorem ckFinal (cmd : CkCmd) : Statement (.ckFinal cmd) := of_none rfl
theorem ckAbort (cmd : CkCmd) : Statement (.ckAbort cmd) := of_none rfl
theorem ckRollback (cmd : CkCmd) : Statement (.ckRollback cmd) := of_none rfl
theorem ckcmdInvalid (op : Nat) (cmd : CkCmd) : Statement (.ckcmdInvalid op cmd) := of_none rfl
theorem checkpointOpDone (id : Nat) (reason : Nat) : Statement (.checkpointOpDone id reason) := of_none rfl
theorem receiverEnable (k : Nat) (qp : Nat) : Statement (.receiverEnable k qp) := of_none rfl
theorem stageRecord (k : Nat) (kind : Nat) (frame : Nat) (swapSeq : Word) (data : List Byte) : Statement (.stageRecord k kind frame swapSeq data) := of_none rfl
theorem commitApply (k tenant : Nat) (swapSeq : Word) : Statement (.commitApply k tenant swapSeq) := of_none rfl
theorem portsDown (modid : Nat) : Statement (.portsDown modid) := of_none rfl
theorem mgLogrd (buf first count : Nat) : Statement (.mgLogrd buf first count) := of_none rfl
theorem mgStage (buf len : Nat) : Statement (.mgStage buf len) := of_none rfl
theorem mgActivate : Statement (.mgActivate) := of_none rfl
theorem mgAttest (buf : Nat) (nonce : List Byte) : Statement (.mgAttest buf nonce) := of_none rfl
theorem mgStart (cold : Bool) : Statement (.mgStart cold) := of_none rfl
theorem mgConfig (modid : Nat) (ep : Bool) : Statement (.mgConfig modid ep) := of_none rfl
theorem mgLimit (sensor : Nat) (value : Word) : Statement (.mgLimit sensor value) := of_none rfl
theorem mcmdInvalid (op : Nat) : Statement (.mcmdInvalid op) := of_none rfl
theorem mgmtCommandDone : Statement (.mgmtCommandDone) := of_none rfl
theorem sensorSample (thermal : List Word) (rails : List (Word × Word)) : Statement (.sensorSample thermal rails) := of_none rfl
theorem registerWrite (pa : Nat) (value : Dword) : Statement (.registerWrite pa value) := of_none rfl
theorem resultWriteback (core ctx id : Nat) : Statement (.resultWriteback core ctx id) := of_none rfl
theorem hostHartAccess (hart : Nat) (kind : HartAccess) (pa size : Nat) (data : List Byte) : Statement (.hostHartAccess hart kind pa size data) := of_none rfl

end Sys2Proof.Laws.RoundTrip
end

