-- ==== Sys2Proof/Tests/Slice0.lean ====
section
/-! SUPPORT. The author's own tests: words from the manual's encodings, an ill-formed term for each check of
WellFormed, one step on small states with results worked out from the manual, and for each statement with
hypotheses a state and operands that meet them (names `witness_…`). -/

namespace Sys2Proof.Tests
open Sys2Proof Sys2Proof.Machine Sys2Proof.Safety
set_option Elab.async false

/-- Fields of an instruction of 128 bits and lane scope: D is 4, A 8, B 12, C 16, no predicate. -/
def laneF : Fields where
  len := .w128
  scope := .lane
  stall := 0
  sw := false
  d := 4
  a := 8
  b := 12
  p := 1023
  pn := false
  ra := false
  rb := false
  mod := 0
  c := 16
  perm := 0
  hint := 0
  sub := 0
  rsvi := 0
  imm := 0

/-- The same with group scope. -/
def groupF : Fields := { laneF with scope := .group }

/-- A group of 64 threads at 0x1_0000 whose lane 0 has three operands. -/
def smallGroup : Group where
  live := true
  wd := 3
  tlevel := true
  allot := [128]
  homes := 0xFF
  running := some 0x10000
  frontier := [{ pc := 0x10000, mask := BitVec.allOnes 64 }]
  regs := [(8 * 64, 0xFFFFFFFF), (12 * 64, 2), (16 * 64, 5)]

/-- A core of tenant 1 with that group in slot 0 alone. -/
def small : State := setCore State.reset 0 { fTenant := 0x80000001, groups := [(0, smallGroup)] }

/-- The entry that stands at the address of the samples. -/
def smallEntry : Entry := { pc := 0x10000, mask := BitVec.allOnes 64 }

/-- An instruction of lane scope that issues in a state. -/
def aloneIn (s : State) (e : Entry) (op : Nat := 0) : Issue := ⟨s, e, s, [s.cur.2], op⟩

/-- One of a wider scope whose entry's arrival completes the rendezvous. -/
def joinedIn (op : Nat) (f : Fields) (s : State) (e : Entry) : Issue :=
  let k := getCore s s.cur.1
  ⟨s, e, updGroup s s.cur.1 s.cur.2 (fun g => arrive g e.pc (rdvOf (k.group s.cur.2) op f)),
    membersAt k s.cur.2 f.scope (byRoleOp op f), op⟩

/-- The conditions of `Ready`, evaluated; the instruction is well-formed. -/
def readyAlone (op : Nat) (f : Fields) (s : State) (e : Entry) : Bool :=
  fieldsWellFormed op f && f.scope == .lane &&
  runningEntry (getGroup s s.cur.1 s.cur.2) == some e && depCheck s s.cur.1 s.cur.2 op f e == .go &&
  ((aloneIn s e op).use f).isSome && (rbOf (getCore s s.cur.1) op f [s.cur.2]).isNone &&
  (struckOf (getCore s s.cur.1) op f ((aloneIn s e op).members f)).isNone

def readyJoined (op : Nat) (f : Fields) (s : State) (e : Entry) : Bool :=
  let k := getCore s s.cur.1
  let q := joinedIn op f s e
  let p := rdvOf (k.group s.cur.2) op f
  fieldsWellFormed op f && f.scope != .lane &&
  runningEntry (getGroup s s.cur.1 s.cur.2) == some e && depCheck s s.cur.1 s.cur.2 op f e == .go &&
  (f.scope != .set || (k.group s.cur.2).setId.isSome) && (findConflict k s.cur.2 e.pc p q.xs).isNone &&
  rdvComplete (getCore q.s1 s.cur.1) q.xs e.pc p && q.xs.all (memberFree q.s1 s.cur.1 op f e.pc) &&
  (q.use f).isSome && (rbOf (getCore q.s1 s.cur.1) op f q.xs).isNone &&
  (struckOf (getCore q.s1 s.cur.1) op f (q.members f)).isNone

theorem ready_alone {op : Nat} {f : Fields} {s : State} {e : Entry} (h : readyAlone op f s e = true) :
    Ready op f (aloneIn s e op) := by
  simp only [readyAlone, Bool.and_eq_true, beq_iff_eq, Option.isNone_iff_eq_none] at h
  obtain ⟨⟨⟨⟨⟨⟨-, hl⟩, hr⟩, hd⟩, hu⟩, hb⟩, hc⟩ := h
  exact ⟨rfl, hr, hd, by rw [if_pos hl]; exact ⟨rfl, rfl⟩, hu, hb, hc⟩

theorem ready_joined {op : Nat} {f : Fields} {s : State} {e : Entry} (h : readyJoined op f s e = true) :
    Ready op f (joinedIn op f s e) := by
  simp only [readyJoined, Bool.and_eq_true, Bool.or_eq_true, bne_iff_ne, beq_iff_eq, Option.isNone_iff_eq_none,
    Option.isSome_iff_ne_none] at h
  obtain ⟨⟨⟨⟨⟨⟨⟨⟨⟨⟨-, hl⟩, hr⟩, hd⟩, hs⟩, hc⟩, hp⟩, hm⟩, hu⟩, hb⟩, hk⟩ := h
  exact ⟨rfl, hr, hd, by rw [if_neg hl]; exact ⟨fun hset => hs.resolve_left (fun hn => hn hset), rfl, hc, rfl, hp, hm⟩,
    Option.isSome_iff_ne_none.mpr hu, hb, hk⟩

/-- The samples make every listed instruction ready. -/
theorem all_ready {ops : List Nat} {f : Fields} {s : State} {e : Entry} (h : ops.all (fun op => readyAlone op f s e) = true) :
    ∀ op ∈ ops, Ready op f (aloneIn s e op) := fun _ ho => ready_alone (List.all_eq_true.mp h _ ho)

/-! ### Words -/

/-- No field set. -/
def zeroF : Fields where
  len := .w64
  scope := .lane
  stall := 0
  sw := false
  d := 0
  a := 0
  b := 0
  p := 1023
  pn := false
  ra := false
  rb := false
  mod := 0
  c := 0
  perm := 0
  hint := 0
  sub := 0
  rsvi := 0
  imm := 0

/-- Every word, of so many bits, decodes to the instruction beside it, which is well-formed. -/
def readsAs (rows : List (Nat × Nat × Instr)) : Bool :=
  rows.all (fun r => decodeTableWord r.1 r.2.1 == some r.2.2 && wellFormed r.2.2)

theorem test_words_integer_1 : readsAs [
  (64, 0x03FF0000_00000000, .nop { zeroF with len := .w64 }),
  (64, 0x03FF0040_00140100, .iadd { zeroF with len := .w64, d := 5, b := 1 }),
  (64, 0x03FF0300_80100200, .isub { zeroF with len := .w64, d := 4, a := 8, b := 0xC }),
  (64, 0x03FF0300_80100300, .iadd64 { zeroF with len := .w64, d := 4, a := 8, b := 0xC }),
  (64, 0x03FF0300_80100400, .isub64 { zeroF with len := .w64, d := 4, a := 8, b := 0xC }),
  (64, 0x03FF0300_80100500, .imul { zeroF with len := .w64, d := 4, a := 8, b := 0xC }),
  (64, 0x03FF0300_80100600, .imulh { zeroF with len := .w64, d := 4, a := 8, b := 0xC }),
  (96, 0x00000010_03FF0300_80100701, .imad { zeroF with len := .w96, d := 4, a := 8, b := 0xC, c := 0x10 }),
  (96, 0x00000010_23FF0300_80100801, .imadw { zeroF with len := .w96, d := 4, a := 8, b := 0xC, mod := 1, c := 0x10 }),
  (64, 0x03FF0300_80100900, .imin { zeroF with len := .w64, d := 4, a := 8, b := 0xC }),
  (64, 0x03FF0300_80100A00, .imax { zeroF with len := .w64, d := 4, a := 8, b := 0xC }),
  (64, 0x03FF0300_80100B00, .iabs { zeroF with len := .w64, d := 4, a := 8, b := 0xC }),
  (64, 0x23FF0300_80100C00, .idiv { zeroF with len := .w64, d := 4, a := 8, b := 0xC, mod := 1 }),
  (64, 0x03FF0300_80100D00, .irem { zeroF with len := .w64, d := 4, a := 8, b := 0xC })] = true := by decide +kernel

theorem test_words_integer_2 : readsAs [
  (64, 0xA3FF0300_80100E00, .icmp { zeroF with len := .w64, d := 4, a := 8, b := 0xC, mod := 5 }),
  (96, 0x00000010_03FF0300_80100F01, .sel { zeroF with len := .w96, d := 4, a := 8, b := 0xC, c := 0x10 }),
  (64, 0x03FF0300_80101000, .and { zeroF with len := .w64, d := 4, a := 8, b := 0xC }),
  (64, 0x03FF0300_80101100, .or { zeroF with len := .w64, d := 4, a := 8, b := 0xC }),
  (64, 0x03FF0300_80101200, .xor { zeroF with len := .w64, d := 4, a := 8, b := 0xC }),
  (64, 0x03FF0300_80101300, .andn { zeroF with len := .w64, d := 4, a := 8, b := 0xC }),
  (64, 0x03FF0300_80101400, .not { zeroF with len := .w64, d := 4, a := 8, b := 0xC }),
  (128, 0x000000D8_00000003_03FF0080_10281502, .lop3 { zeroF with len := .w128, d := 0xA, a := 1, b := 2, c := 3, imm := 0xD8 }),
  (64, 0x03FF0300_80101600, .shl { zeroF with len := .w64, d := 4, a := 8, b := 0xC }),
  (64, 0x03FF0300_80101700, .shr { zeroF with len := .w64, d := 4, a := 8, b := 0xC }),
  (64, 0x03FF0300_80101800, .sar { zeroF with len := .w64, d := 4, a := 8, b := 0xC }),
  (96, 0x00000010_63FF0300_80101901, .shf { zeroF with len := .w96, d := 4, a := 8, b := 0xC, mod := 3, c := 0x10 }),
  (96, 0x00000010_03FF0300_80101A01, .bfe { zeroF with len := .w96, d := 4, a := 8, b := 0xC, c := 0x10 }),
  (96, 0x00000010_03FF0300_80101B01, .bfi { zeroF with len := .w96, d := 4, a := 8, b := 0xC, c := 0x10 })] = true := by decide +kernel

theorem test_words_integer_3 : readsAs [
  (64, 0x03FF0300_80101C00, .popc { zeroF with len := .w64, d := 4, a := 8, b := 0xC }),
  (64, 0x03FF0300_80101D00, .clz { zeroF with len := .w64, d := 4, a := 8, b := 0xC }),
  (64, 0x03FF0300_80101E00, .brev { zeroF with len := .w64, d := 4, a := 8, b := 0xC }),
  (96, 0x06000010_23FF0300_80101F01, .lea { zeroF with len := .w96, d := 4, a := 8, b := 0xC, mod := 1, c := 0x10, sub := 3 }),
  (64, 0x03FF0300_80102000, .mov { zeroF with len := .w64, d := 4, a := 8, b := 0xC }),
  (128, 0x00001000_00000010_03FF0300_80102102, .movi { zeroF with len := .w128, d := 4, a := 8, b := 0xC, c := 0x10, imm := 0x1000 }),
  (128, 0xFFFFFFFF_00000010_03FF0300_10042202, .iaddi { zeroF with len := .w128, d := 1, a := 1, b := 0xC, c := 0x10, imm := 0xFFFFFFFF }),
  (128, 0x00000000_00000010_03FF0300_80102302, .icmpi { zeroF with len := .w128, d := 4, a := 8, b := 0xC, c := 0x10 }),
  (128, 0x00000000_00000010_03FF0300_80102402, .andi { zeroF with len := .w128, d := 4, a := 8, b := 0xC, c := 0x10 }),
  (128, 0x00000000_00000010_03FF0300_80102502, .ori { zeroF with len := .w128, d := 4, a := 8, b := 0xC, c := 0x10 }),
  (128, 0x00000000_00000010_03FF0300_80102602, .xori { zeroF with len := .w128, d := 4, a := 8, b := 0xC, c := 0x10 })] = true := by decide +kernel

theorem test_words_lane : readsAs [
  (96, 0x0001E410_03FF0300_80104001, .perm { zeroF with len := .w96, d := 4, a := 8, b := 0xC, c := 0x10, perm := 0x79 }),
  (64, 0x43FF0300_80104100, .shuf { zeroF with len := .w64, d := 4, a := 8, b := 0xC, mod := 2 }),
  (64, 0x03FF0300_A0104200, .sread { zeroF with len := .w64, d := 4, a := 0xA, b := 0xC }),
  (64, 0x63FF0300_80104340, .vote { zeroF with len := .w64, scope := .group, d := 4, a := 8, b := 0xC, mod := 3 }),
  (64, 0x03FF0300_80104440, .elect { zeroF with len := .w64, scope := .group, d := 4, a := 8, b := 0xC }),
  (96, 0x10000010_23FF0300_80104541, .reduce { zeroF with len := .w96, scope := .group, d := 4, a := 8, b := 0xC, mod := 1, c := 0x10, sub := 8 }),
  (96, 0x04000010_83FF0300_80104641, .scan { zeroF with len := .w96, scope := .group, d := 4, a := 8, b := 0xC, mod := 4, c := 0x10, sub := 2 }),
  (64, 0x03FF0300_80104740, .matchMask { zeroF with len := .w64, scope := .group, d := 4, a := 8, b := 0xC })] = true := by decide +kernel

theorem test_words_float_1 : readsAs [
  (64, 0x03FF0300_80108000, .fadd { zeroF with len := .w64, d := 4, a := 8, b := 0xC }),
  (64, 0x03FF0300_80108100, .fsub { zeroF with len := .w64, d := 4, a := 8, b := 0xC }),
  (64, 0x03FF0300_80108200, .fmul { zeroF with len := .w64, d := 4, a := 8, b := 0xC }),
  (96, 0x00000003_03FF0080_50188301, .ffma { zeroF with len := .w96, d := 6, a := 5, b := 2, c := 3 }),
  (64, 0x23FF0300_80108400, .fmin { zeroF with len := .w64, d := 4, a := 8, b := 0xC, mod := 1 }),
  (64, 0x03FF0300_80108500, .fmax { zeroF with len := .w64, d := 4, a := 8, b := 0xC }),
  (64, 0x03FF0300_80108600, .fcmp { zeroF with len := .w64, d := 4, a := 8, b := 0xC }),
  (64, 0x03FF0300_80108700, .frnd { zeroF with len := .w64, d := 4, a := 8, b := 0xC }),
  (64, 0x03FF0300_80108800, .frcp { zeroF with len := .w64, d := 4, a := 8, b := 0xC }),
  (64, 0x03FF0300_80108900, .frsq { zeroF with len := .w64, d := 4, a := 8, b := 0xC }),
  (64, 0x03FF0300_80108A00, .fsqrt { zeroF with len := .w64, d := 4, a := 8, b := 0xC }),
  (64, 0x03FF0300_80108B00, .fdiv { zeroF with len := .w64, d := 4, a := 8, b := 0xC }),
  (64, 0x03FF0300_80108C00, .fexp2 { zeroF with len := .w64, d := 4, a := 8, b := 0xC }),
  (64, 0x03FF0300_80108D00, .flog2 { zeroF with len := .w64, d := 4, a := 8, b := 0xC })] = true := by decide +kernel

theorem test_words_float_2 : readsAs [
  (64, 0x03FF0300_80108E00, .fsin { zeroF with len := .w64, d := 4, a := 8, b := 0xC }),
  (64, 0x03FF0300_80108F00, .fcos { zeroF with len := .w64, d := 4, a := 8, b := 0xC }),
  (64, 0x03FF0300_80109000, .fclass { zeroF with len := .w64, d := 4, a := 8, b := 0xC }),
  (64, 0xC3FF0300_8010A000, .padd2 { zeroF with len := .w64, d := 4, a := 8, b := 0xC, mod := 6 }),
  (64, 0x03FF0300_8010A100, .pmul2 { zeroF with len := .w64, d := 4, a := 8, b := 0xC }),
  (64, 0x03FF0300_8010A300, .pmin2 { zeroF with len := .w64, d := 4, a := 8, b := 0xC }),
  (64, 0x03FF0300_8010A400, .pmax2 { zeroF with len := .w64, d := 4, a := 8, b := 0xC }),
  (96, 0x00000010_03FF0300_8010A201, .pfma2 { zeroF with len := .w96, d := 4, a := 8, b := 0xC, c := 0x10 }),
  (96, 0x00000010_03FF0300_8010A501, .pdot2 { zeroF with len := .w96, d := 4, a := 8, b := 0xC, c := 0x10 }),
  (128, 0x00000110_00000010_03FF0300_80110002, .cvt { zeroF with len := .w128, d := 4, a := 8, b := 0xC, c := 0x10, imm := 0x110 }),
  (96, 0x02000010_03FF0300_80110101, .cvtpk { zeroF with len := .w96, d := 4, a := 8, b := 0xC, c := 0x10, sub := 1 }),
  (96, 0x06000010_03FF0300_80110201, .cvtn { zeroF with len := .w96, d := 4, a := 8, b := 0xC, c := 0x10, sub := 3 }),
  (96, 0x06000010_03FF0300_80110301, .cvtw { zeroF with len := .w96, d := 4, a := 8, b := 0xC, c := 0x10, sub := 3 }),
  (96, 0x00000010_03FF0300_80110401, .terpk { zeroF with len := .w96, d := 4, a := 8, b := 0xC, c := 0x10 })] = true := by decide +kernel

theorem test_words_float_3 : readsAs [
  (96, 0x00000010_03FF0300_80110501, .terunpk { zeroF with len := .w96, d := 4, a := 8, b := 0xC, c := 0x10 }),
  (96, 0x02000010_03FF0300_80110601, .scacc { zeroF with len := .w96, d := 4, a := 8, b := 0xC, c := 0x10, sub := 1 })] = true := by decide +kernel

theorem test_words_control_1 : readsAs [
  (128, 0xFFFFFFF0_00000010_03FF00C7_F0118002, .bra { zeroF with len := .w128, d := 4, a := 0x7F, b := 3, c := 0x10, imm := 0xFFFFFFF0 }),
  (128, 0x0000037F_00000010_03FF0300_80118202, .brx { zeroF with len := .w128, d := 4, a := 8, b := 0xC, c := 0x10, imm := 0x37F }),
  (128, 0x00000040_00000010_03FF00C7_F0118302, .call { zeroF with len := .w128, d := 4, a := 0x7F, b := 3, c := 0x10, imm := 0x40 }),
  (128, 0x0000037F_00000010_03FF0300_80118402, .callx { zeroF with len := .w128, d := 4, a := 8, b := 0xC, c := 0x10, imm := 0x37F }),
  (64, 0x03FF01C0_80118500, .ret { zeroF with len := .w64, d := 4, a := 8, b := 7 }),
  (64, 0x03FF0300_80118600, .exit { zeroF with len := .w64, d := 4, a := 8, b := 0xC }),
  (64, 0x03FF0300_80118700, .yield { zeroF with len := .w64, d := 4, a := 8, b := 0xC }),
  (64, 0x03FF0300_90118800, .bkpt { zeroF with len := .w64, d := 4, a := 9, b := 0xC }),
  (64, 0x03FF0300_8011C040, .sync { zeroF with len := .w64, scope := .group, d := 4, a := 8, b := 0xC }),
  (128, 0x00000025_00000010_03FF0300_8011C142, .setjoin { zeroF with len := .w128, scope := .group, d := 4, a := 8, b := 0xC, c := 0x10, imm := 0x25 }),
  (64, 0x03FF0300_8011C240, .setleave { zeroF with len := .w64, scope := .group, d := 4, a := 8, b := 0xC }),
  (128, 0x00000020_00000010_03FF0300_8011C3C2, .regroup { zeroF with len := .w128, scope := .block, d := 4, a := 8, b := 0xC, c := 0x10, imm := 0x20 }),
  (64, 0x03FF0302_0011C4C0, .rghome { zeroF with len := .w64, scope := .block, d := 4, a := 0x20, b := 0xC }),
  (128, 0x00000040_00000010_03FF0300_8011C542, .grow { zeroF with len := .w128, scope := .group, d := 4, a := 8, b := 0xC, c := 0x10, imm := 0x40 })] = true := by decide +kernel

theorem test_words_control_2 : readsAs [
  (128, 0x00000040_00000010_03FF0300_8011C642, .shrink { zeroF with len := .w128, scope := .group, d := 4, a := 8, b := 0xC, c := 0x10, imm := 0x40 })] = true := by decide +kernel

theorem test_words_memory : readsAs [
  (128, 0x00000040_08C00010_43FF0300_80120002, .ld { zeroF with len := .w128, d := 4, a := 8, b := 0xC, mod := 2, c := 0x10, hint := 3, sub := 4, imm := 0x40 }),
  (128, 0x00010000_08000010_03FF0300_80120102, .st { zeroF with len := .w128, d := 4, a := 8, b := 0xC, c := 0x10, sub := 4, imm := 0x10000 }),
  (128, 0x00000000_0A000010_03FF0300_80120202, .lds { zeroF with len := .w128, d := 4, a := 8, b := 0xC, c := 0x10, sub := 5 }),
  (128, 0x00000000_08000010_03FF0300_80120302, .sts { zeroF with len := .w128, d := 4, a := 8, b := 0xC, c := 0x10, sub := 4 }),
  (128, 0x00000000_12000010_23FF0300_80120402, .atom { zeroF with len := .w128, d := 4, a := 8, b := 0xC, mod := 1, c := 0x10, sub := 9 }),
  (128, 0x00000000_12000010_03FF0300_80120502, .atoms { zeroF with len := .w128, d := 4, a := 8, b := 0xC, c := 0x10, sub := 9 }),
  (128, 0x00000000_02000010_03FF0300_80120602, .red { zeroF with len := .w128, d := 4, a := 8, b := 0xC, c := 0x10, sub := 1 }),
  (96, 0x06000010_63FF0300_80120701, .fence { zeroF with len := .w96, d := 4, a := 8, b := 0xC, mod := 3, c := 0x10, sub := 3 }),
  (128, 0x00000000_04000010_03FF0300_80120802, .cctl { zeroF with len := .w128, d := 4, a := 8, b := 0xC, c := 0x10, sub := 2 }),
  (128, 0x00000000_01400010_03FF0300_80120902, .pref { zeroF with len := .w128, d := 4, a := 8, b := 0xC, c := 0x10, hint := 5 })] = true := by decide +kernel

theorem test_words_engine_1 : readsAs [
  (128, 0x00000003_02000010_03FF0300_80128042, .cpy { zeroF with len := .w128, scope := .group, d := 4, a := 8, b := 0xC, c := 0x10, sub := 1, imm := 3 }),
  (128, 0x00000008_02000010_03FF0300_80128142, .cpyg { zeroF with len := .w128, scope := .group, d := 4, a := 8, b := 0xC, c := 0x10, sub := 1, imm := 8 }),
  (128, 0x00000008_00000010_03FF0300_80128242, .cpys { zeroF with len := .w128, scope := .group, d := 4, a := 8, b := 0xC, c := 0x10, imm := 8 }),
  (64, 0x03FF0300_80128300, .htest { zeroF with len := .w64, d := 4, a := 8, b := 0xC }),
  (64, 0x03FF0300_80128440, .hmov { zeroF with len := .w64, scope := .group, d := 4, a := 8, b := 0xC }),
  (64, 0x03FF0300_80128540, .hcancel { zeroF with len := .w64, scope := .group, d := 4, a := 8, b := 0xC }),
  (64, 0x03FF0300_80128600, .hwait { zeroF with len := .w64, d := 4, a := 8, b := 0xC }),
  (128, 0x10100040_0C000018_03FF0400_80A2C042, .mma { zeroF with len := .w128, scope := .group, d := 0x28, a := 8, b := 0x10, c := 0x18, sub := 6, imm := 0x10100040 }),
  (96, 0x00000040_03FF0140_8012C141, .mmas { zeroF with len := .w96, scope := .group, d := 4, a := 8, b := 5, c := 0x40 }),
  (96, 0x00000080_03FF0144_0012C241, .mmat { zeroF with len := .w96, scope := .group, d := 4, a := 0x40, b := 5, c := 0x80 }),
  (64, 0x03FF0300_8012C340, .oprdy { zeroF with len := .w64, scope := .group, d := 4, a := 8, b := 0xC }),
  (128, 0x00000000_0A000010_03FF0300_8012C442, .actld { zeroF with len := .w128, scope := .group, d := 4, a := 8, b := 0xC, c := 0x10, sub := 5 }),
  (96, 0x04000010_03FF0300_8012C541, .xvset { zeroF with len := .w96, scope := .group, d := 4, a := 8, b := 0xC, c := 0x10, sub := 2 }),
  (96, 0x04000010_23FF0300_8012C541, .xvsetRd { zeroF with len := .w96, scope := .group, d := 4, a := 8, b := 0xC, mod := 1, c := 0x10, sub := 2 })] = true := by decide +kernel

theorem test_words_engine_2 : readsAs [
  (64, 0x23FF0300_8012C600, .mxstat { zeroF with len := .w64, d := 4, a := 8, b := 0xC, mod := 1 }),
  (64, 0x03FF0300_80130000, .tfetch { zeroF with len := .w64, d := 4, a := 8, b := 0xC }),
  (64, 0x03FF0300_80130100, .tret { zeroF with len := .w64, d := 4, a := 8, b := 0xC }),
  (128, 0x00000005_00000010_03FF0300_80130242, .lpost { zeroF with len := .w128, scope := .group, d := 4, a := 8, b := 0xC, c := 0x10, imm := 5 })] = true := by decide +kernel

theorem test_words_system_1 : readsAs [
  (128, 0x00012345_00000010_03FF0300_80134002, .trap { zeroF with len := .w128, d := 4, a := 8, b := 0xC, c := 0x10, imm := 0x12345 }),
  (64, 0x03FF0300_80134100, .eret { zeroF with len := .w64, d := 4, a := 8, b := 0xC }),
  (128, 0x00000003_00000010_03FF0300_80134202, .winrd { zeroF with len := .w128, d := 4, a := 8, b := 0xC, c := 0x10, imm := 3 }),
  (128, 0x00000003_00000010_03FF0300_80134302, .winwr { zeroF with len := .w128, d := 4, a := 8, b := 0xC, c := 0x10, imm := 3 }),
  (128, 0x00000005_00000010_03FF0300_80134402, .rqrd { zeroF with len := .w128, d := 4, a := 8, b := 0xC, c := 0x10, imm := 5 }),
  (128, 0x00000005_00000010_03FF0300_80134502, .rqwr { zeroF with len := .w128, d := 4, a := 8, b := 0xC, c := 0x10, imm := 5 }),
  (128, 0x00001003_00000010_03FF0300_80134602, .csrrd { zeroF with len := .w128, d := 4, a := 8, b := 0xC, c := 0x10, imm := 0x1003 }),
  (128, 0x00001001_00000010_03FF0300_80134702, .csrwr { zeroF with len := .w128, d := 4, a := 8, b := 0xC, c := 0x10, imm := 0x1001 }),
  (64, 0x03FF0300_80134800, .ifence { zeroF with len := .w64, d := 4, a := 8, b := 0xC }),
  (96, 0x02000010_03FF0300_80134941, .xbld { zeroF with len := .w96, scope := .group, d := 4, a := 8, b := 0xC, c := 0x10, sub := 1 }),
  (96, 0x04000010_03FF0300_80134A41, .xbinv { zeroF with len := .w96, scope := .group, d := 4, a := 8, b := 0xC, c := 0x10, sub := 2 }),
  (96, 0x04000010_03FF0300_80134B41, .xbrd { zeroF with len := .w96, scope := .group, d := 4, a := 8, b := 0xC, c := 0x10, sub := 2 }),
  (96, 0x04000010_03FF0300_80134C41, .cede { zeroF with len := .w96, scope := .group, d := 4, a := 8, b := 0xC, c := 0x10, sub := 2 }),
  (128, 0x00000001_00000010_03FF0300_80134D42, .fwcall { zeroF with len := .w128, scope := .group, d := 4, a := 8, b := 0xC, c := 0x10, imm := 1 })] = true := by decide +kernel

theorem test_words_system_2 : readsAs [
  (64, 0x03FF0300_80134E40, .gstop { zeroF with len := .w64, scope := .group, d := 4, a := 8, b := 0xC }),
  (64, 0x03FF0300_80134F40, .nwait { zeroF with len := .w64, scope := .group, d := 4, a := 8, b := 0xC })] = true := by decide +kernel

/-! ### Terms that are not well-formed -/

/-- Every encoded instruction with a predicate register of 1023 negated, which R56 refuses. -/
theorem test_refused_predicate : ([Instr.nop, .iadd, .isub, .iadd64, .isub64, .imul, .imulh, .imad, .imadw, .imin, .imax, .iabs,
    .idiv, .irem, .icmp, .sel, .and, .or, .xor, .andn, .not, .lop3, .shl, .shr, .sar, .shf, .bfe, .bfi, .popc, .clz, .brev,
    .lea, .mov, .movi, .iaddi, .icmpi, .andi, .ori, .xori, .perm, .shuf, .sread, .vote, .elect, .reduce, .scan, .matchMask,
    .fadd, .fsub, .fmul, .ffma, .fmin, .fmax, .fcmp, .frnd, .frcp, .frsq, .fsqrt, .fdiv, .fexp2, .flog2, .fsin, .fcos,
    .fclass, .padd2, .pmul2, .pfma2, .pmin2, .pmax2, .pdot2, .cvt, .cvtpk, .cvtn, .cvtw, .terpk, .terunpk, .scacc, .bra, .brx,
    .call, .callx, .ret, .exit, .yield, .bkpt, .sync, .setjoin, .setleave, .regroup, .rghome, .grow, .shrink, .ld, .st, .lds,
    .sts, .atom, .atoms, .red, .fence, .cctl, .pref, .mma, .mmas, .mmat, .oprdy, .actld, .xvset, .xvsetRd, .mxstat, .cpy,
    .cpyg, .cpys, .htest, .hmov, .hcancel, .hwait, .tfetch, .tret, .lpost, .trap, .eret, .winrd, .winwr, .rqrd, .rqwr,
    .csrrd, .csrwr, .ifence, .xbld, .xbinv, .xbrd, .cede, .fwcall, .gstop, .nwait].all
      (fun k => !wellFormed (k { zeroF with pn := true }))) = true := by decide +kernel

/-- One term for each check of an encoding: minimum length, fields of absent words, scope, MOD, SUB, PERM, IMM32, level of a
register's multiple, reserved numbers, and runs that overlap (R61, R64, R74, R76). -/
theorem test_refused_fields : ([Instr.lop3 { zeroF with len := .w96 }, .iadd { zeroF with imm := 1 }, .iadd { zeroF with sub := 1 },
    .exit { zeroF with scope := .group }, .vote zeroF, .iadd { zeroF with mod := 4 }, .xvset { zeroF with len := .w96, scope := .group, mod := 1 },
    .xvsetRd { zeroF with len := .w96, scope := .group }, .ld { laneF with sub := 7 }, .nop { laneF with perm := 5 },
    .iadd { laneF with imm := 1 }, .iadd64 { zeroF with a := 7 }, .iadd { zeroF with d := 640 },
    .mma { laneF with scope := .group, a := 8, b := 8, c := 24, d := 4 }, .cpyg { laneF with scope := .group, d := 17 }].all
      (fun i => !wellFormed i)) = true := by decide +kernel

/-- One term for each check of an event's operands. -/
theorem test_refused_events : ([Instr.regroupCommit 768 0 0, .regroupPreemptTimeout 0 4 0, .growGrant 768, .compaction 768,
    .rendezvousComplete 0 50 0, .loadReturn 768 0 0 0, .storeLeaveQueue 0 50, .storeAck 0 0 64, .atomicPerform 768 0 0,
    .pageWalk 4 0, .matrixGrant 192, .budgetRefill 4, .linkRequestArrive ⟨0, 0, 0, 0, 0, 2, [0], 0, 0, none⟩,
    .linkRequestArrive ⟨2, 0, 0, 0, 4, 8, [], 0, 0, none⟩, .linkResponse 0 1 0 [], .flitTimeout 96, .laneRetrainFail 96, .qpError 4096 true,
    .trapTake 768 0, .frameDeliver 768 true, .tNoticeWrite 0 50, .tXlatWrite 768 0, .slotRelease 0 48, .launchWrite 64 [],
    .launchWrite 0 [0], .doorbell 64 0, .queueEnable 64, .queueDisable 64, .queueStopped 64, .queueReset 64 0, .packetClaim 64,
    .packetSlotReread 64 0, .packetCheck 64 0, .blockPlace 0 768, .gangMigrate 0 4 0, .noticePost 0 0 17 1 [] 0,
    .noticePost 0 6 1 1 [] 0, .noticeDeadline 4096 0, .skidderSeize 0 6, .preemptRequest [0], .preemptDrainDeadline 0 192,
    .preemptSave 0 768, .preemptDiscard 0 768, .preemptClusterDone 0 192, .blockResume 0 768, .functionLevelReset 64,
    .flrDrained 64, .functionPause 64, .functionPaused 64, .functionUnpause 64, .qpSetReady 4096 ⟨true, 0, 0, 0⟩, .qpTeardown 4096,
    .msiUnmask 16, .pcieInboundWrite 0 549755813888 [0], .coldStart 10, .warmStart 10 0, .dirtySwap 16, .ckRound ⟨16, 0, 0⟩,
    .ckFinal ⟨0, 4096, 0⟩, .ckAbort ⟨16, 0, 0⟩, .ckRollback ⟨16, 0, 0⟩, .ckcmdInvalid 1 ⟨0, 0, 0⟩, .checkpointOpDone 0 6,
    .receiverEnable 16 0, .stageRecord 0 3 0 0 [], .commitApply 16 0 0, .portsDown 576, .mgAttest 0 [], .mgConfig 65536 true,
    .mgLimit 65536 0, .mcmdInvalid 1, .sensorSample [] [], .resultWriteback 0 50 0, .hostHartAccess 0 ⟨false, false⟩ 1 2 [],
    .hostHartAccess 0 ⟨true, false⟩ 0 4 []].all (fun i => !wellFormed i)) = true := by decide +kernel

/-! ### One step: integer and lane instructions -/

/-- The small core with these registers in lane 0, which runs alone. -/
def withRegs (rs : List (Nat × Word)) : State :=
  setCore State.reset 0 { fTenant := 0x80000001, groups := [(0, { smallGroup with
    frontier := [{ pc := 0x10000, mask := 1 }], regs := rs.map (fun r => (r.1 * 64, r.2)) })] }

/-- The words that the result of an instruction will give registers from D on in lane `l` of slot 0, and its exceptions. -/
def gives (r : Host.Outcome State Fault Refusal) (n l : Nat) : List Word × Nat :=
  match r with
  | .next t => (((getGroup t 0 0).pend.map (fun p =>
      ((List.range n).map (fun j => mget 0xDEADBEEF p.cells (cellKey (4 + j) l)), p.exc.toNat))).getLastD ([], 99))
  | _ => ([], 98)

/-- a, b and c in lane 0 and the words that each instruction gives, with the same fields but for MOD. -/
def computesTo (rows : List ((Fields → Instr) × Nat × List (Nat × Word) × List Word)) : Bool :=
  rows.all (fun r => gives (exec (r.1 { laneF with mod := BitVec.ofNat 3 r.2.1 }) (withRegs r.2.2.1)) r.2.2.2.length 0 == (r.2.2.2, 0))

theorem test_add_subtract : computesTo [
  (.iadd, 0, [(8, 0xFFFFFFFF), (12, 2)], [1]),
  (.iadd, 1, [(8, 0x7FFFFFFF), (12, 1)], [0x7FFFFFFF]),
  (.iadd, 3, [(8, 0xFFFFFFFF), (12, 1)], [0, 1]),
  (.isub, 2, [(8, 1), (12, 2)], [0]),
  (.isub, 3, [(8, 1), (12, 2)], [0xFFFFFFFF, 1]),
  (.iadd64, 0, [(8, 0xFFFFFFFF), (9, 1), (12, 1)], [0, 2]),
  (.isub64, 1, [(9, 0x80000000), (12, 1)], [0, 0x80000000])] = true := by decide +kernel

theorem test_multiply_divide : computesTo [
  (.imul, 0, [(8, 0x10001), (12, 0x10001)], [0x20001]),
  (.imulh, 0, [(8, 0xFFFFFFFF), (12, 2)], [0xFFFFFFFF]), (.imulh, 1, [(8, 0xFFFFFFFF), (12, 2)], [1]),
  (.imad, 0, [(8, 3), (12, 5), (16, 0xFFFFFFFF)], [14]),
  (.imadw, 0, [(8, 0xFFFFFFFF), (12, 2), (16, 1)], [0xFFFFFFFF, 0xFFFFFFFF]),
  (.idiv, 0, [(8, 7)], [0xFFFFFFFF]), (.irem, 0, [(8, 7)], [7]),
  (.idiv, 0, [(8, 0x80000000), (12, 0xFFFFFFFF)], [0x80000000]), (.irem, 0, [(8, 0x80000000), (12, 0xFFFFFFFF)], [0]),
  (.idiv, 0, [(8, 7), (12, 0xFFFFFFFE)], [0xFFFFFFFD]), (.irem, 0, [(8, 0xFFFFFFF9), (12, 2)], [0xFFFFFFFF])] = true := by
  decide +kernel

theorem test_compare_select : computesTo [
  (.imin, 0, [(8, 0xFFFFFFFF), (12, 1)], [0xFFFFFFFF]), (.imin, 1, [(8, 0xFFFFFFFF), (12, 1)], [1]),
  (.imax, 0, [(8, 0xFFFFFFFF), (12, 1)], [1]), (.iabs, 0, [(8, 0x80000000)], [0x80000000]),
  (.iabs, 1, [(8, 0x80000000)], [0x7FFFFFFF]),
  (.icmp, 2, [(8, 0xFFFFFFFF), (12, 1)], [1]), (.icmp, 4, [(8, 0xFFFFFFFF), (12, 1)], [0]),
  (.sel, 0, [(8, 5), (12, 6), (16, 1)], [5]), (.sel, 0, [(8, 5), (12, 6)], [6])] = true := by decide +kernel

theorem test_logic_shifts : computesTo [
  (.and, 0, [(8, 12), (12, 10)], [8]), (.or, 0, [(8, 12), (12, 10)], [14]), (.xor, 0, [(8, 12), (12, 10)], [6]),
  (.andn, 0, [(8, 12), (12, 10)], [4]), (.not, 0, [(8, 12)], [0xFFFFFFF3]),
  (.shl, 0, [(8, 1), (12, 32)], [0]), (.shl, 1, [(8, 1), (12, 33)], [2]), (.shr, 0, [(8, 0x80000000), (12, 31)], [1]),
  (.sar, 0, [(8, 0x80000000), (12, 40)], [0xFFFFFFFF]),
  (.shf, 0, [(8, 0x11111111), (12, 0x22222222), (16, 32)], [0x11111111]),
  (.shf, 1, [(8, 0x11111111), (12, 0x22222222), (16, 40)], [0x22222222]),
  (.shf, 1, [(8, 0x11111111), (12, 0x22222222), (16, 4)], [0x21111111])] = true := by decide +kernel

theorem test_bits_moves : computesTo [
  (.bfe, 0, [(8, 0xF0), (12, 4), (16, 4)], [0xF]), (.bfe, 1, [(8, 0xF0), (12, 4), (16, 4)], [0xFFFFFFFF]),
  (.bfi, 0, [(8, 0xFF), (12, 0x12345678), (16, 0x0408)], [0x12345F78]),
  (.popc, 0, [(8, 0xF00F)], [8]), (.clz, 0, [(8, 0)], [32]), (.clz, 0, [(8, 1)], [31]), (.brev, 0, [(8, 1)], [0x80000000]),
  (.lea, 0, [(8, 4), (12, 0xFFFFFFFF)], [3, 0]), (.lea, 1, [(8, 4), (12, 0xFFFFFFFF)], [3, 1]),
  (.mov, 1, [(8, 4), (9, 5)], [4, 5])] = true := by decide +kernel

/-- The immediate forms, and LOP3 with the operands of the manual's worked encoding. -/
theorem test_immediates : ([
  (Instr.lop3 { laneF with imm := 0xD8 }, [(8, 0x0000FFFF), (12, 0x12345678), (16, 0x9ABCDEF0)], [0x9ABC5678]),
  (.movi { laneF with imm := 0x80000000, mod := 1 }, [], [0x80000000, 0xFFFFFFFF]),
  (.iaddi { laneF with imm := 0xFFFFFFFF }, [(8, 3)], [2]), (.icmpi { laneF with imm := 7, mod := 5 }, [(8, 8)], [0]),
  (.andi { laneF with imm := 6 }, [(8, 12)], [4]), (.ori { laneF with imm := 6 }, [(8, 12)], [14]),
  (.xori { laneF with imm := 6 }, [(8, 12)], [10])] : List (Instr × List (Nat × Word) × List Word)).all
    (fun r => gives (exec r.1 (withRegs r.2.1)) r.2.2.length 0 == (r.2.2, 0)) = true := by decide +kernel

/-- NOP sends no result and goes on at the next instruction. -/
theorem test_nop : (match exec (.nop { zeroF with d := 4 }) small with
    | .next t => ((getGroup t 0 0).pend.isEmpty, (getGroup t 0 0).frontier.map (·.pc)) | _ => (false, [])) = (true, [0x10008]) := by
  decide +kernel

/-- Eight threads whose v8 holds the counts of the manual's worked case of SCAN, v12 the numbers 7 down to 0. -/
def eight : State := setCore State.reset 0 { fTenant := 0x80000001, groups := [(0, { smallGroup with
  wd := 0, homes := 1, frontier := [{ pc := 0x10000, mask := 0xFF }],
  regs := [(512, 2), (514, 1), (515, 3), (518, 1), (519, 1), (768, 7), (769, 6), (770, 5), (771, 4), (772, 3), (773, 2), (774, 1)] })] }

/-- The first word that an instruction gives in each of the eight lanes. -/
def laneWords (r : Host.Outcome State Fault Refusal) : List Nat := (List.range 8).map (fun l => ((gives r 1 l).1.getD 0 99).toNat)

theorem test_movement : laneWords (exec (.perm { laneF with perm := 45, a := 12 }) eight) = [6, 5, 4, 3, 2, 1, 0, 7] ∧
    laneWords (exec (.shuf { laneF with b := 12 }) eight) = [1, 1, 0, 0, 3, 1, 0, 2] ∧
    laneWords (exec (.sread { laneF with a := 0 }) eight) = [0, 1, 2, 3, 4, 5, 6, 7] := by decide +kernel

theorem test_votes : gives (exec (.vote { groupF with mod := 3 }) eight) 2 5 = ([0b11001101, 0], 0) ∧
    gives (exec (.vote { groupF with mod := 4 }) eight) 1 0 = ([5], 0) ∧
    laneWords (exec (.elect groupF) eight) = [1, 0, 0, 0, 0, 0, 0, 0] ∧
    gives (exec (.matchMask groupF) eight) 2 7 = ([0b11000100, 0], 0) := by decide +kernel

/-- The worked case of R112: offsets by an exclusive scan, and the total. -/
theorem test_reductions : laneWords (exec (.scan { groupF with mod := 4 }) eight) = [0, 2, 2, 3, 6, 6, 6, 7] ∧
    laneWords (exec (.reduce groupF) eight) = [8, 8, 8, 8, 8, 8, 8, 8] := by decide +kernel

/-! ### One step: floating point -/

/-- Operands in lane 0, words and exceptions: NX 1, UF 2, OF 4, DZ 8, NV 16 (R26). -/
def floatsTo (rows : List (Instr × List (Nat × Word) × List Word × Nat)) : Bool :=
  rows.all (fun r => gives (exec r.1 (withRegs r.2.1)) r.2.2.1.length 0 == (r.2.2.1, r.2.2.2))

theorem test_float_arithmetic : floatsTo [
  (.fadd laneF, [(8, 0x3F800000), (12, 0x40000000)], [0x40400000], 0),
  (.fadd { laneF with mod := 2 }, [(8, 0x3F800000), (12, 0xBF800000)], [0x80000000], 0),
  (.fsub laneF, [(8, 0x7F800000), (12, 0x7F800000)], [0x7FC00000], 16),
  (.fmul laneF, [(8, 0x7F7FFFFF), (12, 0x40000000)], [0x7F800000], 5),
  (.ffma laneF, [(8, 0x3F800001), (12, 0x3F800001), (16, 0xBF800002)], [0x28800000], 0),
  (.fdiv laneF, [(8, 0xBF800000)], [0xFF800000], 8),
  (.fdiv laneF, [(8, 0x3F800000), (12, 0x40400000)], [0x3EAAAAAB], 1),
  (.fsqrt laneF, [(8, 0x40800000)], [0x40000000], 0), (.fsqrt laneF, [(8, 0xBF800000)], [0x7FC00000], 16),
  (.frnd laneF, [(8, 0x40200000)], [0x40000000], 0)] = true := by decide +kernel

theorem test_float_compare : floatsTo [
  (.fmin laneF, [(8, 0x80000000), (12, 0)], [0x80000000], 0), (.fmax laneF, [(8, 0x7FC00000), (12, 0x3F800000)], [0x3F800000], 0),
  (.fmax { laneF with mod := 1 }, [(8, 0x7FC00000), (12, 0x3F800000)], [0x7FC00000], 0),
  (.fcmp { laneF with mod := 2 }, [(8, 0x7FC00000)], [0], 16), (.fcmp { laneF with mod := 6 }, [(8, 0x7FC00000)], [1], 0),
  (.fclass laneF, [(8, 0x00000001)], [32], 0), (.fclass laneF, [(8, 0x7F800001)], [256], 0)] = true := by decide +kernel

/-- The special inputs of R122. -/
theorem test_approximations : floatsTo [
  (.frcp laneF, [(8, 0x80000000)], [0xFF800000], 8), (.frsq laneF, [(8, 0xBF800000)], [0x7FC00000], 16),
  (.fexp2 laneF, [(8, 0x43000000)], [0x7F800000], 5), (.flog2 laneF, [(8, 0x3F800000)], [0], 0),
  (.fsin laneF, [(8, 0xBF800000)], [0x80000000], 0), (.fcos laneF, [(8, 0x3F000000)], [0], 0)] = true := by decide +kernel

/-- Halves of 1, 2 and 3 in F16 (R123). -/
theorem test_packed : floatsTo [
  (.padd2 laneF, [(8, 0x40003C00), (12, 0x3C003C00)], [0x42004000], 0),
  (.pmul2 laneF, [(8, 0x40003C00), (12, 0x40004000)], [0x44004000], 0),
  (.pfma2 laneF, [(8, 0x40003C00), (12, 0x3C004000), (16, 0x3C003C00)], [0x42004200], 0),
  (.pmin2 laneF, [(8, 0x40003C00), (12, 0x3C004000)], [0x3C003C00], 0), (.pmax2 laneF, [(8, 0x40003C00), (12, 0x3C004000)], [0x40004000], 0),
  (.pdot2 laneF, [(8, 0x40003C00), (12, 0x40003C00), (16, 0x3F800000)], [0x40C00000], 0)] = true := by decide +kernel

/-- The manual's worked cases of R128, R131 and R132, and packing what R131 unpacks. -/
theorem test_conversions : floatsTo [
  (.cvtn { laneF with sub := 3, mod := 4 }, [(8, 0x3F800000), (9, 0x3E99999A), (12, 0x43F80000), (13, 0x7FC00000)], [0x807F2A38], 5),
  (.cvtn { laneF with sub := 5, mod := 4, c := 1023 }, [(8, 0x3F000000), (9, 0x40E00000), (12, 0xC039999A), (13, 0x7FC00000)], [0x0D710000], 21),
  (.terunpk laneF, [(8, 0xF35800F2)], [0xFFFFFFFF, 0xFF, 0xFF010000, 0x00010000, 0], 16),
  (.terpk laneF, [(8, 0xFFFFFFFF), (9, 0xFF), (10, 0xFF010000), (11, 0x00010000)], [0x005800F2], 0),
  (.scacc { laneF with sub := 1 }, [(8, 1000003), (12, 0x3A800000), (16, 0x3F000000)], [0x44744430], 0),
  (.cvt { laneF with imm := 0x0110 }, [(8, 0x3C004000)], [0x3F800000], 0),
  (.cvtpk { laneF with sub := 1 }, [(8, 0x3F800000), (12, 0x40000000)], [0x40003C00], 0),
  (.cvtw { laneF with sub := 3 }, [(8, 0x00002A38)], [0x3F800000, 0x3EA00000], 0)] = true := by decide +kernel

/-! ### One step: control flow, scopes and traps -/

/-- What a next state holds; `d` where there is none. -/
def seen {α : Type} (r : Host.Outcome State Fault Refusal) (d : α) (look : State → α) : α :=
  match r with
  | .next t => look t
  | _ => d

/-- Address, mask and priority of the entries of slot 0. -/
def entriesAfter (r : Host.Outcome State Fault Refusal) : List (Nat × Nat × Nat) :=
  seen r [] (fun t => (getGroup t 0 0).frontier.map (fun e => (e.pc.toNat, e.mask.toNat, e.prio)))

/-- A branch that lane 0 alone takes, and the pair of addresses of R134. -/
theorem test_branches :
    entriesAfter (exec (.bra { laneF with p := 8, a := 127, b := 3, imm := 0x40 }) small) =
      [(0x10040, 1, 127), (0x10010, 2 ^ 64 - 2, 3)] ∧
    entriesAfter (exec (.bra { groupF with p := 8, mod := 1, a := 127, b := 3, imm := 0x40 }) small) = [(0x10040, 2 ^ 64 - 1, 127)] ∧
    entriesAfter (exec (.brx { laneF with imm := 0x0305 }) (withRegs [(8, 0x20000)])) = [(0x20000, 1, 5)] ∧
    entriesAfter (exec (.ret { zeroF with a := 8, b := 9 }) (withRegs [(8, 0x20000)])) = [(0x20000, 1, 9)] := by decide +kernel

/-- A call leaves the address of the next instruction in its pair; CALLX reads its target before it does. -/
theorem test_calls :
    seen (exec (.call { laneF with a := 1, b := 0, imm := 0x100 }) (withRegs [])) [] (fun t =>
      [regAt (getGroup t 0 0) 4 0, regAt (getGroup t 0 0) 5 0]) = [0x10010, 0] ∧
    entriesAfter (exec (.callx { laneF with a := 4, imm := 0 }) (withRegs [(4, 0x20000)])) = [(0x20000, 1, 0)] := by decide +kernel

theorem test_exit_yield :
    entriesAfter (exec (.exit { zeroF with p := 8 }) small) = [(0x10008, 2 ^ 64 - 2, 255)] ∧
    entriesAfter (exec (.yield zeroF) small) = [(0x10008, 2 ^ 64 - 1, 255)] := by decide +kernel

/-- BKPT and TRAP raise BK and SW with their codes; the lanes resume behind them (R141, R205). -/
theorem test_software_traps :
    seen (exec (.bkpt { zeroF with a := 9 }) small) [] (fun t => (getCore t 0).raised.map (fun r => (r.cls, r.info.toNat, r.pc.toNat))) =
      [(11, 9, 0x10000)] ∧
    entriesAfter (exec (.bkpt { zeroF with a := 9 }) small) = [(0x10008, 2 ^ 64 - 1, 255)] ∧
    seen (exec (.trap { laneF with imm := 0x123 }) small) [] (fun t => (getCore t 0).raised.map (fun r => (r.cls, r.info.toNat, r.pc.toNat))) =
      [(10, 0x123, 0x10000)] := by decide +kernel

/-- A set of one is formed at once; SETLEAVE leaves it; the barrier puts a release into the queue. -/
theorem test_sets :
    seen (exec (.setjoin { groupF with imm := 0x12 }) small) none (fun t => (getGroup t 0 0).setId) = some 2 ∧
    seen (exec (.setleave groupF) (updGroup small 0 0 (fun g => { g with setId := some 2 }))) (some 9) (fun t => (getGroup t 0 0).setId) = none ∧
    seen (exec (.sync groupF) small) [] (fun t => (getGroup t 0 0).storeq.map (fun q => (q.kind, q.rel))) = [(.fence, 1)] := by decide +kernel

/-- A block of 64 registers is appended and reads zero, and is removed again (R151, R152). -/
theorem test_growing :
    seen (exec (.grow { groupF with imm := 64, mod := 1 }) small) ([], 9) (fun t => ((getGroup t 0 0).allot, regAt (getGroup t 0 0) 4 0)) = ([128, 64], 0) ∧
    seen (exec (.shrink { groupF with imm := 64 }) (updGroup small 0 0 (fun g => { g with allot := [128, 64] }))) ([], 9)
      (fun t => ((getGroup t 0 0).allot, regAt (getGroup t 0 0) 4 0)) = ([128], 0) ∧
    seen (exec (.shrink { groupF with imm := 64 }) small) ([], 9)
      (fun t => ((getGroup t 0 0).allot, regAt (getGroup t 0 0) 4 0)) = ([128], 2) ∧
    seen (exec (.compaction 0) small) 9 (fun t => regAt (getGroup t 0 0) 16 0) = 5 := by decide +kernel

/-- The same fields with block scope. -/
def blockF : Fields := { laneF with scope := .block }

/-- REGROUP and RGHOME gather; too large a carry count raises RB (R145). -/
theorem test_regroup :
    seen (exec (.regroup { blockF with imm := 32 }) small) [] (fun t => (getCore t 0).regroups.map (fun o => (o.n, o.toHome))) = [(32, false)] ∧
    seen (exec (.rghome { blockF with a := 32 }) small) [] (fun t => (getCore t 0).regroups.map (fun o => (o.n, o.toHome))) = [(32, true)] ∧
    seen (exec (.rghome { blockF with a := 129 }) small) [] (fun t => (getCore t 0).raised.map (fun r => (r.cls, r.info.toNat))) = [(2, 128)] := by
  decide +kernel

/-! ### One step: memory -/

/-- Page 1 of tenant 1 in frame 5, which is the tenant's. -/
def mapped (s : State) : State :=
  { s with frameTag := [(5, 1)], chunkTag := [(0, 1)], xlat := [(0, { v := true, page := 1, frame := 5, x := true, w := true, r := true, tag := 1 })],
           bankTag := [(0, 1)] }

/-- Lane 0 with address 0x1_0040 in v8, data in v12 and v16, and a core whose bank 0 is scratchpad. -/
def memState (a : Word) : State :=
  updCore (mapped (withRegs [(8, a), (12, 0x11223344), (16, 7)])) 0 (fun k => { k with nspm := 1 })

theorem test_loads :
    seen (exec (.ld { laneF with sub := 4 }) (memState 0x10040)) [] (fun t => (getGroup t 0 0).loads.map (fun r => r.lanes.map (·.addr))) =
      [[0x50040]] ∧
    seen (exec (.lds { laneF with sub := 4, imm := 4 }) (memState 0x40)) [] (fun t => (getGroup t 0 0).loads.map (fun r => r.lanes.map (·.addr))) =
      [[0x44]] := by decide +kernel

/-- A misaligned access traps with AL, an unmapped page with TM, another tenant's bank with OV (R158, R159, R279). -/
theorem test_access_traps :
    seen (exec (.ld { laneF with sub := 4 }) (memState 0x10041)) [] (fun t => (getCore t 0).raised.map (fun r => (r.cls, r.info.toNat))) = [(7, 1)] ∧
    seen (exec (.st { laneF with sub := 4 }) (memState 0xFFFFFFFC)) [] (fun t => (getCore t 0).raised.map (·.cls)) = [4] ∧
    seen (exec (.sts { laneF with sub := 4 }) (memState 0x2000)) [] (fun t => (getCore t 0).raised.map (fun r => (r.cls, r.info.toNat))) = [(5, 2)] ∧
    seen (exec (.sts { laneF with sub := 4 }) { memState 0x40 with bankTag := [(0, 2)] }) [] (fun t => (getCore t 0).raised.map (fun r => (r.cls, r.info.toNat))) = [(6, 2)] := by
  decide +kernel

theorem test_stores :
    seen (exec (.st { laneF with sub := 4 }) (memState 0x10040)) [] (fun t => (getGroup t 0 0).storeq.map (fun q => q.lanes.map (fun l => (l.addr, l.b)))) =
      [[(0x50040, 0x11223344)]] ∧
    seen (exec (.sts { laneF with sub := 4 }) (memState 0x40)) [] (fun t => (getGroup t 0 0).storeq.map (fun q => q.lanes.map (fun l => (l.addr, l.b)))) =
      [[(0x40, 0x11223344)]] ∧
    seen (exec (.atom { laneF with sub := 9 }) (memState 0x10040)) [] (fun t => (getGroup t 0 0).storeq.map (fun q => q.lanes.map (fun l => (l.b, l.c)))) =
      [[(0x11223344, 7)]] ∧
    seen (exec (.atoms laneF) (memState 0x40)) [] (fun t => (getGroup t 0 0).storeq.map (fun q => (q.kind, q.spm, q.aop))) = [(.atom, true, 0)] ∧
    seen (exec (.red { laneF with sub := 1 }) (memState 0x10040)) [] (fun t => (getGroup t 0 0).storeq.map (fun q => (q.kind, q.spm, q.aop))) =
      [(.red, false, 1)] := by decide +kernel

/-- One lane's access on its way: a store of 4 bytes, or an atomic of operation `aop`. -/
def oneItem (kind : QKind) (aop : Nat) : QItem :=
  { id := 7, kind := kind, spm := false, size := 4, aop := aop, lanes := [⟨0, 0x10040, 0x50040, 0xFFFFFFFF, 3⟩] }

theorem test_writes :
    seen (exec (.storeLeaveQueue 0 0) (updGroup (mapped small) 0 0 (fun g => { g with storeq := [oneItem .st 0] }))) ([], 9) (fun t =>
      ((getCore t 0).flight.map (·.id), (getGroup t 0 0).storeq.length)) = ([7], 0) ∧
    seen (exec (.storeAck 0 7 0) (updCore (mapped small) 0 (fun k => { k with flight := [⟨7, 0, oneItem .st 0⟩] }))) ([], [9]) (fun t =>
      (readBytes t.mem 0x5003F 6, (getCore t 0).flight.map (·.id))) = ([0, 0xFF, 0xFF, 0xFF, 0xFF, 0], []) ∧
    seen (exec (.atomicPerform 0 7 0) { updCore (mapped small) 0 (fun k => { k with flight := [⟨7, 0, oneItem .red 0⟩] }) with mem := [(0x50040, 5)] })
      [] (fun t => readBytes t.mem 0x50040 4) = [4, 0, 0, 0] := by decide +kernel

/-- A load of one signed byte returns (R155). -/
theorem test_load_returns :
    seen (exec (.loadReturn 0 0 3 1) { updGroup (mapped small) 0 0 (fun g => { g with
        loads := [{ id := 3, share := 3, kind := .ld, f := { laneF with sub := 1 }, pc := 0x10000, size := 1, lanes := [{ lane := 0, va := 0x10040, addr := 0x50040 }] }],
        pend := [{ id := 3, lanes := 1, regs := [4], ready := false }] }) with mem := [(0x50040, 0x80)] }) (0, [9]) (fun t =>
      ((regAt (getGroup t 0 0) 4 0), (getGroup t 0 0).loads.map (·.id))) = (0xFFFFFF80, []) := by decide +kernel

/-- A walk whose root lies in a frame that is not the tenant's ends with class OV (R329). -/
theorem test_walk :
    seen (exec (.pageWalk 0 4) { small with walks := [(0, [{ id := 4, tenant := 1, page := 1, quota := false, core := 0, need := 1 }])] }) []
      (fun t => (mget [] t.walks 0).map (fun w => w.done)) = [some (.fault 6)] := by decide +kernel

theorem test_ordering :
    seen (exec (.fence { laneF with sub := 3, mod := 3 }) small) [] (fun t => (getGroup t 0 0).storeq.map (fun q => (q.kind, q.rel))) = [(.fence, 3)] ∧
    seen (exec (.cctl { laneF with sub := 1 }) (updCore small 0 (fun k => { k with l1 := [⟨1, 0, [(0, 1)], 0, []⟩] }))) [9] (fun t =>
      ((getCore t 0).l1.flatMap (fun l => l.secs.map (·.1)))) = [] ∧
    seen (exec (.pref laneF) (memState 0x10040)) [] (fun t => (getCore t 0).prefs.map (·.sector)) = [some 0x1401] := by decide +kernel

/-! ### One step: matrix engine, copies, fabric, dispenser -/

/-- Fields of the manual's worked MMA: D 40, A 8, B 16, C 24, elements of F4, XA 2, results in F16. -/
def mmaF : Fields := { groupF with d := 40, a := 8, b := 16, c := 24, sub := 6, imm := 0x10100040 }

/-- Its group of eight lanes with A and B rows of ones and twos, one element of A taken from XV2, and C of 0.5. -/
def mmaGroup : Group where
  live := true
  allot := [128]
  homes := 0xFF
  running := some 0x10000
  frontier := [{ pc := 0x10000, mask := 0xFF }]
  xv := [0x8000, 0x8000, 0x4900, 0x8000, 0x8000, 0x8000, 0x8000, 0x8000]
  regs := ((List.range 24).flatMap (fun r => (List.range 8).map (fun l => ((8 + r) * 64 + l,
    if r = 0 then (0x22822222 : Word) else if r < 8 then 0x22222222 else if r < 16 then 0x44444444 else 0x3F000000))))

def mmaState : State := setCore State.reset 0 { fTenant := 0x80000001, groups := [(0, mmaGroup)] }

theorem test_mma_issues : seen (exec (.mma mmaF) mmaState) ([], []) (fun t =>
    ((getGroup t 0 0).handles.map (·.reg), t.mxReqs.map (·.cluster))) = ([40], [0]) := by decide +kernel

/-- The word that a pending matrix operation of a state will give a register of a lane of its first member. -/
def mxWord (t : State) (r l : Nat) : Option Word :=
  match t.mxOps with
  | o :: _ => match o.members with
    | m :: _ => ((mxMemberOut t o m).1.find? (fun c => c.1 == r && c.2.1 == l)).map (fun c => c.2.2)
    | _ => none
  | _ => none

/-- The worked case: outer 0.5, K-steps of 82 and 64, 146.5 in F16 for two columns. -/
theorem test_mma_result : seen (exec (.mma mmaF) mmaState) [] (fun t => [mxWord t 24 0, mxWord t 28 3]) =
    [some 0x58945894, some 0] := by decide +kernel

/-! ### Witnesses: for each statement with hypotheses, a state and operands that meet them -/

theorem some_of {α : Type} {x : Option α} (h : x.isSome = true) : ∃ v, x = some v := Option.isSome_iff_exists.mp h

/-- A translation that succeeds, and one that fails. -/
def isPa : Tr → Bool | .pa _ => true | _ => false
def isFault : Tr → Bool | .fault _ => true | _ => false
theorem pa_of {r : State × Tr} (h : isPa r.2 = true) : ∃ s pa, r = (s, .pa pa) := by
  obtain ⟨s, t⟩ := r; cases t <;> first | exact ⟨_, _, rfl⟩ | cases h
theorem fault_of {r : State × Tr} (h : isFault r.2 = true) : ∃ s cls, r = (s, .fault cls) := by
  obtain ⟨s, t⟩ := r; cases t <;> first | exact ⟨_, _, rfl⟩ | cases h

def isOk (x : Except DecodeError Instr) (i : Instr) : Bool := match x with | .ok j => j == i | _ => false
theorem ok_of {x : Except DecodeError Instr} {i : Instr} (h : isOk x i = true) : x = .ok i := by
  cases x with
  | error => cases h
  | ok j => exact congrArg Except.ok (beq_iff_eq.mp h)

theorem witness_decode_encode : wellFormed (.ld { laneF with sub := 4 }) = true ∧
    (∃ bs, encode (.ld { laneF with sub := 4 }) = some bs) ∧ 16 + (natToBytes 16 0).length ≤ 32 :=
  ⟨by decide +kernel, some_of (by decide +kernel), by decide +kernel⟩

theorem witness_encode_decode : decode topPriv 24 (natToBytes 8 0x03FF0040_00140100) = .ok (.iadd { zeroF with d := 5, b := 1 }) :=
  ok_of (by decide +kernel)

/-- Lengths at the last offset at which they fit, and at the next. -/
theorem witness_fetch_block : (lenOfBits (BitVec.ofNat 2 (bytesToNat ([0] : List Byte))) = some .w64 ∧ 24 + lenBytes .w64 ≤ 32 ∧ 32 < 28 + lenBytes .w64) ∧
    (lenOfBits (BitVec.ofNat 2 (bytesToNat ([1] : List Byte))) = some .w96 ∧ 20 + lenBytes .w96 ≤ 32 ∧ 32 < 24 + lenBytes .w96) ∧
    (lenOfBits (BitVec.ofNat 2 (bytesToNat ([2] : List Byte))) = some .w128 ∧ 16 + lenBytes .w128 ≤ 32 ∧ 32 < 20 + lenBytes .w128) := by
  decide +kernel

/-- XBLD of kernel level, and ERET of runtime level outside the handler slot. -/
theorem witness_level_refused :
    (opRow 0x349).any (fun r => decide (1 < r.level) && decide (lenRank r.min ≤ lenRank .w96) && scopeOk r .group) = true ∧
    (opRow 0x341).any (fun r => r.handlerOnly && decide (lenRank r.min ≤ lenRank .w64) && scopeOk r .lane) = true ∧
    (buildInstr 0x349 zeroF).isSome = true ∧ opOfWord 0x34900 = 0x349 := by decide +kernel

/-- The reset state with a NOP placed. -/
def placed : State := State.reset.withFetchWord 64 0x03FF0000_00000000

theorem witness_step_runs_decoded : placed.agenda = [.issue 0 0] ∧ moduleUp placed = true ∧
    (let s1 := { placed with agenda := [] }
     let s0 := updGroup s1 0 0 (chosen s1 0 0)
     let g := getGroup s0 0 0
     let e : Entry := { pc := 0x10000, mask := BitVec.allOnes 64 }
     g.live = true ∧ g.stop = .run ∧ runningEntry g = some e ∧ e.notBefore ≤ now s0 0 ∧ g.lastIssue ≤ now s0 0 ∧
     e.pc.toNat % 4 = 0 ∧ signExtended e.pc = true ∧
     (∃ s2 pa, translate s0 0 0 e.pc 0 = (s2, .pa pa)) ∧
     ((fetchBlock (useWalks (translate s0 0 0 e.pc 0).1 0 0 0 [pageOf e.pc]) 0 0).2.map (·.take 8)) = some (natToBytes 8 0x03FF0000_00000000) ∧
     decode (privOf g 0) 0 (natToBytes 8 0x03FF0000_00000000) = .ok (.nop zeroF) ∧
     hasTurn s0 (updGroup s0 0 0 (fun g => { g with lastIssue := 1 })) 0 = true) :=
  ⟨by decide +kernel, by decide +kernel, by decide +kernel, by decide +kernel, by decide +kernel, by decide +kernel, by decide +kernel,
   by decide +kernel, by decide +kernel, pa_of (by decide +kernel), by decide +kernel, ok_of (by decide +kernel), by decide +kernel⟩

/-- The choice at a choice point: the ready entry of the highest priority, but for the one that has just yielded (R220, R221, R140). -/
def choosing (y : Option Dword) : Group :=
  { smallGroup with running := none, yielded := y, frontier := [{ pc := 0x10000, mask := 1, prio := 9 }, { pc := 0x10008, mask := 2 }] }

def chooses (y : Option Dword) : Option Dword := (chosen (updGroup placed 0 0 (fun _ => choosing y)) 0 0 (choosing y)).running

theorem test_choice : chooses none = some 0x10008 ∧ chooses (some 0x10008) = some 0x10000 := by decide +kernel

/-- Two groups of one issue slot at the NOP, of which slot 0 has issued the longest ago: it alone has its turn (R226). -/
def twoGroups : State := updCore placed 0 (fun k => { k with groups := [(0, k.group 0), (4, { k.group 0 with lastIssue := 1 })] })

theorem test_issue_slot :
    seen (runIssue 0 4 (setDie twoGroups 0 { getDie twoGroups 0 with cycle := 5 })) 9 (fun t => (getGroup t 0 4).lastIssue) = 1 ∧
    seen (runIssue 0 0 (setDie twoGroups 0 { getDie twoGroups 0 with cycle := 5 })) 9 (fun t => (getGroup t 0 0).lastIssue) = 6 := by decide +kernel

/-- A core whose entry stands at an address, and is to issue. -/
def standsAt (pc : Dword) : State :=
  { updGroup small 0 0 (fun g => { g with running := some pc, frontier := [{ pc := pc, mask := 1 }] }) with agenda := [.issue 0 0] }

theorem witness_fetch_alignment :
    (let s := standsAt 0x10002
     let s0 := updGroup { s with agenda := [] } 0 0 (chosen { s with agenda := [] } 0 0)
     let g := getGroup s0 0 0
     moduleUp s = true ∧ g.live = true ∧ g.stop = .run ∧ runningEntry g = some { pc := 0x10002, mask := 1 } ∧ g.lastIssue ≤ now s0 0 ∧
       (0x10002 : Dword).toNat % 4 ≠ 0) ∧
    (let s := standsAt 0x1000000000000000
     let s0 := updGroup { s with agenda := [] } 0 0 (chosen { s with agenda := [] } 0 0)
     let g := getGroup s0 0 0
     moduleUp s = true ∧ g.live = true ∧ g.stop = .run ∧ runningEntry g = some { pc := 0x1000000000000000, mask := 1 } ∧
       g.lastIssue ≤ now s0 0 ∧ (0x1000000000000000 : Dword).toNat % 4 = 0 ∧ signExtended 0x1000000000000000 = false) := by decide +kernel

theorem witness_step_runs_event : isEvent (.doorbell 63 1) = true ∧ wellFormed (.doorbell 63 1) = true ∧
    moduleUp { small with agenda := [.event (.doorbell 63 1)] } = true ∧ wellFormed (.doorbell 64 1) = false ∧
    isEvent (.nop zeroF) = false ∧ runsAlways .powerOn = true ∧ issuingCore (.rendezvousComplete 0 0 0) = some 0 := by decide +kernel

theorem witness_null_and_predicate : ({ laneF with d := 1023 } : Fields).d = 1023 ∧ 63 < 64 := by decide

theorem witness_results_in_flight : laneF.d ≠ 1023 ∧ (⟨0, 1, 1⟩ : Member).exec ≠ 0 ∧ ({ laneF with d := 1023 } : Fields).d = 1023 ∧
    63 < 64 ∧ (1 : Mask).getLsbD 0 = true := by decide

theorem witness_result_lands :
    (let p : Pend := { id := 1, lanes := 1, regs := [4], cells := [(cellKey 4 0, 7)] }
     cellKey 4 0 ∉ p.skip ∧ (cellKey 4 0, 7) ∈ p.cells) ∧
    (let p : Pend := { id := 1, lanes := 1, regs := [4], cells := [(cellKey 4 0, 7)], skip := [cellKey 4 0] }
     cellKey 4 0 ∈ p.skip) := by decide

theorem witness_goes_on : smallGroup.frontier = [smallEntry] ∧ smallEntry.pc = 0x10000 ∧ smallEntry.park = .none ∧
    (0x10008 : Dword) ≠ 0x10000 ∧ (getGroup small 0 0).il = false ∧ 0 < handlerCtx := by decide +kernel

/-- A register just beyond an allotment of 128, and the last one within it. -/
theorem witness_beyond_allotment : runningEntry (getGroup small 0 0) = some smallEntry ∧
    depCheck small 0 0 0x001 { laneF with b := 128 } smallEntry = .go ∧
    outOfBound (getGroup small 0 0) 0x001 { laneF with b := 128 } = some 128 ∧
    outOfBound (getGroup small 0 0) 0x001 { laneF with b := 127 } = none ∧
    (slotUse small 0 { laneF with b := 128 } smallEntry.pc [memberOf small 0 { laneF with b := 128 } smallEntry.pc false 0]).isSome = true ∧
    (issuingEntry (getGroup small 0 0) false smallEntry.pc).isSome = true := by decide +kernel

/-! The register instructions, ready to issue on the small core, each with well-formed fields. -/

theorem witness_addition_and_subtraction : ∀ op ∈ [0x001, 0x002, 0x003, 0x004, 0x022], Ready op laneF (aloneIn small smallEntry op) :=
  all_ready (by decide +kernel)
theorem witness_multiplication : ∀ op ∈ [0x005, 0x006, 0x007, 0x008], Ready op laneF (aloneIn small smallEntry op) := all_ready (by decide +kernel)
theorem witness_minimum_maximum_absolute : ∀ op ∈ [0x009, 0x00A, 0x00B], Ready op laneF (aloneIn small smallEntry op) := all_ready (by decide +kernel)
theorem witness_division : (∀ op ∈ [0x00C, 0x00D], Ready op laneF (aloneIn small smallEntry op)) ∧
    (operandsOf small 0 laneF 0 0).b ≠ 0 ∧ (operandsOf small 0 laneF 0 1).b = 0 := ⟨all_ready (by decide +kernel), by decide +kernel⟩
theorem witness_comparison_and_selection : ∀ op ∈ [0x00E, 0x023, 0x00F], Ready op laneF (aloneIn small smallEntry op) := all_ready (by decide +kernel)
theorem witness_logic : ∀ op ∈ [0x010, 0x011, 0x012, 0x013, 0x014, 0x024, 0x025, 0x026, 0x015], Ready op laneF (aloneIn small smallEntry op) :=
  all_ready (by decide +kernel)
theorem witness_shifts : (∀ op ∈ [0x016, 0x017, 0x018, 0x019], Ready op laneF (aloneIn small smallEntry op)) ∧
    Ready 0x019 { laneF with mod := 3 } (aloneIn small smallEntry 0x019) := ⟨all_ready (by decide +kernel), ready_alone (by decide +kernel)⟩
theorem witness_bit_fields_and_counts : ∀ op ∈ [0x01A, 0x01B, 0x01C, 0x01D, 0x01E], Ready op laneF (aloneIn small smallEntry op) :=
  all_ready (by decide +kernel)
theorem witness_addresses_moves_nop : ∀ op ∈ [0x01F, 0x020, 0x021, 0x000], Ready op laneF (aloneIn small smallEntry op) := all_ready (by decide +kernel)

/-- PERM of lane and of set scope, SHUF, SREAD. -/
theorem witness_lane_movement : Ready 0x040 { laneF with perm := 45 } (aloneIn small smallEntry 0x040) ∧
    (∀ op ∈ [0x041, 0x042], Ready op laneF (aloneIn small smallEntry op)) ∧
    (let s := updGroup small 0 0 (fun g => { g with setId := some 3 })
     let f : Fields := { laneF with scope := .set, perm := 45 }
     Ready 0x040 f (joinedIn 0x040 f s smallEntry)) :=
  ⟨ready_alone (by decide +kernel), all_ready (by decide +kernel), ready_joined (by decide +kernel)⟩

theorem witness_votes : Ready 0x043 { groupF with mod := 3 } (joinedIn 0x043 { groupF with mod := 3 } small smallEntry) ∧
    Ready 0x044 groupF (joinedIn 0x044 groupF small smallEntry) ∧
    Ready 0x047 groupF (joinedIn 0x047 groupF small smallEntry) ∧
    (joinedIn 0x043 groupF small smallEntry).takes groupF 63 :=
  ⟨ready_joined (by decide +kernel), ready_joined (by decide +kernel), ready_joined (by decide +kernel),
   ⟨by decide +kernel, by decide +kernel⟩⟩

theorem witness_reductions : Ready 0x045 { groupF with sub := 7 } (joinedIn 0x045 { groupF with sub := 7 } small smallEntry) ∧
    Ready 0x045 { groupF with sub := 8 } (joinedIn 0x045 { groupF with sub := 8 } small smallEntry) ∧
    Ready 0x046 { groupF with sub := 7, mod := 4 } (joinedIn 0x046 { groupF with sub := 7, mod := 4 } small smallEntry) :=
  ⟨ready_joined (by decide +kernel), ready_joined (by decide +kernel), ready_joined (by decide +kernel)⟩

theorem witness_float_arithmetic : ∀ op ∈ [0x080, 0x081, 0x082, 0x083, 0x08B, 0x08A, 0x087], Ready op laneF (aloneIn small smallEntry op) :=
  all_ready (by decide +kernel)
theorem witness_float_comparison : (∀ op ∈ [0x084, 0x085, 0x086, 0x090], Ready op laneF (aloneIn small smallEntry op)) ∧
    isNan (f32 0x7FC00000) = true ∧ isSig (f32 0x7F800001) = true ∧ isNan (f32 0x3F800000) = false :=
  ⟨all_ready (by decide +kernel), by decide +kernel⟩
theorem witness_float_approximations : (∀ op ∈ [0x088, 0x089, 0x08C, 0x08D, 0x08E, 0x08F], Ready op laneF (aloneIn small smallEntry op)) ∧
    isNan (f32 0x3F800000) = false ∧ isInf (f32 0x3F800000) = false := ⟨all_ready (by decide +kernel), by decide +kernel⟩
theorem witness_packed : ∀ op ∈ [0x0A0, 0x0A1, 0x0A2, 0x0A3, 0x0A4, 0x0A5], Ready op laneF (aloneIn small smallEntry op) := all_ready (by decide +kernel)
theorem witness_conversions : Ready 0x100 { laneF with imm := 0x110 } (aloneIn small smallEntry 0x100) ∧
    Ready 0x101 { laneF with sub := 1 } (aloneIn small smallEntry 0x101) ∧ Ready 0x102 { laneF with sub := 5 } (aloneIn small smallEntry 0x102) ∧
    Ready 0x103 { laneF with sub := 3 } (aloneIn small smallEntry 0x103) ∧ (∀ op ∈ [0x104, 0x105], Ready op laneF (aloneIn small smallEntry op)) ∧
    Ready 0x106 { laneF with sub := 1 } (aloneIn small smallEntry 0x106) :=
  ⟨ready_alone (by decide +kernel), ready_alone (by decide +kernel), ready_alone (by decide +kernel), ready_alone (by decide +kernel),
   all_ready (by decide +kernel), ready_alone (by decide +kernel)⟩

theorem witness_branches : (∀ op ∈ [0x180, 0x182, 0x183, 0x184, 0x185], Ready op laneF (aloneIn small smallEntry op)) ∧
    Ready 0x180 { groupF with mod := 2 } (joinedIn 0x180 { groupF with mod := 2 } small smallEntry) :=
  ⟨all_ready (by decide +kernel), ready_joined (by decide +kernel)⟩

theorem witness_entering : (1 : Mask) ≠ 0 ∧ freeEntryAt smallGroup 0x20000 = none ∧ smallGroup.frontier = [] ++ smallEntry :: [] ∧
    (0x20000 : Dword) ≠ 0x10010 := by decide +kernel

/-- With executing lanes, and with none: the predicate register is zero everywhere. -/
theorem witness_exit_yield_breakpoint :
    (∀ op ∈ [0x186, 0x187, 0x188], Ready op laneF (aloneIn small smallEntry op)) ∧ (aloneIn small smallEntry).executes laneF ∧
    (∀ op ∈ [0x186, 0x187, 0x188], Ready op { laneF with p := 20 } (aloneIn small smallEntry op)) ∧
    ¬ (aloneIn small smallEntry).executes { laneF with p := 20 } ∧ (getGroup small 0 0).frontier = [smallEntry] :=
  ⟨all_ready (by decide +kernel), by unfold Issue.executes; decide +kernel, all_ready (by decide +kernel),
   by unfold Issue.executes; decide +kernel, by decide +kernel⟩

/-- Alone, with a group that waits with the same count, with one of another count, with a formed set, and inside a set. -/
def joinF : Fields := { groupF with imm := 0x22 }
def besides (h : Group → Group) (other : Group) : State :=
  setCore State.reset 0 { fTenant := 0x80000001, groups := [(0, h smallGroup), (1, other)] }
def waiting (n : Nat) : Group := { smallGroup with running := none, frontier := [{ smallEntry with park := .join 2 n }] }

theorem witness_synchronisation :
    Ready 0x1C0 groupF (joinedIn 0x1C0 groupF small smallEntry) ∧ Ready 0x1C2 groupF (joinedIn 0x1C2 groupF small smallEntry) ∧
    Ready 0x1C1 joinF (joinedIn 0x1C1 joinF small smallEntry) ∧ (joinedIn 0x1C1 joinF small smallEntry).executes joinF ∧
    Ready 0x1C1 joinF (joinedIn 0x1C1 joinF (besides id (waiting 2)) smallEntry) ∧
    joiners (getCore (joinedIn 0x1C1 joinF (besides id (waiting 2)) smallEntry).s1 0) 0 2 = [(1, 2)] ∧
    Ready 0x1C1 joinF (joinedIn 0x1C1 joinF (besides id (waiting 3)) smallEntry) ∧
    joiners (getCore (joinedIn 0x1C1 joinF (besides id (waiting 3)) smallEntry).s1 0) 0 2 = [(1, 3)] ∧
    Ready 0x1C1 joinF (joinedIn 0x1C1 joinF (besides id { smallGroup with setId := some 2 }) smallEntry) ∧
    Ready 0x1C1 joinF (joinedIn 0x1C1 joinF (besides (fun g => { g with setId := some 5 }) smallGroup) smallEntry) :=
  ⟨ready_joined (by decide +kernel), ready_joined (by decide +kernel), ready_joined (by decide +kernel),
   by unfold Issue.executes; decide +kernel, ready_joined (by decide +kernel), by decide +kernel, ready_joined (by decide +kernel),
   by decide +kernel, ready_joined (by decide +kernel), ready_joined (by decide +kernel)⟩

/-- A regrouping in progress on the small core. -/
def regrouping : State := updCore small 0 (fun k => { k with
  alloc := [⟨0, 0, [(0, 128)]⟩],
  regroups := [⟨0, 0, true, 4, blockF, 0x10010, [0], 0, some 0, false⟩],
  groups := [(0, { smallGroup with running := none, frontier := [{ smallEntry with park := .hold }] })] })

theorem witness_regrouping :
    Ready 0x1C3 { blockF with imm := 128 } (joinedIn 0x1C3 { blockF with imm := 128 } small smallEntry) ∧
    Ready 0x1C4 { blockF with a := 128 } (joinedIn 0x1C4 { blockF with a := 128 } small smallEntry) ∧
    Ready 0x1C4 { blockF with a := 129 } (joinedIn 0x1C4 { blockF with a := 129 } small smallEntry) ∧
    (getGroup (joinedIn 0x1C4 { blockF with a := 129 } small smallEntry).s1 0 0).allotment = 128 ∧
    (findRegroup (getCore regrouping 0) 0 0).any (fun o => regroupDrained regrouping 0 o && (planOf (getCore regrouping 0) o).isSome) = true ∧
    (findRegroup (getCore { regrouping with dies := [(0, { cycle := 4096 })] } 0) 0 0).any (fun o => o.hold == some 0) = true ∧
    0 + 4096 ≤ now { regrouping with dies := [(0, { cycle := 4096 })] } 0 :=
  ⟨ready_joined (by decide +kernel), ready_joined (by decide +kernel), ready_joined (by decide +kernel), by decide +kernel,
   by decide +kernel, by decide +kernel, by decide +kernel⟩

/-- At the limit of four blocks, at 640 registers, with room, without room, and with a request that waits. -/
theorem witness_growing :
    Ready 0x1C5 { groupF with imm := 64 } (joinedIn 0x1C5 { groupF with imm := 64 } small smallEntry) ∧
    ((joinedIn 0x1C5 { groupF with imm := 64 } small smallEntry).members { groupF with imm := 64 }).length = 1 ∧
    (growGroup (getCore (joinedIn 0x1C5 { groupF with imm := 64 } small smallEntry).s1 0) 0 64).isSome = true ∧
    (4 ≤ ([8, 8, 8, 8] : List Nat).length ∧ 640 < 512 + 136 ∧ ¬ 640 < 512 + 128) ∧
    (growGroup { getCore small 0 with alloc := [⟨0, 0, [(0, 128)]⟩, ⟨1, 0, [(128, 65536)]⟩] } 0 64).isNone = true ∧
    Ready 0x1C6 { groupF with imm := 128 } (joinedIn 0x1C6 { groupF with imm := 128 } small smallEntry) ∧
    smallGroup.handles = [] ∧ smallGroup.pend = [] ∧
    (growGroup { getCore small 0 with growq := [⟨0, 64, 4, 1⟩] } 0 64).isSome = true :=
  ⟨ready_joined (by decide +kernel), by decide +kernel, by decide +kernel, by decide, by decide +kernel, ready_joined (by decide +kernel),
   by decide +kernel, by decide +kernel, by decide +kernel⟩

/-- A group parked at a group-scope NOP, whose last absent thread has ended. -/
def parkedNop : State := { updGroup placed 0 0 (fun g => { g with
  running := none, frontier := [{ pc := 0x10000, mask := BitVec.allOnes 64, park := rdvOf g 0 { zeroF with scope := .group } }] }) with
  mem := writeBytes [] 0 (natToBytes 8 0x03FF0000_00000040) }

theorem witness_rendezvous_completion :
    (let g := getGroup parkedNop 0 0
     let e : Entry := { pc := 0x10000, mask := BitVec.allOnes 64, park := rdvOf g 0 { zeroF with scope := .group } }
     let f : Fields := { zeroF with scope := .group }
     g.frontier.find? (fun d => d.pc == 0x10000 && isParked d.park) = some e ∧ g.stop = .run ∧ mayComplete (getCore parkedNop 0) 0 e = true ∧
     (match lookAt parkedNop 0 0 e with
      | .found i s1 => i == .nop f && (performOf i).isSome && rdvReady (getCore s1 0) e 0 f g (membersAt (getCore s1 0) 0 .group false)
      | _ => false) = true) := by decide +kernel

/-! The memory statements: lane 0 of a tenant whose page 1 is frame 5 and whose bank 0 is scratchpad. -/

def memEntry : Entry := { pc := 0x10000, mask := 1 }
def memEntry8 : Entry := { pc := 0x10000, mask := 0xFF }
def chkOk : Chk → Bool | .ok as => !as.isEmpty | _ => false
def chkFail : Chk → Bool | .fail .. => true | _ => false
theorem passes_of {q : Issue} {f : Fields} {spm : Bool} {size need : Nat} {es : List MElem}
    (he : es.isEmpty = false) (hr : roomFor (getCore q.s1 q.core) size (issueSlots (q.members f)) es = true)
    (hc : chkOk (checkElems q.s1 q.core spm size need es).2 = true) :
    ∃ s1 accs, es ≠ [] ∧ roomFor (getCore q.s1 q.core) size (issueSlots (q.members f)) es = true ∧
      checkElems q.s1 q.core spm size need es = (s1, .ok accs) := by
  generalize hx : checkElems q.s1 q.core spm size need es = x at hc
  obtain ⟨t, c⟩ := x
  cases c with
  | ok as => exact ⟨t, as, by intro h; subst h; simp at he, hr, rfl⟩
  | _ => cases hc

theorem witness_loads :
    (∀ op ∈ [0x200, 0x202], Ready op { laneF with sub := 6 } (aloneIn (memState 0x10040) memEntry op)) ∧
    (let es : List MElem := [⟨0, 0, 0x10040, 0, 0⟩]
     ∃ s1 accs, es ≠ [] ∧ roomFor (getCore (memState 0x10040) 0) 16 (issueSlots ((aloneIn (memState 0x10040) memEntry).members laneF)) es = true ∧
      checkElems (memState 0x10040) 0 false 16 1 es = (s1, .ok accs)) ∧
    acqOpen (getCore (memState 0x10040) 0) [0] = false ∧ inFlight31 (memState 0x10040) 0 0 = true ∧
    mustWait (getGroup (memState 0x10040) 0 0) false 16 [⟨0, 0, 0x10040, 0x50040⟩] = false :=
  ⟨all_ready (by decide +kernel), passes_of (q := aloneIn (memState 0x10040) memEntry) (by decide) (by decide +kernel) (by decide +kernel),
   by decide +kernel, by decide +kernel, by decide +kernel⟩

/-- A store of 4 and one of 16 bytes, an atomic of 4 and one of 8 bytes. -/
theorem witness_stores_and_atomics :
    (∀ op ∈ [0x201, 0x203], Ready op { laneF with sub := 6 } (aloneIn (memState 0x10040) memEntry op)) ∧
    (∀ op ∈ [0x204, 0x205, 0x206], Ready op { laneF with mod := 1 } (aloneIn (memState 0x10040) memEntry op)) ∧
    (let es : List MElem := [⟨0, 0, 0x10040, 5, 0⟩]
     ∃ s1 accs, es ≠ [] ∧ roomFor (getCore (memState 0x10040) 0) 16 (issueSlots ((aloneIn (memState 0x10040) memEntry).members laneF)) es = true ∧
      checkElems (memState 0x10040) 0 false 16 2 es = (s1, .ok accs)) ∧
    (let es : List MElem := [⟨0, 0, 0x40, 5, 0⟩]
     ∃ s1 accs, es ≠ [] ∧ roomFor (getCore (memState 0x40) 0) 4 (issueSlots ((aloneIn (memState 0x40) memEntry).members laneF)) es = true ∧
      checkElems (memState 0x40) 0 true 4 3 es = (s1, .ok accs)) :=
  ⟨all_ready (by decide +kernel), all_ready (by decide +kernel),
   passes_of (q := aloneIn (memState 0x10040) memEntry) (by decide) (by decide +kernel) (by decide +kernel),
   passes_of (q := aloneIn (memState 0x40) memEntry) (by decide) (by decide +kernel) (by decide +kernel)⟩

theorem witness_failed_access_traps :
    (∀ op ∈ [0x200, 0x201, 0x202, 0x203], Ready op { laneF with sub := 4 } (aloneIn (memState 0x10041) memEntry op)) ∧
    (∀ op ∈ [0x204, 0x205, 0x206], Ready op laneF (aloneIn (memState 0x10041) memEntry op)) ∧
    chkFail (checkElems (memState 0x10041) 0 false 4 1 [⟨0, 0, 0x10041, 0, 0⟩]).2 = true ∧
    chkFail (checkElems (memState 0x10041) 0 true 4 2 [⟨0, 0, 0x10041, 0, 0⟩]).2 = true ∧
    acqOpen (getCore (memState 0x10041) 0) [0] = false ∧ inFlight31 (memState 0x10041) 0 0 = true ∧
    roomFor (getCore (memState 0x10041) 0) 4 [0] [⟨0, 0, 0x10041, 0, 0⟩] = true ∧
    roomFor { getCore (memState 0x10041) 0 with prefs := (List.range 512).map (fun n => { id := n, ctx := 0, share := n, va := BitVec.ofNat 64 (64 * n), sector := some n, hint := 0, install := false }) }
      4 [0] [⟨0, 0, 0x10041, 0, 0⟩] = false :=
  ⟨all_ready (by decide +kernel), all_ready (by decide +kernel), by decide +kernel, by decide +kernel, by decide +kernel, by decide +kernel,
   by decide +kernel, by decide +kernel⟩

/-- Each clause of the checks, at a boundary: the last aligned address, the first beyond a bank, a reserved bit, a mate. -/
theorem witness_access_checks :
    (0x10041 : Dword).toNat % 4 ≠ 0 ∧ ((0x100000000000000 : Dword).toNat % 4 = 0 ∧ signExtended 0x100000000000000 = false) ∧
    ((0xFFFFFFFFFFFFF : Dword).toNat % 1 = 0 ∧ signExtended 0xFFFFFFFFFFFFF = true) ∧
    (let nspm := (getCore (memState 0) 0).nspm
     8192 * nspm ≤ (0x2000 : Word).toNat % 2 ^ 19 ∧ ¬ 8192 * nspm ≤ (0x1FFC : Word).toNat % 2 ^ 19 ∧
     (0x1000000 : Word).toNat / 2 ^ 24 ≠ 0 ∧ (0x80000 : Word).toNat / 2 ^ 19 % 4 ≠ 0 ∧
     ((0x200000 : Word).getLsbD 23 = false ∧ (0x200000 : Word).toNat / 2 ^ 21 % 4 ≠ 0) ∧
     (0x800000 : Word).getLsbD 23 = true ∧ bankTagOf (memState 0) 0 0 = 1 ∧ bankTagOf (memState 0) 0 1 ≠ 1) := by decide +kernel

theorem witness_fence_cache_prefetch :
    Ready 0x207 { laneF with sub := 6, mod := 3 } (aloneIn (memState 0x10040) memEntry 0x207) ∧
    Ready 0x208 { laneF with sub := 1 } (aloneIn (memState 0x10040) memEntry 0x208) ∧ Ready 0x208 { laneF with sub := 3 } (aloneIn (memState 0x10040) memEntry 0x208) ∧
    Ready 0x209 laneF (aloneIn (memState 0x10040) memEntry 0x209) ∧ (aloneIn (memState 0x10040) memEntry).executes laneF ∧
    chkOk (quietAccs (memState 0x10040) 0 [(0, 0, 0x10040)]).2 = true ∧
    requestsFit (getCore (memState 0x10040) 0) 3072 [(0, 512)] = true ∧ requestsFit (getCore (memState 0x10040) 0) 3072 [(0, 513)] = false :=
  ⟨ready_alone (by decide +kernel), ready_alone (by decide +kernel), ready_alone (by decide +kernel), ready_alone (by decide +kernel),
   by unfold Issue.executes; decide +kernel, by decide +kernel, by decide +kernel, by decide +kernel⟩

theorem witness_writes_perform :
    (let s := updGroup (mapped small) 0 0 (fun g => { g with storeq := [oneItem .st 0] })
     (getGroup s 0 0).storeq = oneItem .st 0 :: [] ∧ mayLeave (getCore s 0) 0 0 (oneItem .st 0) = true ∧ (oneItem .st 0).lanes ≠ []) ∧
    (let it : QItem := { oneItem .st 0 with spm := true, lanes := [⟨0, 0x40, 0x40, 1, 0⟩] }
     let s := updGroup (mapped small) 0 0 (fun g => { g with storeq := [it] })
     mayLeave (getCore s 0) 0 0 it = true ∧ ∀ l ∈ it.lanes, l.addr / 327680 = 0 ∧ flightClear (getCore s 0) it.id true l it.size = true) ∧
    (let s := updCore (mapped small) 0 (fun k => { k with flight := [⟨7, 0, oneItem .st 0⟩] })
     flightLane (getCore s 0) 7 0 = some (⟨7, 0, oneItem .st 0⟩, ⟨0, 0x10040, 0x50040, 0xFFFFFFFF, 3⟩)) ∧
    (let s := updCore (mapped small) 0 (fun k => { k with flight := [⟨7, 0, oneItem .atom 9⟩] })
     (flightLane (getCore s 0) 7 0).isSome = true ∧ poisoned s 0x50040 4 = false) := by decide +kernel

/-- A load of 16 bytes on its way back. -/
def loadRec : LoadRec :=
  { id := 3, share := 3, kind := .ld, f := { laneF with sub := 6 }, pc := 0x10000, size := 16, lanes := [{ lane := 63, va := 0x10040, addr := 0x50040 }] }
def loadOut : State := { updGroup (mapped small) 0 0 (fun g => { g with
  loads := [loadRec], pend := [{ id := 3, lanes := 0x8000000000000000, regs := [4, 5, 6, 7], ready := false }] }) with mem := [(0x50040, 0x80)] }

theorem witness_loads_return :
    (let k := getCore loadOut 0
     (∀ p ∈ k.prefs, p.id ≠ 3) ∧ (k.group 0).loads.find? (fun d => d.id == 3) = some loadRec ∧
     laneReady k 0 loadRec { lane := 63, va := 0x10040, addr := 0x50040 } = true ∧ poisoned loadOut 0x50040 16 = false ∧
     loadRec.f.d ≠ 1023 ∧ (k.group 0).pend = [{ id := 3, lanes := 0x8000000000000000, regs := [4, 5, 6, 7], ready := false }] ∧
     (k.group 0).loads = [loadRec] ∧ (0x8000000000000000 : Mask).getLsbD 63 = true) ∧
    (let w : Walk := { id := 4, tenant := 1, page := 1, quota := false, core := 0, need := 1 }
     (mget [] ({ small with walks := [(3, [w])] } : State).walks 3).find? (fun w => w.id == 4) = some w ∧ w.done = none) := by decide +kernel

/-! Matrix instructions. -/

def tileF : Fields := { groupF with d := 4, a := 8, b := 5, c := 64 }
/-- Eight lanes, one octet, all tiles at 0x100 of banks 0 and 1. -/
def tileState : State :=
  updCore { mmaState with bankTag := [(0, 1), (1, 1)] } 0 (fun k => { (k.withGroup 0 { mmaGroup with regs := [(5 * 64, 0x100)] }) with nspm := 2 })

theorem witness_matrix_issue :
    Ready 0x2C0 mmaF (joinedIn 0x2C0 mmaF mmaState memEntry8) ∧ Ready 0x2C1 tileF (joinedIn 0x2C1 tileF tileState memEntry8) ∧
    Ready 0x2C2 tileF (joinedIn 0x2C2 tileF tileState memEntry8) ∧
    pendingSlot (getCore (joinedIn 0x2C1 tileF tileState memEntry8).s1 0) 4 [0] = none ∧
    pendingSlot ((getCore tileState 0).withGroup 0 { mmaGroup with handles := [⟨4, 9⟩] }) 4 [0] = some 0 ∧
    octetsOf (getGroup tileState 0 0) 0xFF = [0] ∧ octetsOf (getGroup tileState 0 0) 0 = [] ∧
    ((getGroup tileState 0 0).handles.length < 16 ∧ inFlight31 tileState 0 0 = true ∧ stagesOk tileState 0 1 tileF.imm = true) ∧
    (match checkTiles tileState 0 [⟨0, 0, 0x100⟩] with | .ok _ => true | _ => false) = true ∧
    (match checkTiles tileState 0 [⟨0, 0, 0x101⟩] with | .error e => e.2 == 7 | _ => false) = true ∧
    (match checkTiles tileState 0 [⟨0, 0, 0x100⟩] with
      | .ok tiles => tableRoom (enterRequests tileState (mxOpOf tileState 0 0x2C1 tileF 0x10000 (fun _ => []) [⟨0, 0xFF, 0xFF⟩] tiles) []) 0
      | _ => false) = true :=
  ⟨ready_joined (by decide +kernel), ready_joined (by decide +kernel), ready_joined (by decide +kernel), by decide +kernel,
   by decide +kernel, by decide +kernel, by decide +kernel, by decide +kernel, by decide +kernel, by decide +kernel, by decide +kernel⟩

/-- An operation with one request, and one whose passes have all been granted. -/
def mxOne (started : Bool) : MxOp :=
  { id := 9, cluster := 0, op := 0x2C0, f := mmaF, pc := 0x10000, issued := 0, started := started,
    members := [⟨0, 0, 0xFF, [0], [], [], List.replicate 8 0x8000, 0, []⟩] }
def mxReqOne : MxReq := ⟨2, 0, [⟨9, 0, 0, 0, 0, 0⟩], []⟩

theorem witness_matrix_progress :
    (let s := { mmaState with mxOps := [mxOne false], mxReqs := [mxReqOne] }
     (∀ o ∈ s.mxOps, o.withdrawn = false) ∧ bestRequest (now s 0) (s.mxReqs.filter (fun q => q.cluster == 0)) = some mxReqOne) ∧
    (let s := { mmaState with mxOps := [mxOne true] }
     s.mxOps.find? (fun p => p.id == 9) = some (mxOne true) ∧ (mxOne true).started = true ∧ (mxOne true).withdrawn = false ∧
     (mxOne true).members = [] ++ ⟨0, 0, 0xFF, [0], [], [], List.replicate 8 0x8000, 0, []⟩ :: [] ∧ (getGroup s 0 0).wd ≤ 3) := by decide +kernel

theorem test_matrix_grant : seen (exec (.matrixGrant 0) { mmaState with mxOps := [mxOne false], mxReqs := [mxReqOne] }) ([], []) (fun t =>
    (t.mxOps.map (·.started), t.mxReqs.map (·.id))) = ([true], []) := by decide +kernel

/-- The completion word of an operation of one pass, in every lane of D (R182). -/
theorem test_matrix_complete :
    seen (exec (.matrixComplete 9) (updGroup { mmaState with mxOps := [{ mxOne true with members := [⟨0, 0, 0xFF, [], [], [], [], 0, []⟩] }] } 0 0
      (fun g => { g with handles := [⟨40, 9⟩] }))) ([], 0)
      (fun t => ((getGroup t 0 0).handles.map (·.reg), (regAt (getGroup t 0 0) 40 7).toNat / 2 ^ 24)) = ([], 0x83) := by decide +kernel

/-- Eight products of 127 and -128, the outer value at the edge. -/
theorem witness_integer_element_exact :
    let as := List.replicate 8 (127 : Int)
    let bs := List.replicate 8 (-128 : Int)
    as.length = bs.length ∧ (((as.zip bs).map (fun q => q.1 * q.2)).map Int.natAbs).foldl (· + ·) 0 < 2 ^ 17 ∧
    (BitVec.ofNat 32 2147000000).toInt.natAbs + (((as.zip bs).map (fun q => q.1 * q.2)).map Int.natAbs).foldl (· + ·) 0 < 2 ^ 31 := by
  decide +kernel

theorem witness_matrix_registers :
    Ready 0x2C3 groupF (joinedIn 0x2C3 groupF tileState memEntry8) ∧ (joinedIn 0x2C3 groupF tileState memEntry8).executes groupF ∧
    oprdyReady (joinedIn 0x2C3 groupF tileState memEntry8).s1 0 0 = true ∧
    Ready 0x2C4 { groupF with sub := 7 } (joinedIn 0x2C4 { groupF with sub := 7 } tileState memEntry8) ∧
    (joinedIn 0x2C4 groupF tileState memEntry8).scalar groupF 0 0 ∧
    namedByPending tileState 0 7 = false ∧ tableTag tileState 0 0 = 1 ∧
    (match checkSpan tileState 0 1 16 1044 0x100 with | .ok _ => true | _ => false) = true ∧
    (match checkSpan tileState 0 1 16 256 0x3F10 with | .error cls => cls == 5 | _ => false) = true ∧
    Ready 0x2C5 { groupF with sub := 7 } (joinedIn 0x2C5 { groupF with sub := 7 } tileState memEntry8) ∧
    Ready 0x2C5 { groupF with sub := 7, mod := 1 } (joinedIn 0x2C5 { groupF with sub := 7, mod := 1 } tileState memEntry8) ∧
    Ready 0x2C6 { laneF with mod := 1 } (aloneIn tileState memEntry8 0x2C6) ∧ tileState.mxOps = [] :=
  ⟨ready_joined (by decide +kernel), by unfold Issue.executes; decide +kernel, by decide +kernel, ready_joined (by decide +kernel),
   by unfold Issue.scalar; decide +kernel, by decide +kernel, by decide +kernel, by decide +kernel, by decide +kernel,
   ready_joined (by decide +kernel), ready_joined (by decide +kernel), ready_alone (by decide +kernel), by decide +kernel⟩

theorem test_extra_values :
    seen (exec (.xvset { groupF with sub := 2 }) small) 0 (fun t => (getGroup t 0 0).xv.getD 2 0) = 0xFFFF ∧
    gives (exec (.xvsetRd { groupF with sub := 2, mod := 1 }) small) 1 5 = ([0x8000], 0) ∧
    seen (exec (.mxstat { laneF with mod := 1 }) (updGroup small 0 0 (fun g => { g with mx := 5 }))) (9, 0) (fun t =>
      ((getGroup t 0 0).mx.toNat, (getGroup t 0 0).pend.length)) = (0, 1) ∧
    gives (exec (.mxstat { laneF with mod := 1 }) (updGroup small 0 0 (fun g => { g with mx := 5 }))) 1 0 = ([5], 0) ∧
    seen (exec (.oprdy groupF) (updGroup small 0 0 (fun g => { g with dirty := [8] }))) [9] (fun t => (getGroup t 0 0).dirty) = [] := by decide +kernel

/-! Engines, handles, dispenser, fabric. -/

/-- Lane 0 with a source pair v8, a destination v12 and a descriptor in v16 to v19: rows of bytes, rows, pitches. -/
def copyState (rows : Word) : State :=
  updCore (mapped (withRegs [(8, 0x10000), (12, 0x40), (16, 64), (17, rows), (18, 64), (19, 64)])) 0 (fun k => { k with nspm := 1 })

theorem witness_copies_start :
    ([1, 0, 65536] : List Word).all (fun r => checkDesc ⟨0x10000, 0x40, 64, r, 64, 64⟩ == none) = true ∧
    checkDesc ⟨0x10000, 0x40, 62, 1, 64, 64⟩ = some 7 ∧ checkDesc ⟨0x10000, 0x40, 64, 65537, 64, 64⟩ = some 5 ∧
    Ready 0x280 groupF (joinedIn 0x280 groupF (copyState 1) memEntry) ∧
    Ready 0x281 groupF (joinedIn 0x281 groupF (copyState 1) memEntry) ∧
    Ready 0x282 groupF (joinedIn 0x282 groupF (copyState 1) memEntry) ∧
    (joinedIn 0x280 groupF (copyState 1) memEntry).scalar groupF 0 0 ∧
    isPending (getGroup (copyState 1) 0 0) 4 = false ∧ (getGroup (copyState 1) 0 0).handles.length < 16 ∧
    isPending { getGroup (copyState 1) 0 0 with handles := [⟨4, 9⟩] } 4 = true ∧
    (match checkSides (copyState 1) 0 1 0 false ⟨0x10000, 0x40, 64, 1, 64, 64⟩ with | .ok _ => true | _ => false) = true ∧
    (match checkSides (copyState 1) 0 1 0 false ⟨0x10000, 0x2000, 64, 1, 64, 64⟩ with | .error e => e.1 == 5 | _ => false) = true :=
  ⟨by decide +kernel, by decide +kernel, by decide +kernel, ready_joined (by decide +kernel), ready_joined (by decide +kernel),
   ready_joined (by decide +kernel), by unfold Issue.scalar; decide +kernel, by decide +kernel, by decide +kernel, by decide +kernel,
   by decide +kernel, by decide +kernel⟩

/-- With no rows the word of no chunks is written at once; else the register is a pending handle (R192, R196). -/
theorem test_copies_start :
    seen (exec (.cpy groupF) (copyState 0)) 0 (fun t => regAt (getGroup t 0 0) 4 0) = 0x81000000 ∧
    seen (exec (.cpyg groupF) (copyState 0)) 0 (fun t => regAt (getGroup t 0 0) 4 0) = 0x82000000 ∧
    seen (exec (.cpy groupF) (copyState 1)) ([], []) (fun t => (t.copies.map (·.row), (getGroup t 0 0).handles.map (·.reg))) = ([64], [4]) ∧
    seen (exec (.cpys groupF) (copyState 1)) [] (fun t => (getCore t 0).raised.map (fun r => (r.cls, r.info.toNat))) = [(5, 6)] := by decide +kernel

/-- A copy of one row of four bytes to a scratchpad, in several states. -/
def oneCopy : Copy :=
  { id := 9, kind := 0, core := 0, ctx := 0, tenant := 1, die := 0, src := 0x10040, dst := 0x80, row := 4, rows := 1, sp := 4, dp := 4,
    ins := 0, zf := false, waits := [] }
def copying (p : Copy) : State := { copyState 1 with copies := [p], mem := [(0x50040, 0x11), (0x50043, 0x22)], tenants := [(1, { bud := [5, 0, 0, 0] })] }

theorem witness_copies_progress :
    (∀ p ∈ [oneCopy, { oneCopy with cancel := true }, { oneCopy with kind := 2 }],
      (copying p).copies.find? (fun c => c.id == 9) = some p ∧ p.done = none ∧ ∀ w ∈ p.waits, acknowledged (getCore (copying p) p.core) w = true) ∧
    suspended (copying oneCopy) oneCopy = false ∧ suspended (copying { oneCopy with kind := 2 }) { oneCopy with kind := 2 } = true ∧
    (match chunkSource (copying oneCopy) oneCopy (chunkLen oneCopy) with
      | (t, .ok _) => (match chunkDest t oneCopy with | (_, .ok _) => true | _ => false) | _ => false) = true ∧
    ({ oneCopy with done := some 1 } : Copy).done = some 1 ∧ oneCopy.saved = none ∧
    ((getDie { copying oneCopy with dies := [(0, { cycle := 65536 })] } 0).refills + 1) * 65536 ≤
      (getDie { copying oneCopy with dies := [(0, { cycle := 65536 })] } 0).cycle := by decide +kernel

/-- An idle engine of die 0 takes the chunk of the tenant that follows the one it served last (R344). -/
theorem witness_copy_engines :
    (let s := copying { oneCopy with kind := 2 }
     engineOf (feedEngines { s with budget := [(1, 5)] }) { oneCopy with kind := 2 } = some 0 ∧
     ({ oneCopy with kind := 2 } : Copy).kind = 2 ∧ engineOf (feedEngines s) { oneCopy with kind := 2 } = none) ∧
    (let p := { oneCopy with kind := 2, tenant := 2 }
     let s := { copying p with copies := [{ oneCopy with kind := 2 }, p], budget := [(1, 5), (2, 5)], engines := [(0, { last := 1 })] }
     (getEngine s 0).busy = none ∧ pickCopy 1 (s.copies.filter (eligible s 0)) = some p) ∧
    isPa (translate (copyState 1) 0 0 0x10000 2).2 = true := by decide +kernel

theorem test_copy_progress :
    seen (exec (.copyChunk 9) (copying oneCopy)) [] (fun t => readBytes t.spm 0x7F 6) = [0, 0x11, 0, 0, 0x22, 0] ∧
    seen (exec (.copyComplete 9) (updGroup (copying { oneCopy with done := some 0x81000001 }) 0 0 (fun g => { g with handles := [⟨4, 9⟩] }))) (0, [9])
      (fun t => (regAt (getGroup t 0 0) 4 63, (getGroup t 0 0).handles.map (·.reg))) = (0x81000001, []) ∧
    seen (exec (.budgetRefill 0) { copying oneCopy with dies := [(0, { cycle := 65536 })] }) 0 (fun t => budgetOf t 0 1) = 5 := by decide +kernel

/-- A group that waits for a copy in v8. -/
def handled : State := updGroup (copying oneCopy) 0 0 (fun g => { g with handles := [⟨8, 9⟩] })

theorem witness_handles :
    Ready 0x283 { laneF with a := 12 } (aloneIn handled memEntry 0x283) ∧ Ready 0x286 { laneF with a := 12 } (aloneIn handled memEntry 0x286) ∧
    Ready 0x286 laneF (aloneIn handled memEntry 0x286) ∧
    Ready 0x284 groupF (joinedIn 0x284 groupF handled memEntry) ∧ Ready 0x285 groupF (joinedIn 0x285 groupF handled memEntry) ∧
    (joinedIn 0x284 groupF handled memEntry).scalar groupF 0 0 ∧
    isPending (getGroup handled 0 0) 8 = true ∧ isPending (getGroup handled 0 0) 4 = false ∧
    (getGroup handled 0 0).handles.find? (fun h => h.reg == 8) = some ⟨8, 9⟩ :=
  ⟨ready_alone (by decide +kernel), ready_alone (by decide +kernel), ready_alone (by decide +kernel), ready_joined (by decide +kernel),
   ready_joined (by decide +kernel), by unfold Issue.scalar; decide +kernel, by decide +kernel, by decide +kernel, by decide +kernel⟩

theorem test_handles :
    gives (exec (.htest laneF) handled) 1 0 = ([0], 0) ∧ gives (exec (.htest { laneF with a := 12 }) handled) 1 0 = ([0x40], 0) ∧
    seen (exec (.hmov groupF) handled) [] (fun t => (getGroup t 0 0).handles.map (·.reg)) = [4] ∧
    seen (exec (.hcancel groupF) handled) [] (fun t => t.copies.map (·.cancel)) = [true] ∧
    entriesAfter (exec (.hwait laneF) handled) = [(0x10000, 1, 255)] ∧
    entriesAfter (exec (.hwait { laneF with a := 12 }) handled) = [(0x10010, 1, 255)] := by decide +kernel

/-- A launch of 4 by 3 tiles whose one block is on the core. -/
def tiled : Launch := { id := 5, qslot := 0, pos := 0, tenant := 1, nx := 4, ny := 3, nz := 1, returned := [(2, 1, 0)], jseq := 77 }
def tiling (la : Launch) : State :=
  { updCore (withRegs [(8, 0x10002)]) 0 (fun k => { k with blocks := [(0, some ⟨5, 0x1234, 0, 0, 0⟩)] }) with launches := [la] }

theorem witness_tile_orders : 0 < tiled.nx ∧ tiled.nx ≤ 65536 ∧ 0 < tiled.ny ∧ tiled.ny ≤ 65536 ∧ 0 < tiled.nz ∧
    11 < tiled.nx * tiled.ny * tiled.nz ∧ tiled.order = 0 ∧ 3 < tiled.nx ∧ 2 < tiled.ny := by decide

/-- The four orders of the manual's worked case of R308, with nx = 4, ny = 3 and G = 2. -/
def tilesIn (order : Nat) : List (Nat × Nat) :=
  (List.range 12).map (fun i => ((tileAt { tiled with order := order, glog2 := 1 } i).1, (tileAt { tiled with order := order, glog2 := 1 } i).2.1))

theorem test_tile_orders :
    tilesIn 0 = [(0, 0), (1, 0), (2, 0), (3, 0), (0, 1), (1, 1), (2, 1), (3, 1), (0, 2), (1, 2), (2, 2), (3, 2)] ∧
    tilesIn 1 = [(0, 0), (0, 1), (0, 2), (1, 0), (1, 1), (1, 2), (2, 0), (2, 1), (2, 2), (3, 0), (3, 1), (3, 2)] ∧
    tilesIn 2 = [(0, 0), (1, 0), (0, 1), (1, 1), (2, 0), (3, 0), (2, 1), (3, 1), (0, 2), (1, 2), (2, 2), (3, 2)] ∧
    tilesIn 3 = [(0, 0), (1, 0), (0, 1), (1, 1), (0, 2), (1, 2), (2, 0), (3, 0), (2, 1), (3, 1), (2, 2), (3, 2)] := by decide +kernel

theorem witness_dispenser :
    Ready 0x300 laneF (aloneIn (tiling tiled) memEntry 0x300) ∧ Ready 0x301 laneF (aloneIn (tiling tiled) memEntry 0x301) ∧
    Ready 0x300 groupF (joinedIn 0x300 groupF (tiling tiled) memEntry) ∧
    ((joinedIn 0x300 groupF (tiling tiled) memEntry).members groupF).length = 1 ∧
    launchOf (tiling tiled) 0 0 = some tiled ∧ (getGroup (tiling tiled) 0 0).drained = false ∧ tiled.outst.length < 65536 ∧
    (takeTile tiled).isSome = true ∧ (takeTile { tiled with returned := [], nextTile := 12 }).isNone = true ∧
    tiled.outst.length + min (lanesOf (1 : Mask)).length (tilesLeft tiled) ≤ 65536 :=
  ⟨ready_alone (by decide +kernel), ready_alone (by decide +kernel), ready_joined (by decide +kernel), by decide +kernel, by decide +kernel,
   by decide +kernel, by decide +kernel, by decide +kernel, by decide +kernel, by decide +kernel⟩

theorem test_dispenser :
    gives (exec (.tfetch laneF) (tiling tiled)) 2 0 = ([0x10002, 0], 0) ∧
    gives (exec (.tfetch groupF) (tiling { tiled with returned := [], nextTile := 12 })) 2 0 = ([0xFFFFFFFF, 0xFFFFFFFF], 0) ∧
    seen (exec (.tret laneF) (tiling { tiled with returned := [], outst := [((2, 1, 0), 0, 0)] })) ([], [((0, 0, 0), 0, 0)]) (fun t =>
      (t.launches.flatMap (·.returned), t.launches.flatMap (·.outst))) = ([(2, 1, 0)], []) := by decide +kernel

/-- A queue pair in READY to module 300, for a put of 64 bytes from page 1. -/
def fabric (state : Nat) : State :=
  { mapped (withRegs [(8, 0x10000), (12, 0x20000), (16, 64)]) with
    hub := { qps := [(5, { v := true, state := state, tenant := 1, peerMod := 300, peerQp := 9, lanes := 0xF, peerLanes := 0xF })] },
    laneTag := [(0, 1), (1, 1), (2, 1), (3, 1)] }
def postF : Fields := { groupF with imm := 5 }

theorem witness_fabric_post :
    Ready 0x302 postF (joinedIn 0x302 postF (fabric 1) memEntry) ∧ (joinedIn 0x302 postF (fabric 1) memEntry).scalar postF 0 0 ∧
    isPending (getGroup (fabric 1) 0 0) 4 = false ∧ lpostCheck (fabric 1) 1 0 5 ⟨0x10000, 0x20000, 64, 0, 0, 0⟩ = none ∧
    lpostCheck (fabric 1) 1 0 5 ⟨0x10000, 0x20000, 0, 0, 0, 0⟩ = some (5, 0x10000) ∧
    lpostCheck (fabric 1) 2 0 5 ⟨0x10000, 0x20000, 64, 0, 0, 0⟩ = some (6, 0) ∧
    (getQp (fabric 1) 5).state = 1 ∧ (getQp (fabric 2) 5).state ≠ 1 ∧ (sendQueue (fabric 1) 5).length < 256 ∧
    (getGroup (fabric 1) 0 0).handles.length < 16 :=
  ⟨ready_joined (by decide +kernel), by unfold Issue.scalar; decide +kernel, by decide +kernel, by decide +kernel, by decide +kernel,
   by decide +kernel, by decide +kernel, by decide +kernel, by decide +kernel, by decide +kernel⟩

/-- Kind 4 with error and cause 6 for a queue pair in ERROR; else one request (R192, R365). -/
theorem test_lpost :
    seen (exec (.lpost postF) (fabric 2)) 0 (fun t => regAt (getGroup t 0 0) 4 0) = 0xC4600000 ∧
    seen (exec (.lpost postF) (fabric 1)) [] (fun t => t.hub.links.map (fun l => (l.op, l.len))) = [(0, 64)] := by decide +kernel

/-- A request that is next to leave, or has been sent. -/
def linkOne (op : Nat) (sent : Bool) : LinkOp :=
  { id := 9, qp := 5, core := 0, ctx := 0, tenant := 1, op := op, loc := 0x10000, rem := 0x20000, len := 8, opnd := 3, new := 4, waits := [], sent := sent }
def linking (p : LinkOp) : State := setHub (fabric 1) (fun h => { h with links := [p] })

theorem witness_fabric_initiator :
    (∀ p ∈ [linkOne 0 false, linkOne 1 false, linkOne 0 true, linkOne 1 true],
      (linking p).hub.links.find? (fun l => l.id == 9) = some p ∧ ∀ w ∈ p.waits, acknowledged (getCore (linking p) p.core) w = true) ∧
    ((sendQueue (linking (linkOne 0 false)) 5).find? (fun l => !l.sent)).map (·.id) = some 9 ∧
    (match linkRead (linking (linkOne 0 false)) 0 1 0x10000 (chunkCuts 0x20000 8) 0 with | (_, .ok _) => true | _ => false) = true ∧
    (match linkRead (linking (linkOne 0 false)) 0 1 0x50000 (chunkCuts 0x20000 8) 0 with | (_, .error _) => true | _ => false) = true ∧
    (linkStore (linking (linkOne 1 true)) (linkOne 1 true) [1, 2, 3, 4, 5, 6, 7, 8] (chunkCuts 0x10000 8) 0).2 = none ∧
    (∀ c ∈ chunkCuts 0x10000 8, c.1 + c.2 ≤ 8) ∧
    ((linkOne 2 true).sent = true ∧ (linkStore (linking (linkOne 2 true)) (linkOne 2 true) [1, 2, 3, 4, 5, 6, 7, 8] [(0, 8)] 0).2 = none) ∧
    (∀ l ∈ (linking (linkOne 0 false)).hub.links, l.id ≠ 8) := by decide +kernel

theorem test_link_response :
    seen (exec (.linkResponse 9 0 1 [1, 2, 3, 4, 5, 6, 7, 8]) (linking (linkOne 1 true))) [] (fun t => readBytes t.mem 0x50000 8) =
      [1, 2, 3, 4, 5, 6, 7, 8] ∧
    seen (exec (.linkTransmit 9) (linking (linkOne 0 false))) [] (fun t => t.hub.links.map (·.sent)) = [true] := by decide +kernel

/-- An entry of the remote ownership table that admits module 300's tenant 8 to eight pages from 0x1_0000 on. -/
def served : State := setHub (fabric 1) (fun h => { h with rot := [(0, ⟨true, 7, 1, 1023, 8, 0x10000, 8⟩)] })
def fetchAdd : RemoteReq := ⟨2, 300, 8, 5, 0x10008, 8, [], 5, 0, none⟩

theorem witness_fabric_target :
    (getQp served 5).v = true ∧ (getQp served 5).state = 1 ∧ (getQp served 5).peerMod = fetchAdd.smod ∧
    (rotFind served fetchAdd 8).isSome = true ∧ rotFind served { fetchAdd with addr := 0x90000 } 8 = none ∧
    (rotFind served { fetchAdd with addr := 0x8FFF8 } 8).isSome = true ∧ ((getQp served 5).peerMod ≠ { fetchAdd with smod := 301 }.smod) ∧
    lvecValid served 1 = false ∧
    chunkCuts fetchAdd.addr.toNat 8 = [(0, 8)] ∧
    (match engineTranslate served (tenantDie served 1) 1 fetchAdd.addr 3 with | (_, .ok pa) => !poisoned served pa 8 | _ => false) = true := by
  decide +kernel

theorem test_fetch_add : seen (exec (.linkRequestArrive fetchAdd) { served with mem := [(0x50008, 7)] }) ([], []) (fun t =>
    (readBytes t.mem 0x50008 8, t.hub.resps.map (fun r => (r.cause, r.data)))) = ([12, 0, 0, 0, 0, 0, 0, 0], [(0, [7, 0, 0, 0, 0, 0, 0, 0])]) := by
  decide +kernel

theorem witness_queue_pairs :
    (let p := getQp (fabric 0) 5
     p.v = true ∧ p.state ≠ 2 ∧ 1 ≤ p.tenant ∧ p.tenant ≤ 4094 ∧ (∀ l, l < 96 → p.lanes.getLsbD l = true → laneTagOf (fabric 0) l = p.tenant) ∧
     usablePorts (fabric 0) p.lanes 0xF ≠ [] ∧ (fabric 0).mgmt.modid = 0) ∧
    (getQp (fabric 1) 5).state = 1 ∧ usablePorts (fabric 1) (getQp (fabric 1) 5).lanes 0 = [] := by decide +kernel

theorem test_queue_pairs :
    seen (exec (.qpSetReady 5 ⟨true, 0, 5, 0xF⟩) (fabric 0)) 9 (fun t => (getQp t 5).state) = 1 ∧
    seen (exec (.qpSetReady 5 ⟨true, 1, 5, 0xF⟩) (fabric 0)) 9 (fun t => (getQp t 5).state) = 0 ∧
    seen (exec (.qpError 5 true) (fabric 1)) 9 (fun t => (getQp t 5).state) = 2 ∧
    seen (exec (.qpTeardown 5) (fabric 2)) 9 (fun t => (getQp t 5).state) = 0 ∧
    seen (exec (.flitTimeout 3) (fabric 1)) 9 (fun t => mget 0 t.hub.retries 3) = 1 ∧
    seen (exec (.laneRetrainFail 3) (fabric 1)) [] (fun t => t.hub.laneDown) = [3] := by decide +kernel

/-! Traps, control registers, runtime control. -/

theorem witness_traps_raised : Ready 0x340 { laneF with imm := 0x7FFFFFFF } (aloneIn small smallEntry 0x340) ∧
    (aloneIn small smallEntry).executes { laneF with imm := 1 } ∧ Ready 0x340 { laneF with p := 20 } (aloneIn small smallEntry 0x340) ∧
    ¬ (aloneIn small smallEntry).executes { laneF with p := 20 } :=
  ⟨ready_alone (by decide +kernel), by unfold Issue.executes; decide +kernel, ready_alone (by decide +kernel),
   by unfold Issue.executes; decide +kernel⟩

/-- A trap that its group has stopped for, of a class of the handler slot or of the firmware slot. -/
def raisedOne (cls : Nat) : Raised := { id := 7, cls := cls, info := 5, addr := 0x40, pc := 0x10000, slots := [0], origin := 0 }
def raised (cls : Nat) : State := updCore small 0 (fun k => { (k.withGroup 0 { smallGroup with stop := .trap 7, running := none }) with
  raised := [raisedOne cls], tHandler := 0x30001 })
def frameOne (cls : Nat) (es : List Replay) : Frame :=
  { id := 7, cls := cls, info := 5, addr := 0x40, pc := 0x10000, origin := 0, part := 0, parts := 1,
    members := [⟨0, List.replicate 64 { state := 1, prio := 255, pc := 0x10000 }, es, 1⟩] }
/-- A frame that waits for the handler slot, whose page 3 is frame 5, or for the firmware slot. -/
def framed : State := { updCore (raised 4) 0 (fun k => { k with raised := [], framesH := [frameOne 4 []], framesF := [frameOne 6 []] }) with
  frameTag := [(5, 1)], chunkTag := [(0, 1)], xlat := [(0, { v := true, page := 3, frame := 5, x := true, w := false, r := false, tag := 1 })] }

theorem witness_trap_entry :
    (∀ cls ∈ [4, 6, 9], (getCore (raised cls) 0).raised.find? (fun q => q.id == 7) = some (raisedOne cls) ∧
      (getCore (raised cls) 0).regroups = [] ∧ takeReady (getCore (raised cls) 0) (raisedOne cls) = true) ∧
    ((raisedOne 4).slots.length ≤ 16 ∧ 0 < (raisedOne 4).slots.length) ∧ (getCore (raised 4) 0).tHandler.getLsbD 0 = true ∧
    ((getCore framed 0).curF = none ∧ (getCore framed 0).framesF = frameOne 6 [] :: [] ∧ contextIdle (getGroup framed 0 49) = true) ∧
    ((getCore framed 0).curH = none ∧ (getCore framed 0).framesH = frameOne 4 [] :: [] ∧ contextIdle (getGroup framed 0 48) = true) ∧
    isPa (checkGlobal framed 0 48 32 0 ((getCore framed 0).tHandler &&& ~~~(0x1F : Dword))).2 = true := by decide +kernel

theorem test_trap_entry :
    seen (exec (.trapTake 0 7) (raised 4)) ([], []) (fun t => ((getCore t 0).framesH.map (·.cls), (getCore t 0).framesF.map (·.cls))) = ([4], []) ∧
    seen (exec (.trapTake 0 7) (raised 6)) ([], []) (fun t => ((getCore t 0).framesH.map (·.cls), (getCore t 0).framesF.map (·.cls))) = ([], [6]) ∧
    seen (exec (.frameDeliver 0 false) framed) none (fun t => (getGroup t 0 48).running) = some 0x30000 := by decide +kernel

/-- The handler slot with a current frame whose member has one replay entry of kind 1, or none. -/
def replayOne (kind : Nat) : Replay :=
  { kind := kind, i := .st { laneF with sub := 4 }, word1 := 0, word2 := 0, imm := 0, scope := .lane, x := 1, pc := 0x10000 }
def handling (es : List Replay) : State :=
  { updCore (raised 4) 0 (fun k => { (k.withGroup 48 { smallGroup with regs := [(8 * 64, 0x55)] }) with raised := [], curH := some (frameOne 4 es) }) with
    cur := (0, 48) }

theorem witness_trap_return : Ready 0x341 zeroF (aloneIn (handling []) smallEntry 0x341) ∧ (aloneIn (handling []) smallEntry).executes zeroF ∧
    ((aloneIn (handling []) smallEntry).members zeroF).map (·.slot) = [48] ∧ curFrame (getCore (handling []) 0) 48 = some (frameOne 4 []) ∧
    (frameOne 4 []).parts = 1 ∧ ({ frameOne 4 [] with parts := 2 } : Frame).part + 1 < 2 ∧ (getCore (handling []) 0).partsH = [] ∧
    (getCore (handling []) 0).raised = [] ∧ curFrame (updCore (handling []) 0 (fun k => { k with curH := none }) |> fun s => getCore s 0) 48 = none :=
  ⟨ready_alone (by decide +kernel), by unfold Issue.executes; decide +kernel, by decide +kernel, by decide +kernel, by decide, by decide,
   by decide +kernel, by decide +kernel, by decide +kernel⟩

/-- A trap of the handler slot: its frame goes to the firmware slot, and its context ends. -/
def handlerTrap : TrapReq := { cls := 2, info := 0, pc := 0x10000, slots := [48], origin := 48 }

theorem witness_handler_fault : 48 ∈ handlerTrap.slots ∧ (getCore (handling []) 0).curH = some (frameOne 4 []) := by decide +kernel

theorem test_handler_fault :
    (getCore (raiseTrap (handling []) 0 handlerTrap) 0).framesF.map (·.cls) = [4] ∧
    (getGroup (raiseTrap (handling []) 0 handlerTrap) 0 48).live = false := by decide +kernel

theorem test_eret : seen (exec (.eret zeroF) (handling [])) (.held, [], false) (fun t =>
    ((getGroup t 0 0).stop, (getGroup t 0 0).frontier.map (fun e => (e.pc.toNat, e.prio)), (getGroup t 0 48).live)) =
      (.run, [(0x10000, 255)], false) := by decide +kernel

/-- A result that is not due, one that is, and one with an enabled exception. -/
def landing (p : Pend) : State := updGroup small 0 0 (fun g => { g with pend := [p] })
def pendOne : Pend := { id := 9, lanes := 1, regs := [4], cells := [(4 * 64, 7)] }

theorem witness_results_land :
    (getGroup (landing pendOne) 0 0).pend.find? (fun d => d.id == 9) = some pendOne ∧
    writable (now (landing { pendOne with due := some 4 }) 0) { pendOne with due := some 4 } = false ∧
    writable (now (landing pendOne) 0) pendOne = true ∧ pendOne.held = none ∧
    ({ pendOne with held := some ⟨0x10000, 0x10008, [0], 16⟩ } : Pend).held = some ⟨0x10000, 0x10008, [0], 16⟩ := by decide +kernel

/-- Two members' results of one issue: they land together, once the later of them is due (R105). -/
def landingBoth (due : Nat) : State :=
  updGroup (updGroup (landing { pendOne with share := 6 }) 0 1 (fun _ => smallGroup)) 0 1
    (fun g => { g with pend := [{ pendOne with id := 10, share := 6, due := some due }] })

theorem test_results_together : ∀ due ∈ [0, 1], seen (exec (.resultWriteback 0 0 9) (landingBoth due)) [] (fun t =>
    [regAt (getGroup t 0 0) 4 0, regAt (getGroup t 0 1) 4 0]) = if due = 0 then [7, 7] else [0, 0] := by decide +kernel

theorem test_result_lands :
    seen (exec (.resultWriteback 0 0 9) (landing { pendOne with exc := 16 })) (0, 0) (fun t => (regAt (getGroup t 0 0) 4 0, (getGroup t 0 0).fpflags)) = (7, 16) ∧
    seen (exec (.resultWriteback 0 0 9) (landing { pendOne with held := some ⟨0x10000, 0x10008, [0], 16⟩ })) [] (fun t =>
      (getCore t 0).raised.map (fun r => (r.cls, r.info.toNat))) = [(10, 0x80000010)] := by decide +kernel

/-- A register of the group, one beyond it, k.fpflags, a replay word. -/
theorem witness_windows :
    (∀ op ∈ [0x342, 0x343], Ready op { laneF with imm := 8 } (aloneIn (handling []) smallEntry op) ∧ Ready op { laneF with imm := 128 } (aloneIn (handling []) smallEntry op) ∧
      Ready op { laneF with imm := 0x00401001 } (aloneIn (handling []) smallEntry op)) ∧
    (∀ op ∈ [0x344, 0x345], Ready op { laneF with imm := 8 } (aloneIn (handling [replayOne 1]) smallEntry op)) ∧
    ((aloneIn (handling []) smallEntry).members laneF).map (·.slot) = [48] ∧ (aloneIn (handling []) smallEntry).executes laneF ∧
    (frameMemberAt (getCore (handling []) 0) 48 (winMember { laneF with imm := 8 })).isSome = true ∧
    (frameMemberAt (getCore (handling []) 0) 48 (winMember { laneF with imm := 0x01000008 })).isNone = true ∧
    winSpace { laneF with imm := 0x00401001 } = 1 ∧ winItem { laneF with imm := 0x00401001 } = 0x1001 ∧
    ((getGroup (handling []) 0 0).allotment ≤ winItem { laneF with imm := 128 } ∧ ¬ (getGroup (handling []) 0 0).allotment ≤ winItem { laneF with imm := 127 }) ∧
    (rqFind (handling [replayOne 1]) 0 48 { laneF with imm := 8 }).isSome = true ∧ (rqFind (handling []) 0 48 { laneF with imm := 8 }).isNone = true ∧
    (replayOne 2).kind = 2 ∧ (5 ≤ rqWord { laneF with imm := 8 } ∧ rqWord { laneF with imm := 8 } ≤ 13) :=
  ⟨fun op ho => ⟨all_ready (ops := [0x342, 0x343]) (by decide +kernel) op ho, all_ready (ops := [0x342, 0x343]) (by decide +kernel) op ho,
     all_ready (ops := [0x342, 0x343]) (by decide +kernel) op ho⟩,
   all_ready (by decide +kernel), by decide +kernel, by unfold Issue.executes; decide +kernel, by decide +kernel, by decide +kernel, by decide +kernel,
   by decide +kernel, by decide +kernel, by decide +kernel, by decide +kernel, by decide, by decide +kernel⟩

/-- The word that the handler slot's instruction will give v4 of lane 0. -/
def handlerGives (r : Host.Outcome State Fault Refusal) : Option Word :=
  seen r none (fun t => (getGroup t 0 48).pend.head?.map (fun p => mget 0 p.cells (cellKey 4 0)))

theorem test_windows :
    handlerGives (exec (.winrd { laneF with imm := 16 }) (handling [])) = some 5 ∧
    handlerGives (exec (.winrd { laneF with imm := 0x00402011 }) (handling [])) = some 5 ∧
    seen (exec (.winwr { laneF with imm := 16 }) (handling [])) 0 (fun t => regAt (getGroup t 0 0) 16 0) = 0x55 ∧
    handlerGives (exec (.rqrd { laneF with imm := 3 }) (handling [])) = some 0 ∧
    seen (exec (.rqwr { laneF with imm := 8 }) (handling [replayOne 1])) [] (fun t =>
      ((getCore t 0).curH.toList.flatMap (fun fr => fr.members.flatMap (fun m => m.entries.map (fun e => mget 0 e.words 2))))) = [0x55] := by decide +kernel

/-- A block of a launch on the core, for k.kernarg. -/
theorem witness_control_registers :
    (∀ code ∈ ([0x1001, 0x2001, 0x2002, 0x2003, 0x3001] : List Word), Ready 0x346 { laneF with imm := code } (aloneIn small smallEntry 0x346) ∧
      Ready 0x347 { laneF with imm := code } (aloneIn small smallEntry 0x347)) ∧
    (aloneIn small smallEntry).executes laneF ∧ (aloneIn small smallEntry).scalar laneF 0 0 ∧
    fpOpen (landMembers small 0 ((aloneIn small smallEntry).members laneF)) 0 ((aloneIn small smallEntry).members laneF) = false ∧
    blockOf (getCore (tiling tiled) 0) (getGroup (tiling tiled) 0 0).block = some ⟨5, 0x1234, 0, 0, 0⟩ :=
  ⟨by intro code hc; simp only [List.mem_cons, List.not_mem_nil, or_false] at hc
      rcases hc with rfl | rfl | rfl | rfl | rfl <;> exact ⟨ready_alone (by decide +kernel), ready_alone (by decide +kernel)⟩,
   by unfold Issue.executes; decide +kernel, by unfold Issue.scalar; decide +kernel, by decide +kernel, by decide +kernel⟩

theorem test_control_registers :
    gives (exec (.csrrd { laneF with imm := 0x1003 }) (tiling tiled)) 2 0 = ([0x1234, 0], 0) ∧
    seen (exec (.csrwr { laneF with imm := 0x1001 }) (updGroup (withRegs [(8, 0x1F04)]) 0 0 (fun g => { g with fpflags := 0x105 }))) 0
      (fun t => (getGroup t 0 0).fpflags) = 0x1F01 ∧
    seen (exec (.csrwr { laneF with imm := 0x2001 }) (withRegs [(8, 0x4001F)])) 0 (fun t => (getCore t 0).tHandler) = 0x40001 := by decide +kernel

/-- Writes of t.notice and t.xlat that await their units; the page of the first is mapped, or not. -/
def csrHeld (code : Nat) (v : Dword) : State :=
  updCore (mapped small) 0 (fun k => { (k.withGroup 0 { smallGroup with frontier := [{ smallEntry with park := .hold }] }) with csrPend := [⟨0, code, v, 0x10000, .lane⟩] })

theorem witness_held_registers :
    findCsr (getCore (csrHeld 0x2002 0x12001) 0) 0 0x2002 = some ⟨0, 0x2002, 0x12001, 0x10000, .lane⟩ ∧
    isPa (checkGlobal (csrHeld 0x2002 0x12001) 0 0 1 2 (0x12001 &&& ~~~(0xFFF : Dword))).2 = true ∧
    isFault (checkGlobal (csrHeld 0x2002 0x52001) 0 0 1 2 (0x52001 &&& ~~~(0xFFF : Dword))).2 = true ∧
    findCsr (getCore (csrHeld 0x2003 0x8000000000000040) 0) 0 0x2003 = some ⟨0, 0x2003, 0x8000000000000040, 0x10000, .lane⟩ ∧
    chunkTagOf (csrHeld 0x2003 0) 0 (63 / 64) = tenantOf (csrHeld 0x2003 0) 0 0 := by decide +kernel

theorem test_held_registers :
    seen (exec (.tNoticeWrite 0 0) (csrHeld 0x2002 0x12001)) none (fun t => (getTenant t 1).noticePa) = some 0x52000 ∧
    seen (exec (.tXlatWrite 0 0) (csrHeld 0x2003 0x8000000000000040)) (0, true) (fun t => ((getTenant t 1).xlat, (mget {} t.xlat 0).v)) =
      (0x8000000000000040, false) := by decide +kernel

/-- An entry for page 2 with frame 5 at index 1, an index of another chunk, an entry of another tenant's frame. -/
def xbState (idx entry : Word) : State := mapped (withRegs [(8, 0x20000), (12, entry), (16, idx)])

theorem witness_translation_entries :
    Ready 0x348 laneF (aloneIn (xbState 63 0x5000F) memEntry 0x348) ∧ (aloneIn (xbState 63 0x5000F) memEntry).executes laneF ∧
    (∀ op ∈ [0x349, 0x34A, 0x34B], Ready op groupF (joinedIn op groupF (xbState 63 0x5000F) memEntry)) ∧
    (joinedIn 0x349 groupF (xbState 63 0x5000F) memEntry).scalar groupF 0 0 ∧
    indexOwned (xbState 63 0x5000F) 1 0 63 = true ∧ indexOwned (xbState 64 0x5000F) 1 0 64 = false ∧
    frameTagOf (xbState 63 0x5000F) 5 = 1 ∧ frameTagOf (xbState 63 0x6000F) 6 ≠ 1 ∧ signExtended 0x20000 = true ∧
    (getGroup (xbState 63 0x5000F) 0 0).loads = [] :=
  ⟨ready_alone (by decide +kernel), by unfold Issue.executes; decide +kernel,
   by intro op ho; simp only [List.mem_cons, List.not_mem_nil, or_false] at ho
      rcases ho with rfl | rfl | rfl <;> exact ready_joined (by decide +kernel),
   by unfold Issue.scalar; decide +kernel, by decide +kernel, by decide +kernel, by decide +kernel, by decide +kernel, by decide +kernel,
   by decide +kernel⟩

theorem test_translation_entries :
    seen (exec (.xbld groupF) (xbState 1 0x5000F)) {} (fun t => mget {} t.xlat 1) = { v := true, page := 2, frame := 5, x := true, w := true, r := true, tag := 1 } ∧
    seen (exec (.xbld groupF) (xbState 64 0x5000F)) [] (fun t => (getCore t 0).raised.map (fun r => (r.cls, r.info.toNat))) = [(6, 8)] ∧
    seen (exec (.xbinv { groupF with sub := 1 }) (xbState 1 0)) true (fun t => (mget {} t.xlat 0).v) = false ∧
    gives (exec (.xbrd { groupF with sub := 2, a := 12 }) (mapped (withRegs [(12, 0x10000)]))) 1 0 = ([0], 0) ∧
    seen (exec (.ifence laneF) (updCore small 0 (fun k => { k with ibuf := [(0, [1])] }))) [] (fun t => (getCore t 0).ibuf) = [] := by decide +kernel

/-- A notice group with EN whose page's NSEQ is 3, and a second group that GSTOP may stop. -/
def noticed (nseq : Nat) (last : Word) : State :=
  { setCore State.reset 0 { fTenant := 0x80000001, groups := [(0, { smallGroup with notice := 0x12001, lastNotice := last }), (2, { smallGroup with running := some 0x20000 })] } with
    tenants := [(1, { noticePa := some 0x52000 })], mem := writeBytes [] 0x52000 (natToBytes 4 nseq) }

theorem witness_runtime_control :
    (∀ op ∈ [0x34C, 0x34D, 0x34E, 0x34F], Ready op groupF (joinedIn op groupF small smallEntry)) ∧
    (joinedIn 0x34C groupF small smallEntry).scalar groupF 0 0 ∧
    launchOf (tiling tiled) 0 0 = some tiled ∧
    (getCore small 767).tid ≠ tenantOf small 0 0 ∧ (768 : Nat) ≤ 0xFFFFFFFF / 256 ∧
    ((getGroup (noticed 3 0) 0 2).live = true ∧ (getGroup (noticed 3 0) 0 2).stop = .run ∧ boundaryPc (getGroup (noticed 3 0) 0 2) = some 0x20000) ∧
    (getGroup (noticed 3 0) 0 1).live = false ∧
    ((getGroup (noticed 3 0) 0 0).notice.getLsbD 0 = true ∧ (getGroup small 0 0).notice.getLsbD 0 = false) ∧
    noticeSeq (noticed 3 0) 1 = 3 ∧ (getGroup (noticed 3 3) 0 0).lastNotice = 3 ∧
    (noticeSeq (noticed 1 0xFFFFFFFE) 1 + 0xFFFFFFFE - 0xFFFFFFFE) % 0xFFFFFFFE < 0x7FFFFFFF :=
  ⟨by intro op ho; simp only [List.mem_cons, List.not_mem_nil, or_false] at ho
      rcases ho with rfl | rfl | rfl | rfl <;> exact ready_joined (by decide +kernel),
   by unfold Issue.scalar; decide +kernel, by decide +kernel, by decide +kernel, by decide, by decide +kernel, by decide +kernel, by decide +kernel,
   by decide +kernel, by decide +kernel, by decide +kernel⟩

theorem test_runtime_control :
    seen (exec (.cede { groupF with sub := 2 }) (withRegs [(8, 77)])) [] (fun t => t.cedes.map (fun q => (q.kind, q.res))) = [(2, 77)] ∧
    gives (exec (.fwcall { groupF with imm := 2 }) (tiling tiled)) 1 0 = ([77], 0) ∧
    seen (exec (.gstop { groupF with a := 12 }) (noticed 3 0)) [] (fun t => (getCore t 0).raised.map (fun r => (r.slots, r.cls))) = [([2], 11)] ∧
    gives (exec (.nwait groupF) (noticed 3 0)) 1 0 = ([3], 0) ∧ gives (exec (.nwait groupF) small) 1 0 = ([0xFFFFFFFF], 0) := by decide +kernel

/-! Queues, launches, blocks. -/

/-- Queue slot 3 of tenant 1, enabled and running, its ring and index in frame 5. -/
def slotOne : QSlot := { owner := 1, logs := 4, rbase := 0x50000, ridxa := 0x51008, en := true, state := 1, r := 14, w := 16 }
def queued (x : QSlot) : State := { mapped small with queues := [(3, x)] }
/-- A launch packet of tenant 1 (bytes of R302): position 14 of its first lap, kind, cores. -/
def packet (kind seq : Nat) : List Byte := natToBytes 64 (seq + 14 * 2 ^ 16 + kind * 2 ^ 29 + 1 * 2 ^ 32 + 1 * 2 ^ 106)

theorem witness_queue_control :
    1 ≤ ((16 : Word) - 15).toNat ∧ ((0x8000000E : Word) - 15).toNat = 2 ^ 31 - 1 ∧ ((0x8000000F : Word) - 15).toNat = 2 ^ 31 ∧
    pktSlot (packet 1 0) = 14 ∧ pktSlot (packet 1 0) < 2 ^ slotOne.logs ∧ 2 ^ ({ slotOne with logs := 3 } : QSlot).logs ≤ pktSlot (packet 1 0) ∧
    slotOne.state ≠ 0 ∧ (inTenantFrame (queued slotOne) 1 slotOne.rbase.toNat = true ∧ inTenantFrame (queued slotOne) 1 slotOne.ridxa.toNat = true ∧
      4 ≤ slotOne.logs ∧ slotOne.logs ≤ 12 ∧ slotOne.logn ≤ 8 ∧ slotOne.owner ≠ 0) ∧
    ({ slotOne with en := false } : QSlot).claimed = [] ∧
    inTenantFrame (queued slotOne) 1 (slotOne.ridxa.toNat / 8 * 8) = true ∧ inTenantFrame (queued slotOne) 1 0x60000 = false := by decide +kernel

theorem test_queue_control :
    seen (exec (.doorbell 3 20) (queued slotOne)) 0 (fun t => (getQueue t 3).w) = 20 ∧
    seen (exec (.doorbell 3 16) (queued slotOne)) 0 (fun t => (getQueue t 3).w) = 16 ∧
    seen (exec (.launchWrite 3 (packet 1 1)) (queued slotOne)) 0 (fun t => (getQueue t 3).w) = 31 ∧
    seen (exec (.queueEnable 3) (queued { slotOne with state := 0, logs := 13 })) (0, 0) (fun t => ((getQueue t 3).state, (getQueue t 3).errpos)) = (4, 14) ∧
    seen (exec (.queueDisable 3) (queued slotOne)) true (fun t => (getQueue t 3).en) = false ∧
    seen (exec (.queueStopped 3) (queued { slotOne with en := false })) 9 (fun t => (getQueue t 3).state) = 0 ∧
    seen (exec (.queueReset 3 40) (queued slotOne)) ([], 0) (fun t => (readBytes t.mem 0x51008 8, (getQueue t 3).r)) = ([40, 0, 0, 0, 0, 0, 0, 0], 40) := by
  decide +kernel

/-- A claimed packet of position 14. -/
def claimedOne (p : Option (List Byte)) : State := queued { slotOne with r := 15, low := 14, claimed := [(14, p)] }

theorem witness_packets :
    (slotOne.state = 1 ∧ slotOne.en = true ∧ slotOne.r ≠ slotOne.w ∧ slotOne.lost = false ∧ (queued slotOne).fenced = [] ∧ functionRuns (queued slotOne) 1 = true) ∧
    (pktSlot (packet 1 0) = (14 : Word).toNat % 2 ^ slotOne.logs ∧ pktSeq (packet 1 0) = (14 : Word).toNat / 2 ^ slotOne.logs % 65536) ∧
    (pktSeq (packet 1 0xFFFF) + 1) % 65536 = (14 : Word).toNat / 2 ^ slotOne.logs % 65536 ∧
    (inTenantFrame (queued slotOne) 1 0x50380 = true ∧ poisoned (queued slotOne) 0x50380 64 = false) ∧
    (getQueue (claimedOne (some (packet 1 0))) 3).claimed = [] ++ (14, some (packet 1 0)) :: [] ∧
    (getQueue (claimedOne none) 3).claimed = [] ++ (14, none) :: [] ∧
    (pktTenant (packet 1 0) = 1 ∧ pktCcount (packet 1 0) = 1 ∧ pktCbase (packet 1 0) + pktCcount (packet 1 0) ≤ 768) ∧
    (getQueue (claimedOne (some (packet 1 0))) 3).low = 14 := by decide +kernel

/-- The manual's worked case: SEQ 1 where lap 0 is due overruns at position 14; an unknown code object has code 7. -/
theorem test_packets :
    seen (exec (.packetClaim 3) { queued slotOne with mem := writeBytes [] 0x50380 (packet 1 1) }) [] (fun t => (getQueue t 3).claimed) = [(14, some (packet 1 1))] ∧
    seen (exec (.packetCheck 3 14) (claimedOne (some (packet 1 1)))) (0, 0) (fun t => ((getQueue t 3).state, (getQueue t 3).errpos)) = (2, 14) ∧
    seen (exec (.packetCheck 3 14) (claimedOne (some (packet 2 0)))) [] (fun t => t.launches.map (fun l => (l.barrier, l.pos))) = [(true, 14)] ∧
    launchCode (queued slotOne) 1 (packet 1 0) = 7 ∧ launchCode (queued slotOne) 2 (packet 1 0) = 1 := by decide +kernel

/-- A launch of one role of two groups of eight lanes with 8 registers, on core 4; a gang on cluster 1. -/
def launched (gang : Bool) : Launch :=
  { id := 5, qslot := 3, pos := 14, tenant := 1, gang := gang, base := 0x40000, cores := [4, 5, 6, 7], waitCores := [4, 5, 6, 7],
    roles := [⟨true, [8], 9, 2, 0, 0x100⟩], nx := 1, ny := 1, nz := 1 }
def placing (gang : Bool) : State :=
  { State.reset with launches := [launched gang], cores := [(4, { fTenant := 0x80000001 }), (5, { fTenant := 0x80000001 }), (6, { fTenant := 0x80000001 }), (7, { fTenant := 0x80000001 })] }
/-- A launch that has no block left, and a group that has ended. -/
def finishing (la : Launch) : State := { State.reset with launches := [la] }
def ending : State := setCore State.reset 0 { fTenant := 0x80000001, blocks := [(0, some ⟨5, 0, 0, 0, 0⟩)], groups := [(0, { smallGroup with frontier := [], homes := 0 })] }
/-- A block on core 4 that a gang of its tenant waits for, drained; and the same block saved. -/
def moving : State :=
  let k : Core := { fTenant := 0x80000001, blocks := [(0, some ⟨5, 0, 0, 0, 0⟩)], groups := [(0, { smallGroup with stop := .held })], alloc := [⟨0, 0, [(0, 128)]⟩] }
  { State.reset with
    cores := [(4, k), (5, { fTenant := 0x80000001 }), (6, { fTenant := 0x80000001 }), (7, { fTenant := 0x80000001 }), (8, { fTenant := 0x80000001 })],
    launches := [{ launched false with cores := [4], waitCores := [] }, { launched true with id := 6, pos := 15, roles := [⟨true, [8], 9, 48, 0, 0x100⟩] }] }

theorem witness_blocks :
    (findLaunch (placing false) 5 = some (launched false) ∧ fitsLaunch (placing false) (launched false) 4 = true) ∧
    ([4, 5, 6, 7].all (fun d => fitsLaunch (placing true) (launched true) d) = true) ∧
    (fitsLaunch (placing false) (launched false) 8 = false) ∧
    (freeSlots (getCore (placing false) 4))[1]? = some 1 ∧ ((groupPlan (launched false).roles)[1]?).isSome = true ∧
    (let g := getGroup ending 0 0
     g.live = true ∧ g.frontier = [] ∧ g.homes = 0 ∧ g.handles = [] ∧ g.storeq = []) ∧
    (let la := { launched false with waitCores := [] }
     findLaunch (finishing la) 5 = some la ∧ la.waitCores = [] ∧ blocksOf (finishing la) 5 = [] ∧ launchQuiet (finishing la) la = true) ∧
    (let la := { launched false with barrier := true }
     earlierOf (finishing la) la = [] ∧ (getQueue (finishing la) 3).claimed = []) ∧
    (blockOf (getCore moving 4) 0 = some ⟨5, 0, 0, 0, 0⟩ ∧ heldElse moving 4 = false ∧ moveHelps moving 4 0 8 = true ∧ blockDone (holdBlock moving 4 0) 4 0 = true ∧
      (mkSaved (holdBlock moving 4 0) 4 0 moving.serial 0).any (fun v => hasPlace (holdBlock moving 4 0) v 8) = true) := by decide +kernel

/-- A block that has been saved, and a core it may resume on. -/
def savedOne : Option Saved := mkSaved (holdBlock moving 4 0) 4 0 7 0
def resuming : State := { placing false with launches := [{ launched false with waitCores := [] }], saved := savedOne.toList }

theorem witness_block_resume : (savedOne.any (fun v => mayResume resuming v 4 && v.groups.all (fun q => decide (q.1 < 48)) &&
    (v.groups.map (·.1)).length == 1)) = true ∧ (findLaunch resuming 5).isSome = true := by decide +kernel

/-- The same block of a gang: it resumes at its index within a cluster of its launch. -/
def resumingGang : State := { placing true with launches := [{ launched true with waitCores := [] }], saved := savedOne.toList }

theorem witness_gang_resume : savedOne.any (fun v => (gangOf resumingGang v).all (fun q => mayResume resumingGang q (gangCore v q 4)) &&
    v.core % 4 == 0 && (gangOf resumingGang v).map (·.id) == [7] && (gangOf resumingGang v).map (·.core) == [4] &&
    !mayResume resumingGang v 8) = true := by decide +kernel

theorem test_blocks :
    seen (exec (.blockPlace 5 4) (placing false)) [] (fun t => (getCore t 4).groups.map (fun g => (g.1, g.2.frontier.map (fun e => (e.pc.toNat, e.mask.toNat))))) =
      [(0, [(0x40100, 0xFF)]), (1, [(0x40100, 0xFF)])] ∧
    seen (exec (.blockPlace 5 4) (placing true)) [] (fun t => t.cores.map (fun k => k.2.groups.length)) = [2, 2, 2, 2] ∧
    seen (exec (.slotRelease 0 0) ending) (9, 9) (fun t => ((getCore t 0).groups.length, (residentBlocks (getCore t 0)).length)) = (0, 0) ∧
    seen (exec (.launchComplete 5) (finishing { launched false with waitCores := [] })) [5] (fun t => t.launches.map (·.id)) = [] ∧
    seen (exec (.gangMigrate 4 0 8) moving) (0, []) (fun t => (regAt (getGroup t 8 0) 16 0, residentBlocks (getCore t 4))) = (5, []) ∧
    seen (exec (.blockResume 7 4) resuming) (0, [7]) (fun t => (regAt (getGroup t 4 0) 16 0, t.saved.map (·.id))) = (5, []) ∧
    seen (exec (.firmwareEndLaunch 5) { ending with launches := [launched false], cores := (updCore ending 0 (fun k => { k with framesF := [frameOne 6 []] })).cores })
      [9] (fun t => t.launches.map (·.endedBy)) = [11] := by decide +kernel

/-! Revocation, pre-emption, functions, the host, starts, checkpoints, management. -/

/-- Tenant 1 with cores 4 and 5, frames 5 to 7 and its loss vector in frame 5; the second core holds a block. -/
def tenanted : State :=
  { State.reset with
    cores := [(4, { fTenant := 0x80000001 }), (5, { fTenant := 0x80000001, blocks := [(0, some ⟨5, 0, 0, 0, 0⟩)], groups := [(0, { smallGroup with stop := .held })] })]
    tenants := [(1, { lvec := 0x50000, lbase := 0x60000, lsize := 1 })]
    frameTag := [(5, 1), (6, 1), (7, 1)]
    bankTag := [(4 * 256 + 3, 1)] }
/-- A notice of kind 0 for one core, posted at cycle 0 with 100 cycles. -/
def noticeOne : Notice := ⟨0, 1, 1, 0, 100, [4, 5], 2, [], false, 0⟩
def noticeOpen (n : Notice) : State := { tenanted with tenants := [(1, { lvec := 0x50000, lbase := 0x60000, lsize := 1, nseq := 1, notices := [n] })] }
def ceding (s : State) (kind res : Nat) : State := { s with cedes := [⟨9, 5, 0, 1, kind, res, none⟩] }
def refusesNotice (s : State) (kind count : Nat) (cs : List Nat) (tag : Nat) : Bool :=
  (openNotice s 1 kind).isSome || decide (cs.length < count) || tag == 4095 || !lvecValid s 1 ||
    cs.any (fun r => tagOf s kind r != some 1 || barred s 1 kind r)

theorem witness_revocation :
    refusesNotice tenanted 0 1 [4, 5] 2 = false ∧ refusesNotice tenanted 2 1 [5] 2 = true ∧ refusesNotice tenanted 2 1 [7] 2 = false ∧
    (noticeOpen noticeOne).hub.cycle < noticeOne.t0 + noticeOne.d ∧
    (getTenant (noticeOpen { noticeOne with d := 0 }) 1).notices = [] ++ { noticeOne with d := 0 } :: [] ∧
    ((openNotice (noticeOpen noticeOne) 1 0).isSome = true ∧ heldBy (noticeOpen noticeOne) 1 0 4 = true ∧ busy (noticeOpen noticeOne) 1 0 4 = false ∧
      quiet (ceding (noticeOpen noticeOne) 0 4) 0 4 = true ∧ seizedOf (noticeOpen noticeOne) 1 0 = []) ∧
    (openNotice tenanted 1 1 = none ∧ heldBy tenanted 1 1 (4 * 256 + 3) = true ∧ busy tenanted 1 1 (4 * 256 + 3) = false) ∧
    (heldBy tenanted 1 0 6 = false ∧ busy tenanted 1 0 5 = true) ∧
    (let s := noticeOpen { noticeOne with closed := true }
     (getTenant s 1).notices.find? (fun n => n.kind == 0 && n.closed) = some { noticeOne with closed := true } ∧
     quiet (fence s 1 0 4) 0 4 = true ∧ tagOf s 0 4 ≠ none) := by decide +kernel

theorem test_revocation :
    seen (exec (.noticePost 1 0 1 100 [4, 5] 2) tenanted) [] (fun t => (getTenant t 1).notices.map (·.seq)) = [1] ∧
    seen (exec (.noticePost 1 2 1 100 [5] 2) tenanted) [3] (fun t => (getTenant t 1).notices.map (·.seq)) = [] ∧
    seen (exec (.noticeDeadline 1 0) (noticeOpen { noticeOne with d := 0 })) [] (fun t => seizedOf t 1 0) = [4] ∧
    seen (exec (.cedeArrival 9) (ceding (noticeOpen noticeOne) 0 4)) none (fun t => tagOf t 0 4) = some 2 ∧
    seen (exec (.cedeArrival 9) (ceding tenanted 1 (4 * 256 + 3))) none (fun t => tagOf t 1 (4 * 256 + 3)) = some 0 ∧
    seen (exec (.cedeArrival 9) (ceding (noticeOpen noticeOne) 0 5)) none (fun t => tagOf t 0 5) = some 1 ∧
    seen (exec (.skidderSeize 1 0) (noticeOpen { noticeOne with closed := true })) none (fun t => tagOf t 0 4) = some 2 := by decide +kernel

/-- A pre-emption packet (R346): tenant 1, core 4 and one more, D, a save area of one frame at frame 16, STATUS at frame 17. -/
def requestBytes (tenant d : Nat) : List Byte :=
  natToBytes 64 (tenant + 4 * 2 ^ 32 + 2 * 2 ^ 42 + d * 2 ^ 64 + 0x100000 * 2 ^ 128 + 0x10000 * 2 ^ 192 + 0x110000 * 2 ^ 256)
/-- Core 5 with a block of 128 registers; its launch has one sample of 3000 cycles. -/
def live : State := { tenanted with launches := [{ launched false with cores := [5], waitCores := [], samples := [3000] }] }
def vacates (choice : Nat) : Preempt :=
  { id := 3, tenant := 1, d := 1000, sarea := 0x100000, ssize := 0x10000, status := 0x110000,
    clusters := [{ cluster := 1, c0 := 0, choice := choice, est := 0, cores := [4, 5] }] }
def vacating' (choice : Nat) : State := { live with preempts := [vacates choice] }

theorem witness_preemption :
    requestOk live (requestBytes 1 1000) = true ∧ requestOk live (requestBytes 2 1000) = false ∧
    statusOk live (pqStatus (requestBytes 2 1000)) 4 = true ∧ pqCores (requestBytes 1 1000) = [4, 5] ∧
    maxOver [4, 5] (drainCost live) = 3000 ∧ priorChoice live 5 = none ∧ residentBlocks (getCore live 5) = [(0, ⟨5, 0, 0, 0, 0⟩)] ∧
    (findPreempt (vacating' 1) 3 = some (vacates 1) ∧ ownerOf (vacating' 1) 5 = some 3 ∧ (vacates 1).clusters.all (fun q => !saveFirst (vacating' 1) (vacates 1) q 5) ∧
      blockDone (holdCore (vacating' 1) 5) 5 0 = true ∧ coreBytes (holdCore (vacating' 1) 5) 5 ≤ (vacates 1).ssize) ∧
    ownerOf (vacating' 2) 5 = some 3 ∧
    ((residentBlocks (getCore (vacating' 2) 5)).map (·.1)).all
      (discardDone (((residentBlocks (getCore (vacating' 2) 5)).map (·.1)).foldl (fun s b => discardHold s 5 b) (vacating' 2)) 5) = true := by
  decide +kernel

/-- Software expects 3000 cycles to drain, more than D; the save is chosen. -/
theorem test_preemption :
    seen (exec (.preemptRequest (requestBytes 1 1000)) live) [] (fun t => t.preempts.flatMap (fun p => p.clusters.map (fun q => (q.cluster, q.choice)))) = [(1, 1)] ∧
    seen (exec (.preemptRequest (requestBytes 1 4000)) live) [] (fun t => t.preempts.flatMap (fun p => p.clusters.map (fun q => (q.choice, q.est)))) = [(0, 3000)] ∧
    seen (exec (.preemptRequest (requestBytes 2 1000)) live) [] (fun t => readBytes t.mem 0x110000 4) = [0xFF, 0xFF, 0xFF, 0xFF] ∧
    seen (exec (.preemptDiscard 3 5) (vacating' 2)) (9, 9) (fun t => ((residentBlocks (getCore t 5)).length, t.saved.length)) = (0, 0) ∧
    seen (exec (.preemptClusterDone 3 1) { vacating' 0 with cores := [] }) ([], [(3, 3)]) (fun t => (readBytes t.mem 0x110C00 4, t.preempts.map (fun p => (p.id, p.d)))) = ([1, 0, 0, 0], []) := by
  decide +kernel

/-- Function 2 of tenant 1. -/
def functioned (x : Fctl) (s : State) : State := { s with hub := { s.hub with fctl := [(2, x)] } }

theorem witness_tenant_functions :
    (getFctl (functioned { state := 1, tenant := 1 } tenanted) 2).state = 1 ∧
    (∀ l ∈ (functioned { state := 1, tenant := 1 } tenanted).launches, l.tenant ≠ 1) ∧ queuesOf tenanted 1 = [] ∧
    (getFctl (functioned { state := 3, tenant := 1 } tenanted) 2).state = 3 ∧
    tenantDrained (functioned { state := 3, tenant := 1 } tenanted) 1 = true ∧
    tenantDrained (functioned { state := 3, tenant := 1 } (ceding tenanted 0 4)) 1 = false := by decide +kernel

theorem test_tenant_functions :
    seen (exec (.functionPause 2) (functioned { tenant := 1 } tenanted)) (false, 0) (fun t => ((getFctl t 2).pause, (getFctl t 2).state)) = (true, 1) ∧
    seen (exec (.functionPaused 2) (functioned { state := 1, tenant := 1 } tenanted)) 9 (fun t => (getFctl t 2).state) = 2 ∧
    seen (exec (.functionLevelReset 2) (functioned { tenant := 1 } tenanted)) 9 (fun t => (getFctl t 2).state) = 3 ∧
    seen (exec (.flrDrained 2) (functioned { state := 3, tenant := 1, flr := true } tenanted)) (9, 9, 9)
      (fun t => ((getFctl t 2).state, (getCore t 5).groups.length, frameTagOf t 5)) = (0, 0, 1) := by decide +kernel

theorem witness_host_interface :
    (isDram 0x50000 = true ∧ poisoned tenanted 0x50000 4 = false) ∧ (allDram 0x50000 3 = true ∧ allDram 0x8000000000 4 = false) ∧
    (tagOf tenanted 0 4 = some 1 ∧ tagOf tenanted 0 6 = some 0) ∧
    (getQp { State.reset with hub := { State.reset.hub with qps := [(1, { v := true, state := 1, peerMod := 7 })] } } 1).peerMod = 7 := by decide +kernel

theorem test_host_interface :
    seen (exec (.registerWrite 0x8000C00000 (BitVec.ofNat 64 (1 * 2 ^ 48 + 6))) tenanted) none (fun t => tagOf t 0 6) = some 1 ∧
    seen (exec (.registerWrite 0x8000143050 0x50000) tenanted) 0 (fun t => (getQueue t 3).rbase) = 0x50000 ∧
    seen (exec (.hostHartAccess 0 ⟨true, false⟩ 0x50000 2 [7, 8]) tenanted) [] (fun t => readBytes t.mem 0x50000 3) = [7, 8, 0] ∧
    seen (exec (.msiUnmask 2) { tenanted with hub := { tenanted.hub with msi := [(2, { addr := 0x8020001000, data := 5, mask := true, pend := true })] } })
      ([], false) (fun t => (t.hub.msiSent, mget false t.hub.imsic (256 + 5))) = ([(0x8020001000, 5)], true) := by decide +kernel

/-- A start of a state, cold or warm. -/
def starting (cold : Bool) (s : State) : State := { s with hub := { s.hub with starting := some cold, held := true } }

theorem witness_starts :
    (tenanted.hub.wdctl.getLsbD 31 = false) ∧ ((0x800003E8 : Word).extractLsb' 0 16 ≠ 0 ∧ (0x800003E8 : Word).getLsbD 31 = true) ∧
    (starting true tenanted).hub.starting = some true ∧ (starting false tenanted).hub.starting = some false ∧
    mwf {} (starting false tenanted).queues = true ∧ mwf {} (starting false tenanted).cores = true ∧ (starting false tenanted).fenced = [] := by
  decide +kernel

theorem test_starts :
    seen (exec (.watchdogControl 0x800003E8) tenanted) 0 (fun t => t.hub.wdleft) = 0x3E8 ∧
    seen (exec (.coldStart 0) (starting true tenanted)) (1, 9, 9) (fun t => (frameTagOf t 5, t.hub.jhead.toNat, t.tenants.length)) = (0, 1, 0) ∧
    seen (exec (.warmStart 0 0) (starting false { tenanted with mem := [(0x70000, 9)] })) (0, 0, [])
      (fun t => (frameTagOf t 5, (getCore t 4).tid, readBytes t.mem 0x70000 1)) = (1, 1, [9]) ∧
    seen (exec (.warmStart 4 0) (starting false tenanted)) 0 (fun t => t.hub.failedWarm) = 1 := by decide +kernel

/-- Tracker 0 of tenant 1 with buffers at frames 32, 48 and 64, and queue pair 2 of the tenant. -/
def tracking (s : State) : State :=
  { s with hub := { s.hub with
      trackers := [(0, { en := true, tenant := 1, buf0 := 0x200000, buf1 := 0x300000, roll := 0x400000 })]
      qps := [(2, { v := true, state := 1, tenant := 1, peerMod := 7 })] } }
def command : CkCmd := { tracker := 0, qp := 2, status := 0x100000 }

theorem witness_checkpoints :
    (let s := tracking tenanted
     Memory.wf s.mem = true ∧ (getTracker s 0).buf0 + bufferLen ≤ (getTracker s 0).roll ∧
     (∀ p ∈ s.hub.trackers, p.2.en = true → ∀ fr ∈ (List.range 13).map (64 + ·), p.2.tenant ≠ frameTagOf s fr) ∧
     (getTracker s command.tracker).en = true ∧ (getQp s command.qp).state = 1 ∧ (getQp s command.qp).tenant = 1 ∧
     statusOk s command.status 272 = true ∧ s.hub.ckops = [] ∧ s.preempts = []) ∧
    (let o : CkOp := { id := 4, op := 2, tracker := 0, qp := 2, status := 0x100000, tenant := 1 }
     let s := setHub (tracking { tenanted with cores := [] }) (fun h => { h with ckops := [o] })
     s.hub.ckops.find? (fun o => o.id == 4) = some o ∧ finalDrained s 1 = true ∧ tenantDrained s 1 = true ∧ s.poison = []) := by decide +kernel

theorem test_checkpoints :
    seen (exec (.dirtySwap 0) (tracking { tenanted with mem := [(0x200002, 0x30), (0x400002, 1)] })) (false, [])
      (fun t => ((getTracker t 0).cur, readBytes t.mem 0x400002 1)) = (true, [0x31]) ∧
    seen (exec (.ckAbort command) (tracking tenanted)) [] (fun t => t.hub.ckops.map (·.op)) = [3] ∧
    seen (exec (.ckFinal { command with qp := 3 }) (tracking tenanted)) [] (fun t => readBytes t.mem 0x100000 4) = [5, 0, 0, 0xC0] ∧
    seen (exec (.ckcmdInvalid 9 command) (tracking tenanted)) [] (fun t => readBytes t.mem 0x100000 4) = [0xFF, 0xFF, 0xFF, 0xFF] := by
  decide +kernel

/-- A receiver of two frames of staging and an image of four frames, one of them the context area, fed by pair 2. -/
def receiving (en : Bool) (s : State) : State :=
  { s with hub := { s.hub with receivers := [(1, { en := en, qp := 2, sbase := 0x800000, ssize := 2, ibase := 0x900000, isize := 4, csize := 1 })]
                               qps := [(2, { v := true, state := 1, tenant := 1, peerMod := 7 })] } }

/-- The commit of that receiver has begun. -/
def applied (s : State) : State := setRecv s 1 { getRecv s 1 with applying := some (1, 7) }

theorem witness_receivers :
    recvOk (receiving false State.reset) 1 { getRecv (receiving false State.reset) 1 with qp := 2 } = true ∧
    recvOk (receiving false State.reset) 1 { getRecv (receiving false State.reset) 1 with qp := 3 } = false ∧
    (getRecv (receiving true State.reset) 1).en = true ∧
    (contextArea 1 7 [] []).length ≤ 65536 * (getRecv (receiving true State.reset) 1).csize ∧
    (applyFrames (getRecv (receiving true State.reset) 1) (receiving true State.reset) []).isSome = true ∧
    slotFor (receiving true State.reset) (getRecv (receiving true State.reset) 1) 77 = some 0 := by decide +kernel

theorem test_receivers :
    seen (exec (.receiverEnable 1 2) (receiving false State.reset)) false (fun t => (getRecv t 1).en) = true ∧
    seen (exec (.stageRecord 1 0 77 1 [5, 6]) (receiving true State.reset)) (0, []) (fun t => ((getRecv t 1).sused, readBytes t.mem 0x800010 2)) = (256, [5, 6]) ∧
    seen (exec (.commitApply 1 1 7) (applied (receiving true State.reset))) 0 (fun t => (getRecv t 1).ilast) = 7 ∧
    seen (exec (.commitApply 1 1 7) (applied (setRecv (receiving true State.reset) 1 { getRecv (receiving true State.reset) 1 with staged := [⟨0, 77, 1, [9, 8]⟩] })))
      ([], []) (fun t => (readBytes t.mem 0x900000 8, readBytes t.mem 0x910000 2)) = ([77, 0, 0, 0, 0, 0, 0, 0x80], [9, 8]) := by decide +kernel

theorem witness_management :
    State.reset.mgmt.cmd = none ∧ State.reset.hub.starting = none ∧ (starting true State.reset).hub.starting ≠ none ∧
    bufferOk State.reset 0x100000 32 = true ∧ bufferOk State.reset 0x100001 32 = false ∧ State.reset.mgmt.xleft ≠ 0 ∧
    (limitValue 3 800 < criticalOf 3 ∧ ¬ limitValue 3 1760 < criticalOf 3) ∧
    warningOf State.reset.mgmt 3 < reading [0, 0, 0, 1600] [] 3 ∧ ¬ criticalOf 3 < reading [0, 0, 0, 1600] [] 3 ∧
    criticalOf 3 < reading [0, 0, 0, 1761] [] 3 ∧ released State.reset.mgmt 3 (reading [0, 0, 0, 1488] [] 3) = true ∧
    released State.reset.mgmt 3 (reading [0, 0, 0, 1489] [] 3) = false := by decide +kernel

theorem test_management :
    seen (exec (.mgConfig 5 true) State.reset) none (fun t => t.mgmt.cmd) = some ⟨6, 0⟩ ∧
    seen (exec (.mgConfig 576 true) State.reset) none (fun t => t.mgmt.cmd) = some ⟨6, 1⟩ ∧
    seen (exec .mgActivate { State.reset with mgmt := { cmd := some ⟨6, 0⟩ } }) 0 (fun t => t.mgmt.drop) = 1 ∧
    seen (exec (.mgLogrd 0x100000 0 1025) State.reset) none (fun t => t.mgmt.cmd) = some ⟨1, 1⟩ ∧
    seen (exec (.mgLimit 3 800) State.reset) 0 (fun t => warningOf t.mgmt 3) = 800 ∧
    seen (exec .mgmtCommandDone { State.reset with mgmt := { cmd := some ⟨6, 1⟩ } }) (0, false) (fun t => (t.mgmt.code, t.mgmt.err)) = (1, true) := by
  decide +kernel

theorem witness_frames :
    mwf {} (getCore small 0).groups = true ∧
    ([{ slot := 0, active := 1, exec := 1 }, { slot := 3, active := 1, exec := 1 }].map (fun (m : Member) => m.slot)).Nodup := by decide +kernel

theorem witness_leave_memory : isEvent (.iadd laneF) = false ∧ seen (exec (.iadd laneF) small) 1 (fun t => t.mem.length) = 0 := by decide +kernel

theorem witness_stays_canonical : MemoryCanonical { State.reset with agenda := [.event (.portsDown 3)] } ∧
    ∃ t, step { State.reset with agenda := [.event (.portsDown 3)] } = .next t :=
  ⟨by unfold MemoryCanonical; decide +kernel, ⟨_, rfl⟩⟩

/-! ### Further clauses of the statements, each met by a state -/

/-- Operands of the floating-point clauses: a number, one that overflows a rounding, one below the smallest normal value, an
infinity and a signalling NaN; codes of the formats that CVT names. -/
theorem witness_float_values :
    f32 0x3F800000 = .num false 8388608 (-23) ∧ f32 0xBF800000 = .num true 8388608 (-23) ∧ isZero (f32 0x80000000) = true ∧
    isInf (f32 0xFF800000) = true ∧ isSig (f32 0x7F800001) = true ∧ (2 ≤ ([1, 2] : List Word).length) ∧
    ((fdecode (fmtOf 1) 0x3C00) = .num false 1024 (-10) ∧ fdecode (fmtOf 2) 0x7F80 = .inf false ∧ isNan (fdecode (fmtOf 3) 0x80) = true ∧
      (1 : Nat) < 14 ∧ (13 : Nat) < 14 ∧ intVal (intDecode 6 0xFFFFFFFF) = .num true 1 0) := by decide +kernel

/-- 128, -256, 3/2, 1/2, 8, 5/4 and 2^23 + 1. -/
theorem witness_approximation_ranges :
    f32 0x43000000 = .num false (2 ^ 23) (-16) ∧ f32 0xC3800000 = .num true (2 ^ 23) (-15) ∧ f32 0x3FC00000 = .num false (3 * 2 ^ 22) (-23) ∧
    f32 0x3F000000 = .num false (2 ^ 23) (-24) ∧ f32 0x41000000 = .num false (2 ^ 23) (-20) ∧ f32 0x3FA00000 = .num false (5 * 2 ^ 21) (-23) ∧
    f32 0x4B000001 = .num false (2 ^ 23 + 1) 0 := by decide +kernel

/-- A group whose lanes stand at two addresses, one that is to go on at the second, and the handler's own last lanes. -/
def diverged : State := updGroup small 0 0 (fun g => { g with
  frontier := [{ pc := 0x10000, mask := 3 }, { pc := 0x10010, mask := 4 }] })

theorem witness_exit_forms :
    (let e : Entry := { pc := 0x10000, mask := 3 }
     Ready 0x186 laneF (aloneIn diverged e 0x186) ∧ e.mask &&& ~~~(execMask diverged 0 0 laneF e.mask) = 0 ∧
     ((getGroup diverged 0 0).frontier.erase e) = [] ++ { pc := 0x10010, mask := 4 } :: [] ∧ nextPc e.pc laneF = 0x10010 ∧
     e.mask &&& ~~~(execMask diverged 0 0 { laneF with p := 8 } e.mask) ≠ 0 ∧ Ready 0x186 { laneF with p := 8 } (aloneIn diverged e 0x186)) ∧
    Ready 0x186 laneF (aloneIn (handling []) smallEntry 0x186) ∧ ((getGroup (handling []) 0 48).frontier.erase smallEntry) = [] ∧
    (getCore (handling []) 0).curH = some (frameOne 4 []) :=
  ⟨⟨ready_alone (by decide +kernel), by decide +kernel, by decide +kernel, by decide +kernel, by decide +kernel,
    ready_alone (by decide +kernel)⟩, ready_alone (by decide +kernel), by decide +kernel, by decide +kernel⟩

/-- A regrouping of groups with a struck register below n that moves, with one that does not, and with too few registers. -/
theorem witness_regroup_ends :
    (let k := (getCore regrouping 0).withGroup 0 { (getGroup regrouping 0 0) with bad := [3 * 64 + 5] }
     (findRegroup k 0 0).any (fun o => regroupStruck k o [0] == some (0, 5) && regroupStruck k o [] == none &&
       regroupStruck (getCore regrouping 0) o [0] == none)) = true ∧
    (findRegroup (getCore regrouping 0) 0 0).any (fun o => !holdOver regrouping 0 o && (o.hold == some 0)) = true ∧
    (findRegroup (getCore { regrouping with dies := [(0, { cycle := 4096 })] } 0) 0 0).any
      (fun o => holdOver { regrouping with dies := [(0, { cycle := 4096 })] } 0 o) = true ∧
    freeUnits { getCore regrouping 0 with alloc := [⟨0, 0, [(0, 65536)]⟩] } < unitsOf 4 64 := by decide +kernel

/-- SHRINK of one of two blocks; a request for registers that is granted, and one that is not; a move of units that waits for a
result and one that does not; GROW where no lane executes. -/
theorem witness_growing_ends :
    (let s := updGroup small 0 0 (fun g => { g with allot := [64, 64] })
     Ready 0x1C6 { groupF with imm := 64 } (joinedIn 0x1C6 { groupF with imm := 64 } s smallEntry) ∧
     1 < (getGroup s 0 0).allot.length ∧ (getGroup s 0 0).allot.getLast? = some 64) ∧
    ((joinedIn 0x1C5 { groupF with imm := 64, p := 20 } small smallEntry).members { groupF with imm := 64, p := 20 }).map (·.exec) = [0] ∧
    Ready 0x1C5 { groupF with imm := 64, p := 20 } (joinedIn 0x1C5 { groupF with imm := 64, p := 20 } small smallEntry) ∧
    (let p : Pend := { id := 9, lanes := 1, regs := [4], cells := [(4 * 64, 7)], due := some 3 }
     ((getCore (updCore (landing p) 0 (fun k => { k with moving := [0] })) 0).group 0).pend.any (fun d => d.inFlight 0) = true) ∧
    (getCore (updCore small 0 (fun k => { k with moving := [0] })) 0).moving = [0] ∧
    (let k := { (getCore small 0).withGroup 0 { smallGroup with running := none, frontier := [{ smallEntry with park := .hold }] } with
       alloc := [⟨0, 0, [(0, 128)]⟩], growq := [⟨0, 64, 4, 1⟩] }
     ((growGroup k 0 64).map (fun k1 => (k1.group 0).frontier)) = some ([] ++ { smallEntry with park := .hold } :: [])) :=
  ⟨⟨ready_joined (by decide +kernel), by decide +kernel, by decide +kernel⟩, by decide +kernel, ready_joined (by decide +kernel),
   by decide +kernel, by decide +kernel, by decide +kernel⟩

/-- FENCE with and without a load outstanding, the five operations of CCTL on a line that L2 has and one that it lacks, and
all three where no lane executes. -/
def cached : State := { memState 0x10040 with l2 := [{ line := 0x500, way := 0, rrpv := 1, secs := 0xF, dirty := 1 }] }

theorem witness_cache_clauses :
    (∀ op ∈ [0x208, 0x209], Ready op { laneF with p := 20 } (aloneIn (memState 0x10040) memEntry op)) ∧
    Ready 0x207 { laneF with p := 20, sub := 2, mod := 1 } (aloneIn (memState 0x10040) memEntry 0x207) ∧
    ¬ (aloneIn (memState 0x10040) memEntry).executes { laneF with p := 20 } ∧
    (∀ sub ∈ [0, 2, 3, 4], Ready 0x208 { laneF with sub := sub } (aloneIn (memState 0x10040) memEntry 0x208)) ∧
    (∀ mod ∈ [1, 2, 3], Ready 0x207 { laneF with sub := 2, mod := mod } (aloneIn (memState 0x10040) memEntry 0x207)) ∧
    ((l2Find cached 0x500).isSome = true ∧ l2Find cached 0x501 = none) ∧
    ((getGroup (memState 0x10040) 0 0).loads.map (·.id) = [] ∧ (getGroup loadOut 0 0).loads.map (·.id) = [3]) ∧
    ({ laneF with mod := 3 } : Fields).mod.getLsbD 0 = true := by
  refine ⟨all_ready (by decide +kernel), ready_alone (by decide +kernel), by unfold Issue.executes; decide +kernel, ?_, ?_, by decide +kernel, by decide +kernel, by decide⟩
  · intro sub h
    simp only [List.mem_cons, List.not_mem_nil, or_false] at h
    rcases h with rfl | rfl | rfl | rfl <;> exact ready_alone (by decide +kernel)
  · intro mod h
    simp only [List.mem_cons, List.not_mem_nil, or_false] at h
    rcases h with rfl | rfl | rfl <;> exact ready_alone (by decide +kernel)

/-- Both halves of a load of 16 bytes, of which the other has its value; an atomic whose bytes an error has struck. -/
def halfRec : LoadRec := { loadRec with lanes := [{ lane := 63, va := 0x10040, addr := 0x50040 },
  { lane := 63, va := 0x10048, addr := 0x50048, half := true, val := some 9 }] }

theorem witness_accesses_struck :
    (halfRec.lanes.Pairwise (fun a b => ¬ (a.lane = b.lane ∧ a.half = b.half)) ∧
     (∀ l ∈ halfRec.lanes, l.lane < 64 ∧ l.addr % 64 + halfRec.piece ≤ 64 ∧ isDram l.addr = true) ∧
     (∀ l ∈ halfRec.lanes, l.val ≠ none ∨ ((1#64 <<< 63).getLsbD l.lane = true ∧ laneReady (getCore loadOut 0) 0 halfRec l = true ∧
       ∀ m ∈ halfRec.lanes, m.lane = l.lane → m.half ≠ l.half → m.val ≠ none))) ∧
    poisoned { loadOut with poison := [(0x50040 / 64, true)] } 0x50040 8 = true ∧
    (struckSpm { loadOut with badSpm := [(16, true)] } 64 4 = true ∧ struckSpm loadOut 64 4 = false) ∧
    ((32 : Nat) = 32 ∧ (0xFFFFFFFF : Nat) < 2 ^ 32) := by decide +kernel

/-- An operation whose tile an error has struck, and one whose tile a store that was handed over has yet to reach. -/
theorem witness_matrix_ends :
    (let m : MxMember := { core := 0, ctx := 0, exec := 0xFF, octets := [0], tiles := [0x100], sas := [0x100], xv := [], handed := [(0, 9)] }
     let o : MxOp := { mxOne true with op := 0x2C1, f := tileF, members := [m] }
     mxStruck { tileState with badSpm := [(0x40, true)] } o m = true ∧ mxStruck tileState o m = false ∧ tilesDue tileState o m = false ∧
     tilesDue (updGroup tileState 0 0 (fun g => { g with storeq :=
       [{ oneItem .st 0 with spm := true, lanes := [⟨0, 0x100, 0x100, 1, 0⟩] }] })) o m = true) := by decide +kernel

/-- A put that still arrives after its queue pair has left READY; a page that does not admit the write. -/
theorem witness_request_cut :
    ({ fetchAdd with op := 0, len := 8, data := List.replicate 8 1, cut := some [0] } : RemoteReq).cut = some [0] ∧
    (rotFind served { fetchAdd with op := 0, len := 8, data := List.replicate 8 1, cut := some [0] } 8).isSome = true ∧
    chunkCuts fetchAdd.addr.toNat 8 = [(0, 8)] ∧ (0 : Nat) ∈ [0] ∧
    (match engineTranslate { served with xlat := [(0, { v := true, page := 1, frame := 5, x := true, w := true, r := true, tag := 2 })] }
      (tenantDie served 1) 1 fetchAdd.addr 2 with | (_, .error _) => true | _ => false) = true := by decide +kernel

/-- WINWR's three registers of a frame's lanes, no lane below the width, an extra value; RQWR's FATE. -/
theorem witness_window_clauses :
    (winItem { laneF with imm := 0x00402017 } = 0x2017 ∧ winItem { laneF with imm := 0x00402019 } = 0x2019 ∧
      winSpace { laneF with imm := 0x00402018 } = 1 ∧ 1 < winSpace { laneF with imm := 0x00800002 }) ∧
    (∀ w ∈ [0x00402017, 0x00402018, 0x00402019, 0x00800002], Ready 0x343 { laneF with imm := w } (aloneIn (handling []) smallEntry 0x343)) ∧
    (rqWord { laneF with imm := 0 } = 0 ∧ 13 < rqWord { laneF with imm := 14 }) ∧ (replayOne 1).kind ≠ 2 ∧
    ((0x08000000 : Word).extractLsb' 26 2).toNat = 2 ∧ ((0x04000000 : Word).extractLsb' 26 2).toNat < 2 := by
  refine ⟨by decide +kernel, ?_, by decide +kernel, by decide, by decide, by decide⟩
  intro w h
  simp only [List.mem_cons, List.not_mem_nil, or_false] at h
  rcases h with rfl | rfl | rfl | rfl <;> exact ready_alone (by decide +kernel)

/-- CEDE, GSTOP and NWAIT where no lane executes; GSTOP of the own group; a poisoned notice page. -/
theorem witness_runtime_clauses :
    (∀ op ∈ [0x34C, 0x34E, 0x34F], Ready op { groupF with p := 20 } (joinedIn op { groupF with p := 20 } small smallEntry)) ∧
    ¬ (joinedIn 0x34C { groupF with p := 20 } small smallEntry).executes { groupF with p := 20 } ∧
    ((getGroup small 0 0).live = true ∧ (getGroup small 0 0).stop = .run) ∧
    poisoned { noticed 3 0 with poison := [(0x52000 / 64, true)] } 0x52000 4 = true := by
  refine ⟨?_, by unfold Issue.executes; decide +kernel, by decide +kernel, by decide +kernel⟩
  intro op h
  simp only [List.mem_cons, List.not_mem_nil, or_false] at h
  rcases h with rfl | rfl | rfl <;> exact ready_joined (by decide +kernel)

/-- A launch whose ending the journal has already, a tenant that an XM has struck, a saved context in which an error stands, a
gang of which a block is still live. -/
theorem witness_block_clauses :
    ({ launched false with inJournal := true } : Launch).inJournal = true ∧
    (launched false).tenant ∈ ({ ending with hub := { ending.hub with struck := [1] } } : State).hub.struck ∧
    savedOne.any (fun v => contextStruck { resuming with poison := [(0, true)] } { v with inMemory := true } && !contextStruck resuming v) = true ∧
    savedOne.any (fun v => mateLive { updCore resumingGang 5 (fun k => { k with blocks := [(0, some ⟨5, 0, 0, 0, 0⟩)] }) with saved := [v] } v &&
      !mateLive resumingGang v) = true := by decide +kernel

/-- A resource that the skidder is to take, held still: its CEDE gets 1. -/
theorem witness_cede_late :
    (let s := noticeOpen { noticeOne with closed := true }
     4 ∈ seizedOf (closeDue (noticeOpen { noticeOne with d := 0 }) 1 0) 1 0 ∧ heldBy s 1 0 4 = true ∧ seizedOf (noticeOpen noticeOne) 1 0 = [] ∧ heldBy tenanted 1 0 6 = false) := by decide +kernel

theorem witness_function_reset :
    (getFctl (functioned { state := 3, tenant := 1, flr := true } tenanted) 2).flr = true ∧
    (getFctl (functioned { state := 1, tenant := 1 } tenanted) 2).flr = false ∧ tenanted.preempts = [] ∧
    tenantDrained (functioned { state := 3, tenant := 1, flr := true } tenanted) 1 = true := by decide +kernel

/-- A window of requester 2 onto frame 5 that admits writes, one onto interrupt file 1; a frame that may be bound now. -/
def windowed : State := { tenanted with hub := { tenanted.hub with windows := [(2, [⟨0x1000, 0x1000, 0x50000, true, true⟩, ⟨0x4000, 0x1000, 0x8020001000, false, true⟩])] } }

theorem witness_inbound :
    dmaTarget windowed 2 0x1FFF 1 true = some 0x50FFF ∧ dmaTarget windowed 2 0x1FFF 2 true = none ∧ dmaTarget windowed 3 0x1000 1 true = none ∧
    dmaTarget windowed 2 0x4000 4 true = some 0x8020001000 ∧ imsicFile 0x8020001000 = some 1 ∧ allDram 0x8020001000 4 = false ∧
    (imsicFile 0x8020000000 = some 0 ∧ imsicFile 0x802008F000 = some 143 ∧ imsicFile 0x8020090000 = none ∧ imsicFile 0 = none) ∧
    hubPageOf 0x8020001000 = .other ∧ tagOf tenanted 2 8 = some 0 ∧ frameQuiet tenanted 8 = true := by decide +kernel

/-- A slot NEXT that holds a verified image, and one that does not; a count that has reached 0. -/
theorem witness_start_clauses :
    (if State.reset.mgmt.next then State.reset.mgmt.okB else State.reset.mgmt.okA) = true ∧
    (let m := { State.reset.mgmt with next := true, okB := false }
     (if m.next then m.okB else m.okA) = false) ∧
    (let h := { State.reset.hub with wdctl := 0x800003E8 }
     h.wdctl.getLsbD 31 = true ∧ h.wdleft = 0) ∧
    (∀ r ∈ (starting false tenanted).hub.receivers, r.2.applying = none) := by decide +kernel

theorem witness_image_clauses :
    (∀ h ∈ (getImage (tracking tenanted) 1).holds, heldBy (tracking tenanted) 1 h.1 h.2 = true) ∧
    localImage (tracking tenanted) 1 = none ∧
    (localImage (setRecv { tracking tenanted with mem := [(0x930000, 1)] } 1 { getRecv (receiving true State.reset) 1 with ilast := 7 }) 1).isSome = true ∧
    (getQp (tracking tenanted) 3).state ≠ 1 ∧ (getRecv (applied (receiving true State.reset)) 1).applying = some (1, 7) ∧
    poisonedIn { State.reset with poison := [(0x100000 / 64, true)] } 0x100000 32 = true := by decide +kernel

end Sys2Proof.Tests
end

section
/-! PROOFS. What reset leaves (O8). -/

namespace Sys2Proof.Proofs
open Sys2Proof Sys2Proof.Machine Sys2Proof.Safety Sys2Proof.Laws

/-- Settles O8: every table is empty after reset, so each read gives the default that the table's element has. -/
theorem resetValues : Obligations.reset_values := by
  unfold Obligations.reset_values
  refine ⟨fun _ => rfl, fun _ => rfl, fun _ _ => rfl, fun _ _ => rfl, fun _ => rfl, fun _ => ⟨rfl, rfl, rfl⟩,
    fun _ _ _ _ => ⟨rfl, rfl, rfl, rfl⟩, fun _ => ⟨rfl, rfl, rfl⟩, fun _ => ⟨rfl, rfl⟩, rfl, rfl, fun _ => rfl⟩

end Sys2Proof.Proofs
end

section
/-! PROOFS. Registers, the predicate, and results in flight and landed (O10). -/

namespace Sys2Proof.Proofs
open Sys2Proof Sys2Proof.Machine Sys2Proof.Safety Sys2Proof.Laws

/-! ### Lanes of a mask -/

theorem mem_lanesOf {m : Mask} {l : Nat} : l ∈ lanesOf m ↔ l < 64 ∧ m.getLsbD l = true := by
  simp [lanesOf]

theorem getLsbD_one_shiftLeft (x : Nat) {l : Nat} (hl : l < 64) : (1#64 <<< x).getLsbD l = decide (l = x) := by
  simp only [BitVec.getLsbD_shiftLeft, BitVec.getLsbD_one]
  by_cases h : l < x
  · simp [h, Nat.ne_of_lt h]
  · have hsub : l - x = 0 ↔ l = x := by omega
    simp [h, hl, hsub]

/-- A mask made of lanes holds those lanes. -/
theorem getLsbD_maskOf (ls : List Nat) {l : Nat} (hl : l < 64) : (maskOf ls).getLsbD l = true ↔ l ∈ ls := by
  have key : ∀ m : Mask, (ls.foldl (fun m l => m ||| (1#64 <<< l)) m).getLsbD l = true ↔ m.getLsbD l = true ∨ l ∈ ls := by
    induction ls with
    | nil => simp
    | cons x xs ih =>
      intro m
      rw [List.foldl_cons, ih, BitVec.getLsbD_or, getLsbD_one_shiftLeft x hl]
      simp [or_assoc]
  simp [maskOf, key]

/-! ### The null register and the predicate (R13, R14, R15) -/

theorem toNat_eq_vnull {r : BitVec 10} : r.toNat = vnull ↔ r = 1023 :=
  ⟨fun h => BitVec.eq_of_toNat_eq h, fun h => by rw [h]; rfl⟩

@[simp] theorem readReg_null (s : State) (c x field l : Nat) : readReg s c x field 1023 l = 0 := rfl
@[simp] theorem readRun_null (s : State) (c x field k l : Nat) : readRun s c x field 1023 k l = 0 := rfl
@[simp] theorem readPair_null (s : State) (c x field l : Nat) : readPair s c x field 1023 l = 0 := by
  simp only [readPair, readRun_null]; decide

/-- The lanes that execute are those of the mask whose predicate holds. -/
theorem getLsbD_execMask (s : State) (c x : Nat) (f : Fields) (m : Mask) {l : Nat} (hl : l < 64) :
    (execMask s c x f m).getLsbD l = (m.getLsbD l && predHolds s c x f l) := by
  unfold execMask
  split
  case isTrue hp => simp [predHolds, hp]
  case isFalse hp => rw [Bool.eq_iff_iff, getLsbD_maskOf _ hl, List.mem_filter, mem_lanesOf, Bool.and_eq_true]; simp [hl]

theorem predHolds_eq (s : State) (c x : Nat) (f : Fields) (l : Nat) : predHolds s c x f l =
    (f.p == 1023 || (if f.pn then readReg s c x fldP f.p l == 0 else readReg s c x fldP f.p l != 0)) := by
  unfold predHolds
  by_cases hp : f.p = 1023
  · simp [hp, vnull]
  · rw [if_neg (mt toNat_eq_vnull.mp hp), beq_false_of_ne hp, Bool.false_or]
    cases f.pn <;> simp [bne]

/-! ### Results go into flight (R68, R89) -/

/-- A key that a table lists with one value alone has that value. -/
theorem mget_of_unique {α : Type} (d : α) {m : SMap α} {k : Nat} {v : α} (hv : (k, v) ∈ m)
    (hu : ∀ w, (k, w) ∈ m → w = v) : mget d m k = v := by
  induction m with
  | nil => cases hv
  | cons q t ih =>
    obtain ⟨i, w⟩ := q
    unfold mget
    split
    case isTrue hik => exact hu w (hik ▸ List.mem_cons_self)
    case isFalse hik =>
      have hvt : (k, v) ∈ t := by simpa [Ne.symm hik] using hv
      exact ih hvt fun w hw => hu w (List.mem_cons_of_mem _ hw)

/-- The cells of a member's results: of each executing lane, the words of that lane. -/
theorem mem_resultPend_cells (s : State) (c : Nat) {f : Fields} (m : Member) (id : Nat) (lat : Option Nat) (n : Nat)
    (val : Nat → List Word) (hd : f.d ≠ 1023) {q : Nat × Word} : q ∈ (resultPend s c f m id lat n val).cells ↔
      ∃ k l, k < n ∧ l ∈ lanesOf m.exec ∧ q = (cellKey (f.d.toNat + k) l, (val l).getD k 0) := by
  have hd' : f.d.toNat ≠ vnull := mt toNat_eq_vnull.mp hd
  simp only [resultPend, if_neg hd', List.mem_flatMap, List.mem_map, List.mem_range]
  grind

theorem destRegs_of_ne {d : BitVec 10} (hd : d ≠ 1023) (n : Nat) : destRegs d n = (List.range n).map (d.toNat + ·) :=
  if_neg (mt toNat_eq_vnull.mp hd)

/-- The new result stands among those in flight after a race with them, which changes only what it skips (R69). -/
theorem mem_racePends (s : State) (x t : Nat) (ps : List Pend) : ∀ new : Pend,
    ∃ skip, { new with skip := skip } ∈ racePends s x t ps new := by
  induction ps with
  | nil => exact fun new => ⟨new.skip, by simp [racePends]⟩
  | cons p ps ih =>
    intro new
    have hnew : ∃ skip, (raceSkip s x t p new).2 = { new with skip := skip } := by
      unfold raceSkip
      split
      · exact ⟨new.skip, rfl⟩
      · exact ⟨_, rfl⟩
    obtain ⟨skip, hskip⟩ := hnew
    obtain ⟨skip', hmem⟩ := ih { new with skip := skip }
    exact ⟨skip', by rw [racePends, hskip]; exact List.mem_cons_of_mem _ hmem⟩

/-- The cells of a result as a group keeps them: open where a pending matrix instruction uses the register (R183). -/
def keptCells (s : State) (c x : Nat) (p : Pend) : SMap Word :=
  p.cells.map (fun q => (q.1, keptValue s c x (q.1 / 64) (q.1 % 64) q.2))

/-- A result that goes into flight stands in its group with the cells that the group keeps. -/
theorem mem_pend_postPend (s : State) (c x : Nat) (p : Pend) :
    ∃ skip, { p with cells := keptCells s c x p, skip := skip } ∈ (getGroup (postPend s c x p) c x).pend := by
  unfold postPend
  rw [getGroup_updGroup_same]
  exact mem_racePends ..

/-- The results of one member alone. -/
theorem postResults_singleton (s : State) (c : Nat) (f : Fields) (m : Member) (lat : Option Nat) (n : Nat)
    (val : State → Nat → Nat → List Word) : postResults s c f [m] lat n val =
      if m.exec = 0 ∨ f.d = 1023 then s
      else postPend { s with serial := s.serial + 1 } c m.slot
        { resultPend s c f m s.serial lat n (val s m.slot) with share := s.serial } := by
  simp only [postResults, List.foldl_cons, List.foldl_nil, Bool.or_eq_true, decide_eq_true_eq, beq_iff_eq, toNat_eq_vnull]

theorem postResults_null (s : State) (c : Nat) (f : Fields) (ms : Members) (lat : Option Nat) (n : Nat)
    (val : State → Nat → Nat → List Word) (hd : f.d = 1023) : postResults s c f ms lat n val = s := by
  have hnull : (f.d.toNat == vnull) = true := by simp [hd, vnull]
  simp only [postResults, hnull, Bool.or_true, if_true]
  induction ms with
  | nil => rfl
  | cons m ms ih => exact ih

/-- Each executing lane of the member has in the result's cells the words of that lane, as the group keeps them. -/
theorem mget_keptCells_resultPend {s : State} {c : Nat} {f : Fields} {m : Member} {id share : Nat} {lat : Option Nat} {n : Nat}
    {val : Nat → List Word} (hd : f.d ≠ 1023) {k l : Nat} (hl : l < 64) (he : m.exec.getLsbD l = true) (hk : k < n) :
    mget 0 (keptCells s c m.slot { resultPend s c f m id lat n val with share := share }) (cellKey (f.d.toNat + k) l) =
      keptValue s c m.slot (f.d.toNat + k) l ((val l).getD k 0) := by
  have hkept : ∀ r l v, l < 64 → keptValue s c m.slot (cellKey r l / 64) (cellKey r l % 64) v = keptValue s c m.slot r l v := by
    intro r l v hl
    rw [show cellKey r l / 64 = r by unfold cellKey; omega, show cellKey r l % 64 = l by unfold cellKey; omega]
  apply mget_of_unique
  · rw [← hkept _ _ _ hl]
    exact List.mem_map_of_mem (f := fun q => (q.1, keptValue s c m.slot (q.1 / 64) (q.1 % 64) q.2))
      ((mem_resultPend_cells s c m id lat n val hd).mpr ⟨k, l, hk, mem_lanesOf.mpr ⟨hl, he⟩, rfl⟩)
  · intro w hw
    obtain ⟨q, hq, heq⟩ := List.mem_map.mp hw
    obtain ⟨k', l', -, hl', rfl⟩ := (mem_resultPend_cells s c m id lat n val hd).mp hq
    have hl64 := (mem_lanesOf.mp hl').1
    obtain ⟨hkey, rfl⟩ := Prod.mk.inj heq
    obtain ⟨hr, rfl⟩ := (cellKey_inj hl64 hl).mp hkey
    rw [hkept _ _ _ hl64, Nat.add_left_cancel hr]

/-! ### A result lands (R27, R68, R69) -/

/-- One cell of a result that lands. -/
def landCell (skip : List Nat) (g : Group) (q : Nat × Word) : Group := if skip.contains q.1 then g else putCell g q.1 q.2

theorem landCells_eq (g : Group) (p : Pend) : landCells g p = p.cells.foldl (landCell p.skip) (clearLatch g p.regs) := rfl

theorem regAt_putCell (g : Group) (key : Nat) (v : Word) (r l : Nat) :
    regAt (putCell g key v) r l = if cellKey r l = key then v else regAt g r l := mget_mset 0 g.regs _ _ v

/-- Cells that land change registers and marks of struck cells alone. -/
theorem foldl_landCell_eq (skip : List Nat) (cells : List (Nat × Word)) : ∀ g : Group, ∃ regs bad,
    cells.foldl (landCell skip) g = { g with regs := regs, bad := bad } := by
  induction cells with
  | nil => exact fun g => ⟨g.regs, g.bad, rfl⟩
  | cons q cells ih =>
    intro g
    obtain ⟨regs, bad, h⟩ := ih (landCell skip g q)
    refine ⟨regs, bad, ?_⟩
    rw [List.foldl_cons, h]
    unfold landCell
    split <;> rfl

/-- A register of a lane after cells have landed: as it was where none of them is for it, else the value of one of them. -/
theorem regAt_foldl_landCell (skip : List Nat) (r l : Nat) (cells : List (Nat × Word)) : ∀ g : Group,
    regAt (cells.foldl (landCell skip) g) r l = regAt g r l ∧ (cellKey r l ∈ skip ∨ ∀ v, (cellKey r l, v) ∉ cells) ∨
    (cellKey r l, regAt (cells.foldl (landCell skip) g) r l) ∈ cells ∧ cellKey r l ∉ skip := by
  induction cells with
  | nil => exact fun g => .inl ⟨rfl, .inr (by simp)⟩
  | cons q cells ih =>
    intro g
    obtain ⟨key, v⟩ := q
    have hcell : regAt (landCell skip g (key, v)) r l = if cellKey r l = key ∧ key ∉ skip then v else regAt g r l := by
      by_cases h : key ∈ skip <;> simp [landCell, regAt_putCell, h]
    rw [List.foldl_cons]
    rcases ih (landCell skip g (key, v)) with ⟨hsame, hno⟩ | ⟨hmem, hskip⟩
    · rw [hsame, hcell]
      split
      case isTrue h => obtain ⟨rfl, hs⟩ := h; exact .inr ⟨List.mem_cons_self, hs⟩
      case isFalse h =>
        refine .inl ⟨rfl, ?_⟩
        simp only [List.mem_cons, Prod.mk.injEq, not_or, not_and]
        grind
    · exact .inr ⟨List.mem_cons_of_mem _ hmem, hskip⟩

theorem landPend_fields (g : Group) (p : Pend) :
    (landPend g p).fpflags = g.fpflags ||| p.exc.setWidth 32 ∧ (landPend g p).pend = g.pend.filter (fun q => q.id != p.id) := by
  unfold landPend
  rw [landCells_eq]
  obtain ⟨regs, bad, h⟩ := foldl_landCell_eq p.skip p.cells
    (clearLatch { g with pend := g.pend.filter (fun q => q.id != p.id) } p.regs)
  rw [h]
  exact ⟨rfl, rfl⟩

/-- A register of a lane after a result has landed: as it was where the result has no cell for it that it wins, else the value
of one of its cells. -/
theorem regAt_landPend (g : Group) (p : Pend) (r l : Nat) :
    regAt (landPend g p) r l = regAt g r l ∧ (cellKey r l ∈ p.skip ∨ ∀ v, (cellKey r l, v) ∉ p.cells) ∨
    (cellKey r l, regAt (landPend g p) r l) ∈ p.cells ∧ cellKey r l ∉ p.skip :=
  regAt_foldl_landCell p.skip r l p.cells (clearLatch { g with pend := g.pend.filter (fun q => q.id != p.id) } p.regs)

/-! ### O10 -/

/-- Settles O10: reads of the null register reduce to zero; a member's results are one `postPend`, whose cells are read back by
the distinct keys of registers and lanes; what lands is followed by induction over the cells of the result. -/
theorem registersAndResults : Obligations.registers_and_results := by
  unfold Obligations.registers_and_results
  refine ⟨⟨fun s c x field l => ⟨readReg_null .., readPair_null ..⟩, postResults_null, fun s c x f m l hl => ?_⟩,
    fun s c f m lat n val => ⟨fun hd he => ?_, fun h => ?_⟩,
    fun g p r l => ⟨(landPend_fields g p).1, fun hs hv => ?_, fun h => ?_, ?_⟩⟩
  · rw [getLsbD_execMask s c x f m hl, predHolds_eq]
  · rw [postResults_singleton, if_neg (not_or.mpr ⟨he, hd⟩)]
    obtain ⟨skip, hmem⟩ := mem_pend_postPend { s with serial := s.serial + 1 } c m.slot
      { resultPend s c f m s.serial lat n (val s m.slot) with share := s.serial }
    exact ⟨_, hmem, rfl, rfl, destRegs_of_ne hd n, rfl, rfl, rfl, fun l k hl hle hk => mget_keptCells_resultPend hd hl hle hk⟩
  · rw [postResults_singleton, if_pos h.symm]
  · rcases regAt_landPend g p r l with ⟨-, hno⟩ | ⟨hmem, -⟩
    · obtain ⟨v, hv⟩ := hv
      exact absurd hv (hno.resolve_left hs v)
    · exact hmem
  · rcases regAt_landPend g p r l with ⟨hsame, -⟩ | ⟨hmem, hs⟩
    · exact hsame
    · exact absurd hmem (h.resolve_right hs _)
  · intro q hq
    rw [(landPend_fields g p).2] at hq
    simpa using hq

end Sys2Proof.Proofs
end

section
/-! PROOFS. Control registers (O44): a state in which a clause fails. -/

namespace Sys2Proof.Proofs
open Sys2Proof Sys2Proof.Machine Sys2Proof.Safety Sys2Proof.Laws

/-! ### A table of cores that lists one core twice -/

/-- A CSRWR of t.notice that awaits its unit: EN and the page at 0x1_2000. -/
def noticeWrite : CsrPend := ⟨0, 0x2002, 0x12001, 0x10000, .lane⟩

/-- Core 0 holds a write of t.notice for tenant 0, whose page 1 is frame 5. Core 5 is listed twice, first with the reset value,
which is the one that a read of the table gives, then bound to tenant 1 with EN in t.notice of group 7. -/
def coreListedTwice : State :=
  { State.reset with
    cores := [(0, { csrPend := [noticeWrite] }), (5, {}),
      (5, { fTenant := 0x80000001, groups := [(7, { notice := 1 })] })]
    xlat := [(0, { v := true, page := 1, frame := 5, w := true })] }

/-- Bit 0, EN, of t.notice of a group after an outcome; false where there is no next state. -/
def enAfter (r : Host.Outcome State Fault Refusal) (c x : Nat) : Bool :=
  match r with
  | .next t => (getGroup t c x).notice.getLsbD 0
  | _ => false

theorem coreListedTwice_holds_noticeWrite : findCsr (getCore coreListedTwice 0) 0 0x2002 = some noticeWrite := by decide +kernel

theorem coreListedTwice_page_translates :
    checkGlobal coreListedTwice 0 0 1 2 (noticeWrite.value &&& ~~~(0xFFF : Dword)) =
      ((checkGlobal coreListedTwice 0 0 1 2 (noticeWrite.value &&& ~~~(0xFFF : Dword))).1, .pa 0x52000) := by decide +kernel

/-- EN of group 7 is seen on core 5 once the reset value before it has gone from the table. -/
theorem enAfter_coreListedTwice : enAfter (exec (.tNoticeWrite 0 0) coreListedTwice) 5 7 = true := by decide +kernel

/-- Refutes O44, in the clause that a write of t.notice takes EN from every other group of the tenant: it is stated of every
state, and with a table of cores that lists core 5 twice it fails. The first entry, the reset value, is the one that reads
find, of tenant 0; `clearNotices` drops it from the table as a default, and reads then find the second entry, of tenant 1, whose
group 7 has kept EN. -/
theorem not_controlRegisters : ¬ Obligations.control_registers := by
  unfold Obligations.control_registers
  rintro ⟨-, hnotice, -, -⟩
  obtain ⟨t, hexec, -, -, -, -, -, -, hothers⟩ :=
    hnotice coreListedTwice _ 0 0 0x52000 noticeWrite coreListedTwice_holds_noticeWrite coreListedTwice_page_translates
  have hclear : (getGroup t 5 7).notice.getLsbD 0 = false := hothers 5 7 (by decide) (by decide +kernel)
  have hseen := enAfter_coreListedTwice
  rw [hexec, enAfter, hclear] at hseen
  exact absurd hseen (by decide)

end Sys2Proof.Proofs
end

section
/-! PROOFS. Rounding to a format (R43, R44, R46): the magnitudes of codes, the integer and the code that a mode takes, overflow and
tininess, for every IEEE format. -/

namespace Sys2Proof.Proofs
open Sys2Proof Sys2Proof.Machine Sys2Proof.Safety Sys2Proof.Laws

/-! ### Magnitudes that codes of a format stand for (R36 to R40) -/

/-- The magnitude of a code without sign, for every number: past the finite codes the exponents go on. -/
noncomputable def magOf (f : Fmt) (c : Nat) : ℝ :=
  if c / 2 ^ f.fw = 0 then (c : ℝ) * (2 : ℝ) ^ (1 - (f.bias : Int) - f.fw)
  else ((2 ^ f.fw + c % 2 ^ f.fw : Nat) : ℝ) * (2 : ℝ) ^ (((c / 2 ^ f.fw : Nat) : Int) - f.bias - f.fw)

/-- A code as an exponent step and a significand of at most fw + 1 bits: from one code to the next the significand grows by
1. -/
theorem exists_significand (f : Fmt) (c : Nat) : ∃ E r, c = E * 2 ^ f.fw + r ∧ r < 2 ^ (f.fw + 1) ∧ (E = 0 ∨ 2 ^ f.fw ≤ r) := by
  have hpos : 0 < 2 ^ f.fw := Nat.two_pow_pos _
  have hlt := Nat.mod_lt c hpos
  have hdiv := Nat.div_add_mod c (2 ^ f.fw)
  rcases Nat.eq_zero_or_pos (c / 2 ^ f.fw) with h0 | h1
  · exact ⟨0, c, by simp, by rw [h0] at hdiv; omega, .inl rfl⟩
  · obtain ⟨E, hE⟩ : ∃ E, c / 2 ^ f.fw = E + 1 := ⟨_, (Nat.succ_pred_eq_of_pos h1).symm⟩
    refine ⟨E, 2 ^ f.fw + c % 2 ^ f.fw, ?_, by omega, .inr (by omega)⟩
    rw [hE, Nat.mul_comm, Nat.add_one_mul] at hdiv
    omega

theorem magOf_significand (f : Fmt) {E r : Nat} (hr : r ≤ 2 ^ (f.fw + 1)) (hE : E = 0 ∨ 2 ^ f.fw ≤ r) :
    magOf f (E * 2 ^ f.fw + r) = r * (2 : ℝ) ^ ((E : Int) + 1 - f.bias - f.fw) := by
  have hpos : 0 < 2 ^ f.fw := Nat.two_pow_pos _
  rw [pow_succ] at hr
  rcases Nat.lt_or_ge r (2 ^ f.fw) with hlow | hhigh
  · obtain rfl : E = 0 := by omega
    simp [magOf, Nat.div_eq_of_lt hlow]
  obtain ⟨r', rfl⟩ := Nat.exists_eq_add_of_le hhigh
  have hsum : E * 2 ^ f.fw + (2 ^ f.fw + r') = r' + 2 ^ f.fw * (E + 1) := by ring
  rcases Nat.lt_or_ge r' (2 ^ f.fw) with hlt | hge
  · have hq : (E * 2 ^ f.fw + (2 ^ f.fw + r')) / 2 ^ f.fw = E + 1 := by
      rw [hsum, Nat.add_mul_div_left _ _ hpos, Nat.div_eq_of_lt hlt, Nat.zero_add]
    have hm : (E * 2 ^ f.fw + (2 ^ f.fw + r')) % 2 ^ f.fw = r' := by
      rw [hsum, Nat.add_mul_mod_self_left, Nat.mod_eq_of_lt hlt]
    rw [magOf, hq, hm, if_neg (by omega)]
    push_cast; ring_nf
  · obtain rfl : r' = 2 ^ f.fw := by omega
    have hsum' : E * 2 ^ f.fw + (2 ^ f.fw + 2 ^ f.fw) = 2 ^ f.fw * (E + 2) := by ring
    rw [magOf, hsum', Nat.mul_div_cancel_left _ hpos, Nat.mul_mod_right, if_neg (by omega)]
    rw [show ((E + 2 : Nat) : Int) - f.bias - f.fw = ((E : Int) + 1 - f.bias - f.fw) + 1 by push_cast; ring,
      zpow_add_one₀ (by norm_num)]
    push_cast; ring

theorem strictMono_magOf (f : Fmt) : StrictMono (magOf f) := by
  refine strictMono_nat_of_lt_succ fun c => ?_
  obtain ⟨E, r, rfl, hr, hE⟩ := exists_significand f c
  rw [Nat.add_assoc, magOf_significand f hr.le hE, magOf_significand f hr (hE.imp_right (Nat.le_succ_of_le))]
  have : (0 : ℝ) < (2 : ℝ) ^ ((E : Int) + 1 - f.bias - f.fw) := by positivity
  push_cast
  nlinarith

@[simp] theorem magOf_zero (f : Fmt) : magOf f 0 = 0 := by simp [magOf]

theorem magOf_nonneg (f : Fmt) (c : Nat) : 0 ≤ magOf f c := by
  rw [← magOf_zero f]; exact (strictMono_magOf f).monotone (Nat.zero_le c)

/-- A format with infinities and NaNs as IEEE 754 has, and at least one fraction bit. -/
structure IsIeee (f : Fmt) : Prop where
  kind : f.kind = .ieee
  fw   : 1 ≤ f.fw
  ew   : 2 ≤ f.ew

theorem isIeee_of_mem {f : Fmt} (h : f ∈ [fF32, fF16, fB16]) : IsIeee f := by
  simp only [List.mem_cons, List.not_mem_nil, or_false] at h
  rcases h with rfl | rfl | rfl <;> exact ⟨rfl, by decide, by decide⟩

theorem isIeee_F32 : IsIeee fF32 := isIeee_of_mem (by simp)

/-- The exponent fields of an IEEE format below that of its infinities. -/
theorem exists_topField {f : Fmt} (hf : IsIeee f) : ∃ T, 2 ^ f.ew = T + 3 ∧ infCode f = (T + 2) * 2 ^ f.fw ∧
    topExpo f = (T : Int) + 1 - f.bias := by
  have h4 : 2 ^ 2 ≤ 2 ^ f.ew := Nat.pow_le_pow_right (by decide) hf.ew
  obtain ⟨T, hT⟩ : ∃ T, 2 ^ f.ew = T + 3 := ⟨2 ^ f.ew - 3, by omega⟩
  refine ⟨T, hT, by simp [infCode, hT], ?_⟩
  have : ((2 : Int) ^ f.ew) = T + 3 := by exact_mod_cast hT
  rw [topExpo, this, hf.kind, if_pos rfl]; ring

theorem maxCode_succ {f : Fmt} (hf : IsIeee f) : maxCode f + 1 = infCode f := by
  obtain ⟨T, -, hinf, -⟩ := exists_topField hf
  have : 0 < infCode f := by rw [hinf]; positivity
  simp only [maxCode, hf.kind]; omega

/-- The code of the largest finite value is odd. -/
theorem maxCode_odd {f : Fmt} (hf : IsIeee f) : maxCode f % 2 = 1 := by
  obtain ⟨T, -, hinf, -⟩ := exists_topField hf
  obtain ⟨n, hn⟩ : ∃ n, f.fw = n + 1 := ⟨f.fw - 1, by have := hf.fw; omega⟩
  have heven : infCode f = 2 * ((T + 2) * 2 ^ n) := by rw [hinf, hn]; ring
  have := maxCode_succ hf
  omega

theorem magOf_infCode {f : Fmt} (hf : IsIeee f) : magOf f (infCode f) = (2 : ℝ) ^ (topExpo f + 1) := by
  obtain ⟨T, -, hinf, htop⟩ := exists_topField hf
  have hcode : infCode f = T * 2 ^ f.fw + 2 ^ (f.fw + 1) := by rw [hinf]; ring
  rw [hcode, magOf_significand f le_rfl (.inr (Nat.pow_le_pow_right (by decide) (by omega))), htop]
  push_cast
  rw [← zpow_natCast, ← zpow_add₀ (by norm_num)]
  push_cast; ring_nf

theorem magOf_maxCode {f : Fmt} (hf : IsIeee f) :
    magOf f (maxCode f) = ((2 : ℝ) ^ (f.fw + 1) - 1) * (2 : ℝ) ^ (topExpo f - f.fw) := by
  obtain ⟨T, -, hinf, htop⟩ := exists_topField hf
  have hpos : 1 ≤ 2 ^ (f.fw + 1) := Nat.one_le_two_pow
  have hpos' : 1 ≤ 2 ^ f.fw := Nat.one_le_two_pow
  have hcode : maxCode f = T * 2 ^ f.fw + (2 ^ (f.fw + 1) - 1) := by
    have := maxCode_succ hf
    rw [hinf] at this
    have : (T + 2) * 2 ^ f.fw = T * 2 ^ f.fw + 2 ^ (f.fw + 1) := by ring
    omega
  rw [hcode, magOf_significand f (Nat.sub_le _ _) (.inr (by rw [pow_succ]; omega)), htop, Nat.cast_sub hpos]
  push_cast; ring_nf

theorem lt_two_pow_of_le_maxCode {f : Fmt} (hf : IsIeee f) {c : Nat} (hc : c ≤ maxCode f) : c < 2 ^ (f.ew + f.fw) := by
  obtain ⟨T, hT, hinf, -⟩ := exists_topField hf
  have hpow : 2 ^ (f.ew + f.fw) = (T + 2) * 2 ^ f.fw + 2 ^ f.fw := by rw [pow_add, hT]; ring
  have hmax := maxCode_succ hf
  have hpos : 0 < 2 ^ f.fw := by positivity
  omega

/-! ### Codes with their signs -/

theorem signCode_lt (f : Fmt) (n : Bool) {c : Nat} (hc : c < 2 ^ (f.ew + f.fw)) :
    (c + signCode f n).testBit (f.ew + f.fw) = n ∧ (c + signCode f n) % 2 ^ (f.ew + f.fw) = c := by
  cases n
  · simp [signCode, Nat.testBit_lt_two_pow hc, Nat.mod_eq_of_lt hc]
  · simp only [signCode, if_true, Nat.add_mod_right, Nat.mod_eq_of_lt hc, and_true]
    rw [Nat.add_comm, Nat.testBit_two_pow_add_eq, Nat.testBit_lt_two_pow hc]; rfl

/-- A number with a sign. -/
def signed (n : Bool) (v : ℝ) : ℝ := if n then -v else v

theorem ratOf_num (n : Bool) (m : Nat) (e : Int) : ((ratOf (.num n m e) : ℚ) : ℝ) = signed n (m * (2 : ℝ) ^ e) := by
  cases n <;> simp [ratOf, signed]

/-- The value of a finite code by its sign and the bits below. -/
def finiteVal (f : Fmt) (n : Bool) (c : Nat) : FVal :=
  if c / 2 ^ f.fw = 0 then .num n (c % 2 ^ f.fw) (1 - (f.bias : Int) - f.fw)
  else .num n (2 ^ f.fw + c % 2 ^ f.fw) ((c / 2 ^ f.fw : Nat) - f.bias - f.fw)

/-- The bits of a code of an IEEE format below its sign: a finite value up to the largest, an infinity, or a NaN. -/
theorem fdecode_ieee {f : Fmt} (hf : IsIeee f) (k : Nat) : fdecode f k =
    if k % 2 ^ (f.ew + f.fw) ≤ maxCode f then finiteVal f (k.testBit (f.ew + f.fw)) (k % 2 ^ (f.ew + f.fw))
    else if k % 2 ^ f.fw = 0 then .inf (k.testBit (f.ew + f.fw)) else .nan (!(k % 2 ^ f.fw).testBit (f.fw - 1)) := by
  have hpow : 2 ^ (f.ew + f.fw) = 2 ^ f.fw * 2 ^ f.ew := by ring
  have he : k / 2 ^ f.fw % 2 ^ f.ew = k % 2 ^ (f.ew + f.fw) / 2 ^ f.fw := by rw [hpow, Nat.mod_mul_right_div_self]
  have hm : k % 2 ^ f.fw = k % 2 ^ (f.ew + f.fw) % 2 ^ f.fw := by rw [hpow, Nat.mod_mul_right_mod]
  obtain ⟨T, hT, hinf, -⟩ := exists_topField hf
  have hmax := maxCode_succ hf
  have hlt : k % 2 ^ (f.ew + f.fw) / 2 ^ f.fw < T + 3 := by
    rw [← hT, Nat.div_lt_iff_lt_mul (by positivity), Nat.mul_comm, ← hpow]; exact Nat.mod_lt _ (by positivity)
  have htop : k % 2 ^ (f.ew + f.fw) / 2 ^ f.fw = T + 2 ↔ ¬ k % 2 ^ (f.ew + f.fw) ≤ maxCode f := by
    have : T + 2 ≤ k % 2 ^ (f.ew + f.fw) / 2 ^ f.fw ↔ infCode f ≤ k % 2 ^ (f.ew + f.fw) := by
      rw [Nat.le_div_iff_mul_le (by positivity), hinf]
    omega
  simp only [fdecode, hf.kind, he]
  rw [hm, hT, show T + 3 - 1 = T + 2 from rfl]
  simp only [htop, ite_not]
  rfl

theorem finiteCode_iff {f : Fmt} (hf : IsIeee f) {k : Nat} : finiteCode f k ↔ k % 2 ^ (f.ew + f.fw) ≤ maxCode f := by
  rw [finiteCode, fdecode_ieee hf]
  split
  case isTrue h => unfold finiteVal; split <;> simp [isNan, isInf, h]
  case isFalse h => split <;> simp [isNan, isInf, h]

theorem finiteVal_spec (f : Fmt) (n : Bool) (c : Nat) :
    signOf (finiteVal f n c) = n ∧ ((ratOf (finiteVal f n c) : ℚ) : ℝ) = signed n (magOf f c) := by
  unfold finiteVal magOf
  split
  case isTrue h =>
    have : c % 2 ^ f.fw = c := Nat.mod_eq_of_lt ((Nat.div_eq_zero_iff_lt (by positivity)).mp h)
    exact ⟨rfl, by rw [ratOf_num, this]⟩
  case isFalse h => exact ⟨rfl, by rw [ratOf_num]⟩

/-- A code up to the largest finite one, with a sign: it stands for its magnitude with that sign. -/
theorem fdecode_signCode {f : Fmt} (hf : IsIeee f) (n : Bool) {c : Nat} (hc : c ≤ maxCode f) :
    finiteCode f (c + signCode f n) ∧ signOf (fdecode f (c + signCode f n)) = n ∧
    ((ratOf (fdecode f (c + signCode f n)) : ℚ) : ℝ) = signed n (magOf f c) := by
  obtain ⟨hbit, hmod⟩ := signCode_lt f n (lt_two_pow_of_le_maxCode hf hc)
  have hfin := (finiteCode_iff hf (k := c + signCode f n)).mpr (by rwa [hmod])
  have hdec : fdecode f (c + signCode f n) = finiteVal f n c := by rw [fdecode_ieee hf, hmod, if_pos hc, hbit]
  rw [hdec]
  exact ⟨hfin, finiteVal_spec f n c⟩

/-- Every finite code is a code up to the largest, with a sign. -/
theorem exists_of_finiteCode {f : Fmt} (hf : IsIeee f) {k : Nat} (hk : finiteCode f k) :
    ∃ n c, c ≤ maxCode f ∧ ((ratOf (fdecode f k) : ℚ) : ℝ) = signed n (magOf f c) := by
  have hc := (finiteCode_iff hf).mp hk
  exact ⟨_, _, hc, by rw [fdecode_ieee hf, if_pos hc]; exact (finiteVal_spec f _ _).2⟩

/-! ### Rounding to an integer in a mode (R43) -/

/-- The exact magnitude that a significand, an exponent and the sticky bit tell of: m x 2^e, or more than that and less than
(m + 1) x 2^e. -/
def exactly (v : ℝ) (m : Nat) (e : Int) (st : Bool) : Prop :=
  if st then (m : ℝ) * (2 : ℝ) ^ e < v ∧ v < (m + 1) * (2 : ℝ) ^ e else v = m * (2 : ℝ) ^ e

theorem exactly_false {v : ℝ} {m : Nat} {e : Int} : exactly v m e false ↔ v = m * (2 : ℝ) ^ e := by simp [exactly]

theorem exactly_true {v : ℝ} {m : Nat} {e : Int} :
    exactly v m e true ↔ (m : ℝ) * (2 : ℝ) ^ e < v ∧ v < (m + 1) * (2 : ℝ) ^ e := by simp [exactly]

/-- r is the integer that the mode takes for the magnitude y of a number of this sign. -/
def roundsTo (md : RMode) (neg : Bool) (y : ℝ) (r : Nat) : Prop :=
  (md = .rne → |(r : ℝ) - y| ≤ 1 / 2 ∧ (|(r : ℝ) - y| = 1 / 2 → r % 2 = 0)) ∧
  (md ≠ .rne → awayFrom md neg → y ≤ r ∧ (r : ℝ) < y + 1) ∧
  (md ≠ .rne → ¬ awayFrom md neg → (r : ℝ) ≤ y ∧ y < r + 1)

theorem roundsTo_self (md : RMode) (neg : Bool) (r : Nat) : roundsTo md neg r r := by
  refine ⟨fun _ => ?_, fun _ _ => ⟨le_rfl, by linarith⟩, fun _ _ => ⟨le_rfl, by linarith⟩⟩
  norm_num

/-- An integer magnitude is taken for itself. -/
theorem eq_of_roundsTo {md : RMode} {neg : Bool} {n r : Nat} (h : roundsTo md neg n r) : r = n := by
  obtain ⟨hrne, haway, hdown⟩ := h
  by_cases hm : md = .rne
  · obtain ⟨hle, -⟩ := hrne hm
    rw [abs_le] at hle
    have h1 : (r : ℝ) < n + 1 := by linarith [hle.2]
    have h2 : (n : ℝ) < r + 1 := by linarith [hle.1]
    norm_cast at h1 h2; omega
  · by_cases ha : awayFrom md neg
    · obtain ⟨h1, h2⟩ := haway hm ha
      norm_cast at h1 h2; omega
    · obtain ⟨h1, h2⟩ := hdown hm ha
      norm_cast at h1 h2; omega

/-- Between two neighbouring integers the mode takes one of them. -/
theorem roundsTo_step {md : RMode} {neg : Bool} {n r : Nat} {y : ℝ} (h : roundsTo md neg y r) (h1 : (n : ℝ) ≤ y)
    (h2 : y < n + 1) : r = n ∨ r = n + 1 := by
  obtain ⟨hrne, haway, hdown⟩ := h
  have hr : (n : ℝ) - 1 < r ∧ (r : ℝ) < n + 2 := by
    by_cases hm : md = .rne
    · obtain ⟨hle, -⟩ := hrne hm
      rw [abs_le] at hle
      exact ⟨by linarith, by linarith⟩
    · by_cases ha : awayFrom md neg
      · obtain ⟨h3, h4⟩ := haway hm ha
        exact ⟨by linarith, by linarith⟩
      · obtain ⟨h3, h4⟩ := hdown hm ha
        exact ⟨by linarith, by linarith⟩
  have h3 : n < r + 1 := by have := hr.1; rw [sub_lt_iff_lt_add] at this; exact_mod_cast this
  have h4 : r < n + 2 := by exact_mod_cast hr.2
  omega

/-- One step up from the integer part q of q + u, or none: where the fraction u is above a half, or a half and q odd; in the
other modes where there is a fraction and the mode moves the number away from zero. -/
theorem roundsTo_of_frac {md : RMode} {neg up : Bool} {q : Nat} {u : ℝ} (h0 : 0 ≤ u) (h1 : u < 1)
    (hrne : md = .rne → (up = true ↔ 1 / 2 < u ∨ (u = 1 / 2 ∧ q % 2 = 1)))
    (hdir : md ≠ .rne → (up = true ↔ awayFrom md neg ∧ u ≠ 0)) :
    roundsTo md neg (q + u) (if up then q + 1 else q) := by
  have hup : ((q + 1 : Nat) : ℝ) - (q + u) = 1 - u := by push_cast; ring
  have hno : (q : ℝ) - (q + u) = -u := by ring
  refine ⟨fun hm => ?_, fun hm ha => ?_, fun hm ha => ?_⟩
  · cases up
    · have hle : ¬ (1 / 2 < u ∨ (u = 1 / 2 ∧ q % 2 = 1)) := by simpa using hrne hm
      rw [if_neg (by decide), hno, abs_neg, abs_of_nonneg h0]
      exact ⟨le_of_not_gt fun h => hle (.inl h), fun h => by have : q % 2 ≠ 1 := fun ho => hle (.inr ⟨h, ho⟩); simpa using this⟩
    · rw [if_pos rfl, hup, abs_of_pos (by linarith)]
      rcases (hrne hm).mp rfl with h | ⟨h, ho⟩
      · exact ⟨by linarith, fun he => by linarith⟩
      · exact ⟨by linarith, fun _ => by omega⟩
  · cases up
    · have hz : u = 0 := by simpa [ha] using hdir hm
      simp [hz]
    · have hu : 0 < u := lt_of_le_of_ne h0 (Ne.symm ((hdir hm).mp rfl).2)
      rw [if_pos rfl]; push_cast; exact ⟨by linarith, by linarith⟩
  · obtain rfl : up = false := by simpa [ha] using hdir hm
    exact ⟨by simpa using h0, by simpa using h1⟩

/-- The remainder r of a division by 2H, and the sticky bit, place the fraction u of the quotient. -/
theorem frac_of_remainder {st : Bool} {H r : Nat} {u : ℝ} (hr : r < 2 * H) (hu : exactly (u * (2 * H)) r 0 st) :
    0 ≤ u ∧ u < 1 ∧ ((r != 0 || st) = true ↔ u ≠ 0) ∧
    ∀ odd : Bool, (decide (H < r) || (r == H && (st || odd))) = true ↔ 1 / 2 < u ∨ (u = 1 / 2 ∧ odd = true) := by
  have hH : (0 : ℝ) < H := by exact_mod_cast (by omega : 0 < H)
  have hr' : (r : ℝ) + 1 ≤ 2 * H := by exact_mod_cast hr
  cases st with
  | false =>
    replace hu : u * (2 * H) = r := by simpa using exactly_false.mp hu
    obtain rfl : u = r / (2 * H) := by field_simp; linarith
    have hgt : (1 : ℝ) / 2 < r / (2 * H) ↔ H < r := by
      rw [← Nat.cast_lt (α := ℝ), div_lt_div_iff₀ (by norm_num) (by linarith)]
      constructor <;> intro h <;> linarith
    have heq : (r : ℝ) / (2 * H) = 1 / 2 ↔ r = H := by
      rw [← Nat.cast_inj (R := ℝ), div_eq_div_iff (by linarith) (by norm_num)]
      constructor <;> intro h <;> linarith
    refine ⟨by positivity, by rw [div_lt_one (by linarith)]; linarith, by simp [hH.ne'], fun odd => ?_⟩
    rw [hgt, heq]; simp
  | true =>
    obtain ⟨hlo, hhi⟩ : (r : ℝ) < u * (2 * H) ∧ u * (2 * H) < r + 1 := by simpa using exactly_true.mp hu
    have hr0 : (0 : ℝ) ≤ r := r.cast_nonneg
    have h0 : 0 < u := by by_contra h; nlinarith
    refine ⟨h0.le, by by_contra h; nlinarith, by simp [h0.ne'], fun odd => ?_⟩
    rcases Nat.lt_or_ge r H with h | h
    · have hle : (r : ℝ) + 1 ≤ H := by exact_mod_cast h
      have : u < 1 / 2 := by by_contra hc; nlinarith
      simp only [h.not_gt, this.not_gt, this.ne, decide_false, beq_false_of_ne h.ne, Bool.false_and, Bool.or_self,
        Bool.false_eq_true, false_and, or_self]
    · have hle : (H : ℝ) ≤ r := by exact_mod_cast h
      have : 1 / 2 < u := by by_contra hc; nlinarith
      simp only [this, true_or, iff_true, Bool.true_or, Bool.and_true, Bool.or_eq_true, decide_eq_true_eq, beq_iff_eq]
      omega

/-- A shift to the right rounds the quotient in the mode, and says whether the quotient is no integer. -/
theorem roundShift_spec (md : RMode) (neg : Bool) {st : Bool} {m sh : Nat} {w : ℝ} (hsh : 0 < sh) (hw : exactly w m 0 st) :
    roundsTo md neg (w / 2 ^ sh) (roundShift md neg m sh st).1 ∧
    ((roundShift md neg m sh st).2 = true ↔ ∀ n : Nat, (n : ℝ) ≠ w / 2 ^ sh) := by
  obtain ⟨n, rfl⟩ : ∃ n, sh = n + 1 := ⟨sh - 1, by omega⟩
  have hP : (2 : Nat) ^ (n + 1) = 2 * 2 ^ n := by ring
  have hr := Nat.mod_lt m (show 0 < 2 ^ (n + 1) by positivity)
  have hm : (m : ℝ) = 2 ^ (n + 1) * (m / 2 ^ (n + 1) : Nat) + (m % 2 ^ (n + 1) : Nat) := by
    exact_mod_cast (Nat.div_add_mod m _).symm
  unfold roundShift
  rw [show (2 : Nat) ^ (n + 1) / 2 = 2 ^ n by omega]
  generalize m / 2 ^ (n + 1) = q at *
  generalize m % 2 ^ (n + 1) = r at *
  obtain ⟨u, rfl⟩ : ∃ u, w = (q + u) * 2 ^ (n + 1) := ⟨w / 2 ^ (n + 1) - q, by field_simp; ring⟩
  have hu : exactly (u * (2 * (2 ^ n : Nat))) r 0 st := by
    have hexp : ((2 * (2 ^ n : Nat) : ℝ)) = 2 ^ (n + 1) := by push_cast; ring
    rw [hexp]
    cases st
    · simp only [exactly_false, zpow_zero, mul_one] at hw ⊢; linarith
    · simp only [exactly_true, zpow_zero, mul_one] at hw ⊢; exact ⟨by linarith, by linarith⟩
  obtain ⟨h0, h1, hne, hhalf⟩ := frac_of_remainder (hP ▸ hr) hu
  rw [mul_div_assoc, div_self (by positivity), mul_one]
  refine ⟨roundsTo_of_frac h0 h1 (fun hmd => ?_) (fun hmd => ?_), ?_⟩
  · subst hmd
    simpa using hhalf (q % 2 == 1)
  · cases md <;> simp_all [awayFrom]
  · dsimp only
    rw [hne]
    refine ⟨fun hu0 k hk => ?_, fun h hu0 => h q (by simp [hu0])⟩
    have hk1 : (q : ℝ) < k := by rw [hk]; linarith [lt_of_le_of_ne h0 (Ne.symm hu0)]
    have hk2 : (k : ℝ) < q + 1 := by rw [hk]; linarith
    norm_cast at hk1 hk2; omega

/-! ### Rounding to a quantum -/

theorem two_pow_mul_zpow (n : Nat) (q : Int) : (2 : ℝ) ^ n * (2 : ℝ) ^ q = (2 : ℝ) ^ ((n : Int) + q) := by
  rw [← zpow_natCast, ← zpow_add₀ (by norm_num)]

theorem bitLen_spec {m : Nat} (hm : m ≠ 0) : ∃ l, bitLen m = l + 1 ∧ 2 ^ l ≤ m ∧ m < 2 ^ (l + 1) :=
  ⟨Nat.log2 m, by rw [bitLen, if_neg hm], Nat.log2_self_le hm, Nat.lt_log2_self⟩

/-- An exact magnitude lies between the powers of two that the length of its significand gives. -/
theorem exactly_bounds {v : ℝ} {m : Nat} {e : Int} {st : Bool} (hm : m ≠ 0) (hv : exactly v m e st) :
    (2 : ℝ) ^ (e + bitLen m - 1) ≤ v ∧ v < (2 : ℝ) ^ (e + bitLen m) := by
  obtain ⟨l, hl, hlo, hhi⟩ := bitLen_spec hm
  have hlo' : (2 : ℝ) ^ l ≤ m := by exact_mod_cast hlo
  have hhi' : (m : ℝ) + 1 ≤ 2 ^ (l + 1) := by exact_mod_cast hhi
  have he : (0 : ℝ) < (2 : ℝ) ^ e := by positivity
  have h1 : (2 : ℝ) ^ (e + bitLen m - 1) = 2 ^ l * (2 : ℝ) ^ e := by
    rw [hl, two_pow_mul_zpow]; congr 1; push_cast; ring
  have h2 : (2 : ℝ) ^ (e + bitLen m) = 2 ^ (l + 1) * (2 : ℝ) ^ e := by
    rw [hl, two_pow_mul_zpow, add_comm]
  rw [h1, h2]
  cases st
  · rw [exactly_false] at hv
    subst hv
    exact ⟨by gcongr, by gcongr; linarith⟩
  · rw [exactly_true] at hv
    exact ⟨by nlinarith [hv.1], by nlinarith [hv.2]⟩

/-- A magnitude rounded to a multiple of 2^q: the mode takes the integer, and inexact says that there was none to keep. -/
theorem roundAt_spec (md : RMode) (neg : Bool) {v : ℝ} {m : Nat} {e q : Int} {st : Bool} (hv : exactly v m e st)
    (hst : st = true → e < q) :
    roundsTo md neg (v / (2 : ℝ) ^ q) (roundAt md neg m e st q).1 ∧
    ((roundAt md neg m e st q).2 = true ↔ ∀ n : Nat, (n : ℝ) ≠ v / (2 : ℝ) ^ q) := by
  unfold roundAt
  split
  case isTrue hqe =>
    obtain rfl : st = false := by by_contra h; have := hst (by simpa using h); omega
    rw [exactly_false] at hv
    obtain ⟨n, hn⟩ : ∃ n : Nat, e - q = n := ⟨(e - q).toNat, by omega⟩
    have hquot : v / (2 : ℝ) ^ q = ((m * 2 ^ (e - q).toNat : Nat) : ℝ) := by
      rw [hv, mul_div_assoc, ← zpow_sub₀ (by norm_num), hn, zpow_natCast, Int.toNat_natCast]; push_cast; rfl
    rw [hquot]
    exact ⟨roundsTo_self .., nofun, fun h => absurd rfl (h _)⟩
  case isFalse hqe =>
    obtain ⟨n, hn⟩ : ∃ n : Nat, q - e = n := ⟨(q - e).toNat, by omega⟩
    have hquot : v / (2 : ℝ) ^ q = v / (2 : ℝ) ^ e / 2 ^ n := by
      rw [show q = e + n by omega, zpow_add₀ (by norm_num), zpow_natCast, div_div]
    have he : (0 : ℝ) < (2 : ℝ) ^ e := by positivity
    have hw : exactly (v / (2 : ℝ) ^ e) m 0 st := by
      cases st
      · rw [exactly_false] at hv ⊢; rw [hv]; field_simp
      · rw [exactly_true] at hv ⊢
        rw [lt_div_iff₀ he, div_lt_iff₀ he]; simpa using hv
    rw [hquot, hn, Int.toNat_natCast]
    exact roundShift_spec md neg (by omega) hw

/-! ### Rounding to a format -/

/-- Code c stands for the magnitude that the mode takes for v, of a number of this sign, with an unbounded exponent. -/
def nearestMag (f : Fmt) (md : RMode) (neg : Bool) (v : ℝ) (c : Nat) : Prop :=
  (md = .rne → ∀ k, |magOf f c - v| ≤ |magOf f k - v| ∧
    (|magOf f c - v| = |magOf f k - v| → magOf f k ≠ magOf f c → c % 2 = 0)) ∧
  (md ≠ .rne → awayFrom md neg → v ≤ magOf f c ∧ ∀ k, v ≤ magOf f k → magOf f c ≤ magOf f k) ∧
  (md ≠ .rne → ¬ awayFrom md neg → magOf f c ≤ v ∧ ∀ k, magOf f k ≤ v → magOf f k ≤ magOf f c)

/-- An integer r that the mode takes for y, where n and n + 1 are neighbours among the numbers that a format has: none lies
between them. -/
theorem nearest_of_roundsTo {md : RMode} {neg : Bool} {y g : ℝ} {n r : Nat} (h : roundsTo md neg y r) (h1 : (n : ℝ) ≤ y)
    (h2 : y < n + 1) (hg : g ≤ n ∨ (n : ℝ) + 1 ≤ g) :
    (md = .rne → |(r : ℝ) - y| ≤ |g - y| ∧ (|(r : ℝ) - y| = |g - y| → g ≠ r → r % 2 = 0)) ∧
    (md ≠ .rne → awayFrom md neg → y ≤ g → (r : ℝ) ≤ g) ∧
    (md ≠ .rne → ¬ awayFrom md neg → g ≤ y → g ≤ r) := by
  have hr := roundsTo_step h h1 h2
  obtain ⟨hrne, haway, hdown⟩ := h
  refine ⟨fun hm => ?_, fun hm ha hy => ?_, fun hm ha hy => ?_⟩
  · obtain ⟨hle, htie⟩ := hrne hm
    rcases hr with rfl | rfl
    · rw [abs_of_nonpos (by linarith)] at *
      rcases hg with hg | hg
      · rw [abs_of_nonpos (by linarith)]
        exact ⟨by linarith, fun he hne => absurd (by linarith) hne⟩
      · rw [abs_of_nonneg (by linarith)]
        exact ⟨by linarith, fun he _ => htie (by linarith)⟩
    · push_cast at *
      rw [abs_of_nonneg (by linarith)] at *
      rcases hg with hg | hg
      · rw [abs_of_nonpos (by linarith)]
        exact ⟨by linarith, fun he _ => htie (by linarith)⟩
      · rw [abs_of_nonneg (by linarith)]
        exact ⟨by linarith, fun he hne => absurd (by linarith) hne⟩
  · have := haway hm ha
    rcases hr with rfl | rfl
    · rcases hg with hg | hg <;> linarith
    · push_cast at *; rcases hg with hg | hg <;> linarith
  · have := hdown hm ha
    rcases hr with rfl | rfl
    · rcases hg with hg | hg <;> linarith
    · push_cast at *; rcases hg with hg | hg <;> linarith

/-- Where codes B + n and B + n + 1 stand for n and n + 1 quanta, the integer that the mode takes for y gives the code that it
takes for y quanta. -/
theorem nearestMag_of_roundsTo {f : Fmt} {md : RMode} {neg : Bool} {y u : ℝ} {B n r : Nat} (hu : 0 < u) (hB : B % 2 = 0)
    (hlo : magOf f (B + n) = n * u) (hhi : magOf f (B + (n + 1)) = (n + 1 : Nat) * u) (h : roundsTo md neg y r)
    (h1 : (n : ℝ) ≤ y) (h2 : y < n + 1) : nearestMag f md neg (y * u) (B + r) ∧ magOf f (B + r) = r * u := by
  have hr : magOf f (B + r) = r * u := by rcases roundsTo_step h h1 h2 with rfl | rfl <;> assumption
  have hg : ∀ k, ∃ g : ℝ, magOf f k = g * u ∧ (g ≤ n ∨ (n : ℝ) + 1 ≤ g) := fun k => by
    refine ⟨magOf f k / u, by field_simp, ?_⟩
    rcases Nat.lt_or_ge (B + n) k with hk | hk
    · right
      have := (strictMono_magOf f).monotone (show B + (n + 1) ≤ k from hk)
      rw [hhi] at this; rw [le_div_iff₀ hu]; exact_mod_cast this
    · left
      have := (strictMono_magOf f).monotone hk
      rw [hlo] at this; rwa [div_le_iff₀ hu]
  have habs : ∀ a : ℝ, |a * u - y * u| = |a - y| * u := fun a => by rw [← sub_mul, abs_mul, abs_of_pos hu]
  refine ⟨⟨fun hm k => ?_, fun hm ha => ⟨?_, fun k hk => ?_⟩, fun hm ha => ⟨?_, fun k hk => ?_⟩⟩, hr⟩
  · obtain ⟨g, hk, hg⟩ := hg k
    obtain ⟨hle, htie⟩ := (nearest_of_roundsTo h h1 h2 hg).1 hm
    rw [hr, hk, habs, habs]
    refine ⟨by gcongr, fun he hne => ?_⟩
    have := htie (mul_right_cancel₀ hu.ne' he) fun hgr => hne (by rw [hgr])
    omega
  · rw [hr]; have := (h.2.1 hm ha).1; gcongr
  · obtain ⟨g, hk', hg⟩ := hg k
    rw [hk'] at hk; rw [hr, hk']
    have := (nearest_of_roundsTo h h1 h2 hg).2.1 hm ha (le_of_mul_le_mul_right hk hu)
    gcongr
  · rw [hr]; have := (h.2.2 hm ha).1; gcongr
  · obtain ⟨g, hk', hg⟩ := hg k
    rw [hk'] at hk; rw [hr, hk']
    have := (nearest_of_roundsTo h h1 h2 hg).2.2 hm ha (le_of_mul_le_mul_right hk hu)
    gcongr

/-- The quantum that a magnitude is rounded to: y quanta have at most fw + 1 bits, and as many where the exponent is not the
least one, E = 0. -/
theorem floor_significand {f : Fmt} {y : ℝ} {m E : Nat} {e q : Int} {st : Bool} (hm : m ≠ 0)
    (hq : q = max (e + bitLen m - (f.fw + 1 : Nat)) (1 - (f.bias : Int) - f.fw)) (hE : q + f.fw + f.bias - 1 = E)
    (hv : exactly (y * (2 : ℝ) ^ q) m e st) : 0 ≤ y ∧ ⌊y⌋₊ < 2 ^ (f.fw + 1) ∧ (E = 0 ∨ 2 ^ f.fw ≤ ⌊y⌋₊) := by
  obtain ⟨hlo, hhi⟩ := exactly_bounds hm hv
  have hu : (0 : ℝ) < (2 : ℝ) ^ q := by positivity
  have hy : 0 ≤ y := (pos_of_mul_pos_left (lt_of_lt_of_le (by positivity) hlo) hu.le).le
  refine ⟨hy, ?_, ?_⟩
  · rw [Nat.floor_lt hy]
    have : (2 : ℝ) ^ (e + bitLen m) ≤ 2 ^ (f.fw + 1) * (2 : ℝ) ^ q := by
      rw [two_pow_mul_zpow]
      exact zpow_le_zpow_right₀ (by norm_num) (by omega)
    push_cast
    exact lt_of_mul_lt_mul_right (lt_of_lt_of_le hhi this) hu.le
  · rcases Nat.eq_zero_or_pos E with h0 | h0
    · exact .inl h0
    · right
      rw [Nat.le_floor_iff hy]
      have : (2 : ℝ) ^ (e + bitLen m - 1) = 2 ^ f.fw * (2 : ℝ) ^ q := by rw [two_pow_mul_zpow]; congr 1; omega
      push_cast
      exact le_of_mul_le_mul_right (this ▸ hlo) hu

/-- A magnitude rounded to a format: the code that the mode takes, and whether its value is another. -/
theorem roundMag_spec {f : Fmt} (hf : IsIeee f) (md : RMode) (neg : Bool) {v : ℝ} {m : Nat} {e : Int} {st : Bool} (hm : m ≠ 0)
    (hv : exactly v m e st) (hst : st = true → f.fw + 2 ≤ bitLen m) :
    nearestMag f md neg v (roundMag f md neg m e st).code ∧
    ((roundMag f md neg m e st).inexact = true ↔ magOf f (roundMag f md neg m e st).code ≠ v) := by
  set q : Int := max (e + bitLen m - (f.fw + 1 : Nat)) (1 - (f.bias : Int) - f.fw) with hq
  obtain ⟨E, hE⟩ : ∃ E : Nat, q + f.fw + f.bias - 1 = E := ⟨(q + f.fw + f.bias - 1).toNat, by omega⟩
  have hcode : (roundMag f md neg m e st).code = E * 2 ^ f.fw + (roundAt md neg m e st q).1 := by
    simp only [roundMag, ← hq, hE, Int.toNat_natCast]
  obtain ⟨hround, hinex⟩ := roundAt_spec md neg hv (q := q) fun h => by have := hst h; omega
  rw [hcode, show (roundMag f md neg m e st).inexact = (roundAt md neg m e st q).2 from rfl]
  have hu : (0 : ℝ) < (2 : ℝ) ^ q := by positivity
  obtain ⟨y, rfl⟩ : ∃ y, v = y * (2 : ℝ) ^ q := ⟨v / (2 : ℝ) ^ q, by field_simp⟩
  rw [mul_div_assoc, div_self hu.ne', mul_one] at hround hinex
  obtain ⟨hy, hn, hEn⟩ := floor_significand hm hq hE hv
  have h1 := Nat.floor_le hy
  have h2 := Nat.lt_floor_add_one y
  have hmag : ∀ k, ⌊y⌋₊ ≤ k → k ≤ ⌊y⌋₊ + 1 → magOf f (E * 2 ^ f.fw + k) = k * (2 : ℝ) ^ q := fun k hk1 hk2 => by
    rw [magOf_significand f (by omega) (hEn.imp_right (le_trans · hk1))]; congr 2; omega
  have hB : E * 2 ^ f.fw % 2 = 0 := by
    rw [← Nat.sub_add_cancel hf.fw, pow_succ, ← mul_assoc, Nat.mul_mod_left]
  obtain ⟨hnear, hval⟩ := nearestMag_of_roundsTo hu hB (hmag _ le_rfl (by omega)) (hmag _ (by omega) le_rfl) hround h1 h2
  refine ⟨hnear, hinex.trans ?_⟩
  rw [hval, ne_eq, mul_left_inj' hu.ne']
  exact ⟨fun h => h _, fun h n hn => h (by rw [← hn] at hround ⊢; exact congrArg _ (eq_of_roundsTo hround))⟩

/-! ### Overflow and tininess (R43, R44) -/

theorem abs_signed {n : Bool} {v : ℝ} (hv : 0 ≤ v) : |signed n v| = v := by
  cases n <;> simp [signed, abs_of_nonneg hv]

/-- v is no nearer to b than to a greater a just where it lies at or above their midpoint; and the other way round. -/
theorem abs_sub_le_iff_midpoint {a b v : ℝ} (h : b < a) :
    (|a - v| ≤ |b - v| ↔ a + b ≤ 2 * v) ∧ (|b - v| ≤ |a - v| ↔ 2 * v ≤ a + b) := by
  rw [← sq_le_sq, ← sq_le_sq]
  constructor <;> constructor <;> intro _ <;> nlinarith

theorem midpoint_of_maxCode {f : Fmt} (hf : IsIeee f) : ((2 : ℝ) ^ (f.fw + 2) - 1) * (2 : ℝ) ^ (topExpo f - f.fw - 1) =
    (magOf f (maxCode f + 1) + magOf f (maxCode f)) / 2 := by
  rw [magOf_maxCode hf, maxCode_succ hf, magOf_infCode hf,
    show topExpo f + 1 = (topExpo f - f.fw - 1) + ((f.fw + 2 : Nat) : Int) by push_cast; ring, zpow_add₀ (by norm_num),
    show topExpo f - f.fw = (topExpo f - f.fw - 1) + 1 by ring, zpow_add_one₀ (by norm_num), zpow_natCast]
  ring_nf

/-- To nearest, the code taken lies past the largest finite one from the midpoint above that on: the tie goes to the even
code. -/
theorem maxCode_lt_iff_midpoint {f : Fmt} (hf : IsIeee f) {v : ℝ} {c : Nat} (h : ∀ k, |magOf f c - v| ≤ |magOf f k - v| ∧
    (|magOf f c - v| = |magOf f k - v| → magOf f k ≠ magOf f c → c % 2 = 0)) :
    maxCode f < c ↔ (magOf f (maxCode f + 1) + magOf f (maxCode f)) / 2 ≤ v := by
  have hmono := strictMono_magOf f
  have hsucc := hmono (Nat.lt_succ_self (maxCode f))
  constructor
  · intro hc
    have hle := (abs_sub_le_iff_midpoint (hmono hc)).1.mp (h (maxCode f)).1
    have := hmono.monotone (show maxCode f + 1 ≤ c from hc)
    linarith
  · intro hmid
    by_contra hc
    have hcM := hmono.monotone (not_lt.mp hc)
    have hlt := lt_of_le_of_lt hcM hsucc
    have hle := (abs_sub_le_iff_midpoint hlt).2.mp (h (maxCode f + 1)).1
    obtain rfl : c = maxCode f := hmono.injective (by linarith)
    have htie := le_antisymm (h (maxCode f + 1)).1 ((abs_sub_le_iff_midpoint hlt).1.mpr (by linarith))
    have heven := (h (maxCode f + 1)).2 htie hlt.ne'
    have := maxCode_odd hf
    omega

/-- The code that the mode takes lies past the largest finite one just where the number overflows. -/
theorem maxCode_lt_iff_overflows {f : Fmt} (hf : IsIeee f) {md : RMode} {neg : Bool} {v : ℝ} {c : Nat} (hv : 0 ≤ v)
    (h : nearestMag f md neg v c) : maxCode f < c ↔ overflows f md neg (signed neg v) := by
  obtain ⟨hrne, haway, hdown⟩ := h
  have hmono := strictMono_magOf f
  rw [overflows, abs_signed hv, ← magOf_infCode hf, ← maxCode_succ hf, ← magOf_maxCode hf, midpoint_of_maxCode hf]
  by_cases hm : md = .rne
  · rw [maxCode_lt_iff_midpoint hf (hrne hm)]
    simp [hm]
  · by_cases ha : awayFrom md neg
    · obtain ⟨hle, hleast⟩ := haway hm ha
      have : maxCode f < c ↔ magOf f (maxCode f) < v :=
        ⟨fun hc => not_le.mp fun hle' => absurd (hleast _ hle') (not_le.mpr (hmono hc)),
          fun hlt => hmono.lt_iff_lt.mp (hlt.trans_le hle)⟩
      simp [hm, ha, this]
    · obtain ⟨hle, hgreatest⟩ := hdown hm ha
      have : maxCode f < c ↔ magOf f (maxCode f + 1) ≤ v :=
        ⟨fun hc => (hmono.monotone (Nat.succ_le_of_lt hc)).trans hle, fun hle' => hmono.le_iff_le.mp (hgreatest _ hle')⟩
      simp [hm, ha, this]

/-- The integer taken for a number of at least 2^fw and less than 2^(fw + 1) reaches 2^(fw + 1) just where the mode takes that. -/
theorem two_pow_le_roundsTo {md : RMode} {neg : Bool} {y : ℝ} {n r : Nat} (h : roundsTo md neg y r) (hn : 1 ≤ n)
    (hy : y < (2 ^ n : Nat)) :
    (md = .rne → (2 ^ n ≤ r ↔ ((2 ^ n : Nat) : ℝ) - 1 / 2 ≤ y)) ∧
    (md ≠ .rne → awayFrom md neg → (2 ^ n ≤ r ↔ ((2 ^ n : Nat) : ℝ) - 1 < y)) ∧
    (md ≠ .rne → ¬ awayFrom md neg → ¬ 2 ^ n ≤ r) := by
  obtain ⟨hrne, haway, hdown⟩ := h
  obtain ⟨N, hN⟩ : ∃ N, 2 ^ n = 2 * N := ⟨2 ^ (n - 1), by rw [← pow_succ']; congr 1; omega⟩
  have hN1 : 1 ≤ N := by have := Nat.two_pow_pos n; omega
  rw [hN] at hy ⊢
  have hsucc : ∀ k : Nat, ¬ 2 * N ≤ k → (k : ℝ) ≤ (2 * N : Nat) - 1 := fun k hk => by
    have : k + 1 ≤ 2 * N := by omega
    rw [le_sub_iff_add_le]; exact_mod_cast this
  refine ⟨fun hm => ?_, fun hm ha => ?_, fun hm ha hr => ?_⟩
  · obtain ⟨hle, htie⟩ := hrne hm
    constructor
    · intro hr
      have : ((2 * N : Nat) : ℝ) ≤ r := by exact_mod_cast hr
      linarith [(abs_le.mp hle).2]
    · intro hlow
      by_contra hr
      have hr1 := hsucc r hr
      have hlow' := (abs_le.mp hle).1
      have hreq : (r : ℝ) + 1 = (2 * N : Nat) := by linarith
      have heven := htie (by rw [abs_of_nonpos (by linarith)]; linarith)
      norm_cast at hreq; omega
  · obtain ⟨hle, hlt⟩ := haway hm ha
    constructor
    · intro hr
      have : ((2 * N : Nat) : ℝ) ≤ r := by exact_mod_cast hr
      linarith
    · intro hlow
      by_contra hr
      have := hsucc r hr
      linarith
  · have : ((2 * N : Nat) : ℝ) ≤ r := by exact_mod_cast hr
    linarith [(hdown hm ha).1]

/-- Numbers from the smallest normal value on are not tiny, those below half of it are. -/
theorem tinyAfter_of_far {f : Fmt} {md : RMode} {neg : Bool} {v : ℝ} (hv : 0 ≤ v) :
    ((2 : ℝ) ^ lowExpo f ≤ v → ¬ tinyAfter f md neg (signed neg v)) ∧
    (v < (2 : ℝ) ^ (lowExpo f - 1) → tinyAfter f md neg (signed neg v)) := by
  have h1 : (0 : ℝ) < (2 : ℝ) ^ (lowExpo f - f.fw - 1) := by positivity
  have h2 : (0 : ℝ) < (2 : ℝ) ^ (lowExpo f - f.fw - 2) := by positivity
  have h3 : (2 : ℝ) ^ (lowExpo f - f.fw - 1) ≤ (2 : ℝ) ^ (lowExpo f - 1) := zpow_le_zpow_right₀ (by norm_num) (by omega)
  have h4 : (2 : ℝ) ^ (lowExpo f - f.fw - 2) ≤ (2 : ℝ) ^ (lowExpo f - 1) := zpow_le_zpow_right₀ (by norm_num) (by omega)
  have h5 : (2 : ℝ) ^ lowExpo f = (2 : ℝ) ^ (lowExpo f - 1) * 2 := by rw [← zpow_add_one₀ (by norm_num)]; congr 1; ring
  rw [tinyAfter, abs_signed hv]
  constructor
  · rintro hle ⟨hrne, haway, hdown⟩
    by_cases hm : md = .rne
    · linarith [hrne hm]
    · by_cases ha : awayFrom md neg
      · linarith [haway hm ha]
      · linarith [hdown hm ha]
  · intro hlt
    exact ⟨fun _ => by linarith, fun _ _ => by linarith, fun _ _ => by linarith⟩

/-- Numbers from half the smallest normal value up to it are tiny where the mode, with an unbounded exponent, does not take that
value for them: r quanta with r below 2^(fw + 1). -/
theorem tinyAfter_of_near {f : Fmt} {md : RMode} {neg : Bool} {y : ℝ} {r : Nat} {q : Int} (h : roundsTo md neg y r)
    (hq : lowExpo f = q + f.fw + 1) (hy0 : 0 ≤ y) (hy : y < (2 ^ (f.fw + 1) : Nat)) :
    r < 2 ^ (f.fw + 1) ↔ tinyAfter f md neg (signed neg (y * (2 : ℝ) ^ q)) := by
  have hu : (0 : ℝ) < (2 : ℝ) ^ q := by positivity
  obtain ⟨hrne, haway, hdown⟩ := two_pow_le_roundsTo h (by omega) hy
  have hL : (2 : ℝ) ^ lowExpo f = (2 ^ (f.fw + 1) : Nat) * (2 : ℝ) ^ q := by
    push_cast; rw [two_pow_mul_zpow, hq]; congr 1; push_cast; ring
  have h1 : (2 : ℝ) ^ (lowExpo f - f.fw - 1) = (2 : ℝ) ^ q := by rw [hq]; congr 1; ring
  have h2 : (2 : ℝ) ^ (lowExpo f - f.fw - 2) = 1 / 2 * (2 : ℝ) ^ q := by
    rw [show lowExpo f - f.fw - 2 = q - 1 by rw [hq]; ring, zpow_sub_one₀ (by norm_num)]; ring
  rw [tinyAfter, abs_signed (by positivity), hL, h1, h2, ← sub_mul, ← sub_one_mul, mul_lt_mul_iff_left₀ hu,
    mul_le_mul_iff_left₀ hu, mul_lt_mul_iff_left₀ hu, ← not_le]
  by_cases hm : md = .rne
  · rw [hrne hm, not_le]; simp [-one_div, hm]
  · by_cases ha : awayFrom md neg
    · rw [haway hm ha]; simp [hm, ha]
    · simp only [hm, ha, hdown hm ha, hy, not_false_eq_true, ne_eq, false_imp_iff, true_imp_iff, and_self]

/-- A number is tiny where its magnitude, rounded with an unbounded exponent, lies below the smallest normal value. -/
theorem tiny_iff_tinyAfter {f : Fmt} (md : RMode) (neg : Bool) {v : ℝ} {m : Nat} {e : Int} {st : Bool} (hm : m ≠ 0)
    (hv : exactly v m e st) (hst : st = true → f.fw + 2 ≤ bitLen m) :
    (roundMag f md neg m e st).tiny = true ↔ tinyAfter f md neg (signed neg v) := by
  obtain ⟨hlo, hhi⟩ := exactly_bounds hm hv
  set q : Int := e + bitLen m - (f.fw + 1 : Nat) with hq
  obtain ⟨hround, -⟩ := roundAt_spec md neg hv (q := q) fun h => by have := hst h; omega
  have hv0 : 0 ≤ v := le_trans (by positivity) hlo
  have htiny : (roundMag f md neg m e st).tiny = true ↔
      (if (roundAt md neg m e st q).1 ≥ 2 ^ (f.fw + 1) then q + f.fw + 1 else q + f.fw) < lowExpo f := by
    simp only [roundMag, ← hq, lowExpo, decide_eq_true_eq]
  rw [htiny]
  generalize (roundAt md neg m e st q).1 = r at *
  obtain ⟨hnot, his⟩ := tinyAfter_of_far (f := f) (md := md) (neg := neg) hv0
  rcases lt_trichotomy (lowExpo f) (q + f.fw + 1) with hL | hL | hL
  · have hge : (2 : ℝ) ^ lowExpo f ≤ v := (zpow_le_zpow_right₀ (by norm_num) (by omega)).trans hlo
    exact iff_of_false (by split <;> omega) (hnot hge)
  · have hu : (0 : ℝ) < (2 : ℝ) ^ q := by positivity
    obtain ⟨y, rfl⟩ : ∃ y, v = y * (2 : ℝ) ^ q := ⟨v / (2 : ℝ) ^ q, by field_simp⟩
    rw [mul_div_assoc, div_self hu.ne', mul_one] at hround
    have hy : y < (2 ^ (f.fw + 1) : Nat) := by
      have : (2 : ℝ) ^ (e + bitLen m) = (2 ^ (f.fw + 1) : Nat) * (2 : ℝ) ^ q := by
        push_cast; rw [two_pow_mul_zpow]; congr 1; omega
      rw [this] at hhi
      exact lt_of_mul_lt_mul_right hhi hu.le
    rw [← tinyAfter_of_near hround hL (nonneg_of_mul_nonneg_left hv0 hu) hy]
    split <;> omega
  · have hlt : v < (2 : ℝ) ^ (lowExpo f - 1) := hhi.trans_le (zpow_le_zpow_right₀ (by norm_num) (by omega))
    exact iff_of_true (by split <;> omega) (his hlt)

/-! ### The rounded result (R43, R44, R46) -/

theorem signed_mul_signed (n : Bool) (a b : ℝ) : signed n a * signed n b = a * b := by cases n <;> simp [signed]

/-- How far two numbers of the same sign, or of unlike signs, lie apart. -/
theorem abs_signed_sub (n k : Bool) {a v : ℝ} (ha : 0 ≤ a) (hv : 0 ≤ v) :
    |signed n a - signed k v| = if n = k then |a - v| else a + v := by
  cases n <;> cases k <;> simp only [signed, if_true, if_false, reduceCtorEq, Bool.false_eq_true]
  · rw [sub_neg_eq_add, abs_of_nonneg (by positivity)]
  · rw [← neg_add', abs_neg, abs_of_nonneg (by positivity)]
  · rw [neg_sub_neg, abs_sub_comm]

theorem signCode_even {f : Fmt} (hf : IsIeee f) (n : Bool) : signCode f n % 2 = 0 := by
  obtain ⟨k, hk⟩ : ∃ k, f.ew + f.fw = k + 1 := ⟨f.ew + f.fw - 1, by have := hf.fw; omega⟩
  cases n
  · rfl
  · simp only [signCode, if_true, hk, pow_succ, Nat.mul_mod_left]

/-- The nearest magnitude, with the sign of the number, is the nearest of the numbers of either sign. -/
theorem nearest_signed {f : Fmt} {neg n : Bool} {v : ℝ} {c k : Nat} (hv : 0 < v) (h : ∀ k, |magOf f c - v| ≤ |magOf f k - v| ∧
    (|magOf f c - v| = |magOf f k - v| → magOf f k ≠ magOf f c → c % 2 = 0)) :
    |signed neg (magOf f c) - signed neg v| ≤ |signed n (magOf f k) - signed neg v| ∧
    (|signed neg (magOf f c) - signed neg v| = |signed n (magOf f k) - signed neg v| →
      signed n (magOf f k) ≠ signed neg (magOf f c) → c % 2 = 0) := by
  have hk := magOf_nonneg f k
  rw [abs_signed_sub _ _ (magOf_nonneg f c) hv.le, abs_signed_sub _ _ hk hv.le, if_pos rfl]
  by_cases hn : n = neg
  · subst hn
    rw [if_pos rfl]
    exact ⟨(h k).1, fun he hne => (h k).2 he fun heq => hne (by rw [heq])⟩
  · obtain ⟨hle, htie⟩ := h 0
    rw [magOf_zero, zero_sub, abs_neg, abs_of_pos hv] at hle htie
    rw [if_neg hn]
    refine ⟨by linarith, fun he hne => htie (by linarith) fun hc0 => hne ?_⟩
    have hk0 : magOf f k = 0 := by rw [← hc0, zero_sub, abs_neg, abs_of_pos hv] at he; linarith
    rw [hk0, ← hc0]; cases n <;> cases neg <;> simp [signed]

/-- The code that a mode takes for a magnitude, with the sign of the number, is the code that it takes for the number, where
that is no overflow. -/
theorem nearestCode_of_nearestMag {f : Fmt} (hf : IsIeee f) {md : RMode} {neg : Bool} {v : ℝ} {c : Nat} (hv : 0 < v)
    (hc : c ≤ maxCode f) (h : nearestMag f md neg v c) : nearestCode f md (signed neg v) (c + signCode f neg) := by
  obtain ⟨hfin, -, hval⟩ := fdecode_signCode hf neg hc
  obtain ⟨hrne, haway, hdown⟩ := h
  refine ⟨hfin, fun k hk => ?_⟩
  obtain ⟨n, k', -, hkval⟩ := exists_of_finiteCode hf hk
  have hc0 := magOf_nonneg f c
  have hk0 := magOf_nonneg f k'
  simp only [hval, hkval]
  refine ⟨fun hm => ?_, fun hm => ?_, fun hm => ?_, fun hm => ?_⟩
  · obtain ⟨hle, htie⟩ := nearest_signed (neg := neg) (n := n) (k := k') hv (hrne hm)
    exact ⟨hle, fun he hne => by have := htie he hne; have := signCode_even hf neg; omega⟩
  · obtain ⟨hle, hgreatest⟩ := hdown (by simp [hm]) (by simp [awayFrom, hm])
    rw [abs_signed hc0, abs_signed hv.le, abs_signed hk0, signed_mul_signed]
    exact ⟨hle, by positivity, fun hkv _ => hgreatest _ hkv⟩
  · cases neg
    · obtain ⟨hle, hgreatest⟩ := hdown (by simp [hm]) (by simp [awayFrom, hm])
      refine ⟨hle, fun hkv => ?_⟩
      cases n
      · exact hgreatest _ hkv
      · exact (neg_nonpos.mpr hk0).trans hc0
    · obtain ⟨hle, hleast⟩ := haway (by simp [hm]) (by simp [awayFrom, hm])
      refine ⟨neg_le_neg hle, fun hkv => ?_⟩
      cases n
      · exact absurd (hk0.trans hkv) (not_le.mpr (neg_neg_of_pos hv))
      · exact neg_le_neg (hleast _ (neg_le_neg_iff.mp hkv))
  · cases neg
    · obtain ⟨hle, hleast⟩ := haway (by simp [hm]) (by simp [awayFrom, hm])
      refine ⟨hle, fun hkv => ?_⟩
      cases n
      · exact hleast _ hkv
      · exact absurd (hv.trans_le hkv) (not_lt.mpr (neg_nonpos.mpr hk0))
    · obtain ⟨hle, hgreatest⟩ := hdown (by simp [hm]) (by simp [awayFrom, hm])
      refine ⟨neg_le_neg hle, fun hkv => ?_⟩
      cases n
      · exact (neg_nonpos.mpr hc0).trans hk0
      · exact neg_le_neg (hgreatest _ (neg_le_neg_iff.mp hkv))

theorem overToMax_eq (md : RMode) (neg : Bool) : overToMax md neg = true ↔
    ¬ (md = .rne ∨ (md = .rd ∧ neg = true) ∨ (md = .ru ∧ neg = false)) := by
  cases md <;> cases neg <;> simp [overToMax]

theorem signed_inj {n : Bool} {a b : ℝ} : signed n a = signed n b ↔ a = b := by cases n <;> simp [signed]

/-- An exact magnitude, not zero, rounded to an IEEE format. -/
theorem roundIeee_roundedTo {f : Fmt} (hf : IsIeee f) (md : RMode) (neg : Bool) {v : ℝ} {m : Nat} {e : Int} {st : Bool}
    (hm : m ≠ 0) (hv : exactly v m e st) (hst : st = true → f.fw + 2 ≤ bitLen m) :
    roundedTo f md neg (signed neg v) (roundIeee f md neg m e st) := by
  have hv0 : 0 < v := lt_of_lt_of_le (by positivity) (exactly_bounds hm hv).1
  obtain ⟨hnear, hinex⟩ := roundMag_spec hf md neg hm hv hst
  have htiny := tiny_iff_tinyAfter (f := f) md neg hm hv hst
  have hlt := maxCode_lt_iff_overflows hf hv0.le hnear
  have hhuge : (roundMag f md neg m e st).huge = true ↔ overflows f md neg (signed neg v) :=
    (by simp [roundMag] : _ ↔ maxCode f < (roundMag f md neg m e st).code).trans hlt
  refine ⟨fun ho => ?_, fun ho => ?_⟩
  · rw [roundIeee, if_pos (hhuge.mpr ho)]
    refine ⟨?_, rfl⟩
    by_cases hmode : overToMax md neg = true
    · rw [if_pos hmode, if_neg ((overToMax_eq md neg).mp hmode), Nat.add_comm]
    · rw [if_neg hmode, if_pos (not_not.mp (mt (overToMax_eq md neg).mpr hmode)), Nat.add_comm]
  · have hc : (roundMag f md neg m e st).code ≤ maxCode f := not_lt.mp (mt hlt.mp ho)
    obtain ⟨-, hsign, hval⟩ := fdecode_signCode hf neg hc
    rw [roundIeee, if_neg (mt hhuge.mp ho)]
    refine ⟨nearestCode_of_nearestMag hf hv0 hc hnear, hsign, ?_⟩
    simp only [roundExc, hval, signed_inj, ← htiny]
    refine ⟨fun hs => ?_, fun hs ht => ?_, fun hs ht => ?_⟩
    · rw [if_neg (mt hinex.mp (not_not.mpr hs))]
    · rw [if_pos (hinex.mpr hs), if_pos ht]
    · rw [if_pos (hinex.mpr hs), if_neg ht]

end Sys2Proof.Proofs
end

section
/-! PROOFS. Floating-point arithmetic (O19): exact sums, products, quotients and roots, rounding to an integer, minimum and maximum,
comparison and classes. -/

namespace Sys2Proof.Proofs
open Sys2Proof Sys2Proof.Machine Sys2Proof.Safety Sys2Proof.Laws

/-! ### Exact sums and products (R116) -/

/-- A significand brought to a smaller exponent is the same number. -/
theorem mul_two_pow_toNat (m : Nat) {e e' : Int} (h : e' ≤ e) :
    (m : ℚ) * 2 ^ (e - e').toNat * (2 : ℚ) ^ e' = m * (2 : ℚ) ^ e := by
  rw [mul_assoc, ← zpow_natCast, ← zpow_add₀ (by norm_num)]; congr 2; omega

theorem ite_neg_mul (n : Bool) {a b x y : ℚ} (h : a * x = b * y) : (if n then -a else a) * x = (if n then -b else b) * y := by
  cases n <;> simp [h]

theorem ratOf_num_int (s e : Int) : ratOf (.num (decide (s < 0)) s.natAbs e) = s * (2 : ℚ) ^ e := by
  have habs : ((s.natAbs : Nat) : ℚ) = |(s : ℚ)| := by rw [Nat.cast_natAbs, Int.cast_abs]
  rw [ratOf, habs]
  by_cases hs : s < 0
  · rw [if_pos (by simpa using hs), abs_of_neg (by exact_mod_cast hs), neg_neg]
  · rw [if_neg (by simpa using hs), abs_of_nonneg (by exact_mod_cast not_lt.mp hs)]

theorem ratOf_addNum (md : RMode) (n k : Bool) (m w : Nat) (e d : Int) :
    ratOf (addNum md n m e k w d) = ratOf (.num n m e) + ratOf (.num k w d) := by
  set b := min e d with hb
  set s : Int := (if n then -((m * 2 ^ (e - b).toNat : Nat) : Int) else (m * 2 ^ (e - b).toNat : Nat)) +
    (if k then -((w * 2 ^ (d - b).toNat : Nat) : Int) else (w * 2 ^ (d - b).toNat : Nat)) with hs
  have hsum : (s : ℚ) * (2 : ℚ) ^ b = ratOf (.num n m e) + ratOf (.num k w d) := by
    have h1 := mul_two_pow_toNat m (min_le_left e d)
    have h2 := mul_two_pow_toNat w (min_le_right e d)
    rw [← hb] at h1 h2
    rw [hs, ratOf, ratOf]
    push_cast
    rw [add_mul, ite_neg_mul n h1, ite_neg_mul k h2]
  have haddNum : addNum md n m e k w d = if s = 0 then
      (if m = 0 ∧ w = 0 ∧ n = k then .num n 0 0 else .num (md == .rd) 0 0) else .num (decide (s < 0)) s.natAbs b := rfl
  rw [haddNum, ← hsum]
  split
  case isTrue h0 => rw [h0]; split <;> simp [ratOf]
  case isFalse => exact ratOf_num_int s b

theorem ratOf_mul (n k : Bool) (m w : Nat) (e d : Int) :
    ratOf (.num (n != k) (m * w) (e + d)) = ratOf (.num n m e) * ratOf (.num k w d) := by
  rw [ratOf, ratOf, ratOf, zpow_add₀ (by norm_num)]
  cases n <;> cases k <;> simp <;> ring

/-! ### Quotients and square roots (R116) -/

theorem lt_bitLen_of_two_pow_le {p m : Nat} (h : 2 ^ p ≤ m) : p + 1 ≤ bitLen m := by
  have hm : m ≠ 0 := by have := Nat.two_pow_pos p; omega
  rw [bitLen, if_neg hm]
  exact Nat.succ_le_succ ((Nat.le_log2 hm).mpr h)

/-- Scaled by enough powers of two, a significand has at least b + 1 bits. -/
theorem two_pow_le_scaled {m b k : Nat} (hm : m ≠ 0) (hk : b + 1 ≤ bitLen m + k) : 2 ^ b ≤ m * 2 ^ k := by
  obtain ⟨l, hl, hlo, -⟩ := bitLen_spec hm
  calc 2 ^ b ≤ 2 ^ (l + k) := Nat.pow_le_pow_right (by decide) (by omega)
    _ = 2 ^ l * 2 ^ k := pow_add ..
    _ ≤ m * 2 ^ k := Nat.mul_le_mul_right _ hlo

/-- The quotient of two magnitudes as `divMag` gives it: exact to p bits, with the rest of the division in the sticky bit. -/
theorem divMag_spec (p : Nat) {m w : Nat} (e d : Int) (hm : m ≠ 0) (hw : w ≠ 0) :
    exactly ((m * (2 : ℝ) ^ e) / (w * (2 : ℝ) ^ d)) (divMag p m e w d).1 (divMag p m e w d).2.1 (divMag p m e w d).2.2 ∧
    2 ^ p ≤ (divMag p m e w d).1 := by
  unfold divMag
  set k := p + bitLen w + 1 - min (p + bitLen w + 1) (bitLen m) with hk
  have hw0 : 0 < w := Nat.pos_of_ne_zero hw
  have hwR : (0 : ℝ) < w := by exact_mod_cast hw0
  constructor
  · have hv : (m * (2 : ℝ) ^ e) / (w * (2 : ℝ) ^ d) = ((m * 2 ^ k : Nat) : ℝ) / w * (2 : ℝ) ^ (e - d - k) := by
      push_cast
      rw [zpow_sub₀ (by norm_num), zpow_sub₀ (by norm_num), zpow_natCast]
      field_simp
    have hu : (0 : ℝ) < (2 : ℝ) ^ (e - d - k) := by positivity
    have hdiv : ((m * 2 ^ k : Nat) : ℝ) = w * (m * 2 ^ k / w : Nat) + (m * 2 ^ k % w : Nat) := by
      exact_mod_cast (Nat.div_add_mod _ _).symm
    have hmod : ((m * 2 ^ k % w : Nat) : ℝ) < w := by exact_mod_cast Nat.mod_lt _ hw0
    rw [hv]
    dsimp only
    rcases Nat.eq_zero_or_pos (m * 2 ^ k % w) with h0 | h0
    · rw [h0, bne_self_eq_false, exactly_false, hdiv, h0]; field_simp; simp
    · have h0R : (0 : ℝ) < (m * 2 ^ k % w : Nat) := by exact_mod_cast h0
      rw [show (m * 2 ^ k % w != 0) = true from bne_iff_ne.mpr h0.ne', exactly_true, mul_lt_mul_iff_left₀ hu,
        mul_lt_mul_iff_left₀ hu, lt_div_iff₀ hwR, div_lt_iff₀ hwR]
      constructor <;> linarith
  · obtain ⟨l, hl, -, hhi⟩ := bitLen_spec hw
    rw [Nat.le_div_iff_mul_le hw0]
    calc 2 ^ p * w ≤ 2 ^ p * 2 ^ (l + 1) := Nat.mul_le_mul_left _ hhi.le
      _ = 2 ^ (p + bitLen w) := by rw [hl, ← pow_add]
      _ ≤ m * 2 ^ k := two_pow_le_scaled hm (by omega)

theorem isqrtAux_spec (n : Nat) : ∀ b r : Nat, r * r ≤ n → n < (r + 2 ^ b) * (r + 2 ^ b) →
    isqrtAux n r b * isqrtAux n r b ≤ n ∧ n < (isqrtAux n r b + 1) * (isqrtAux n r b + 1) := by
  intro b
  induction b with
  | zero => exact fun r h1 h2 => ⟨h1, h2⟩
  | succ b ih =>
    intro r h1 h2
    unfold isqrtAux
    split
    case isTrue h => exact ih _ h (by rw [add_assoc, ← Nat.two_mul, ← pow_succ']; exact h2)
    case isFalse h => exact ih _ h1 (not_le.mp h)

/-- The floor of the square root. -/
theorem isqrt_spec (n : Nat) : isqrt n * isqrt n ≤ n ∧ n < (isqrt n + 1) * (isqrt n + 1) := by
  refine isqrtAux_spec n _ 0 (by simp) ?_
  rw [zero_add, ← pow_add]
  rcases Nat.eq_zero_or_pos n with rfl | hn
  · positivity
  · obtain ⟨l, hl, -, hhi⟩ := bitLen_spec hn.ne'
    exact hhi.trans_le (Nat.pow_le_pow_right (by decide) (by omega))

/-- The square root of a magnitude as `sqrtMag` gives it: exact to p bits, with the rest in the sticky bit. -/
theorem sqrtMag_spec (p : Nat) {m : Nat} (e : Int) (hm : m ≠ 0) :
    exactly (Real.sqrt (m * (2 : ℝ) ^ e)) (sqrtMag p m e).1 (sqrtMag p m e).2.1 (sqrtMag p m e).2.2 ∧
    2 ^ p ≤ (sqrtMag p m e).1 := by
  unfold sqrtMag
  set k0 := 2 * p + 2 - min (2 * p + 2) (bitLen m) with hk0
  set k := if (e - (k0 : Int)) % 2 = 0 then k0 else k0 + 1 with hk
  have hk0k : k0 ≤ k := by rw [hk]; split <;> omega
  obtain ⟨j, hj⟩ : ∃ j : Int, e - k = 2 * j := ⟨(e - k) / 2, by rw [hk]; split <;> omega⟩
  obtain ⟨hlo, hhi⟩ := isqrt_spec (m * 2 ^ k)
  dsimp only
  rw [hj, Int.mul_ediv_cancel_left _ (by norm_num)]
  set r := isqrt (m * 2 ^ k) with hr
  constructor
  · have hu : (0 : ℝ) < (2 : ℝ) ^ j := by positivity
    have hv : Real.sqrt (m * (2 : ℝ) ^ e) = Real.sqrt (m * 2 ^ k : Nat) * (2 : ℝ) ^ j := by
      rw [show (m : ℝ) * (2 : ℝ) ^ e = (m * 2 ^ k : Nat) * ((2 : ℝ) ^ j) ^ 2 by
        push_cast
        rw [← zpow_natCast, ← zpow_natCast, ← zpow_mul, mul_assoc, ← zpow_add₀ (by norm_num)]; congr 2; push_cast; omega]
      rw [Real.sqrt_mul (by positivity), Real.sqrt_sq hu.le]
    rw [hv]
    have hloR : (r : ℝ) * r ≤ (m * 2 ^ k : Nat) := by exact_mod_cast hlo
    have hhiR : ((m * 2 ^ k : Nat) : ℝ) < (r + 1) * (r + 1) := by exact_mod_cast hhi
    by_cases heq : r * r = m * 2 ^ k
    · rw [heq, bne_self_eq_false, exactly_false, ← heq, Nat.cast_mul, Real.sqrt_mul_self (by positivity)]
    · have hlt : (r : ℝ) * r < (m * 2 ^ k : Nat) := by exact_mod_cast lt_of_le_of_ne hlo heq
      rw [show (r * r != m * 2 ^ k) = true from bne_iff_ne.mpr heq, exactly_true, mul_lt_mul_iff_left₀ hu,
        mul_lt_mul_iff_left₀ hu, Real.lt_sqrt (by positivity), Real.sqrt_lt (by positivity) (by positivity)]
      constructor <;> nlinarith
  · have hbig : 2 ^ (2 * p + 1) ≤ m * 2 ^ k := two_pow_le_scaled hm (by omega)
    by_contra hc
    have hr1 : r + 1 ≤ 2 ^ p := by omega
    have : (r + 1) * (r + 1) ≤ 2 ^ p * 2 ^ p := Nat.mul_le_mul hr1 hr1
    have hpow : (2 : Nat) ^ (2 * p + 1) = 2 * (2 ^ p * 2 ^ p) := by ring
    omega

/-! ### Rounding to an integer (R118) -/

/-- The integer that a mode takes for a magnitude, with the sign of the number, is the one that it takes for the number. -/
theorem integerFor_of_roundsTo {md : RMode} {n : Bool} {y : ℚ} {k : Nat} (hy : 0 ≤ y) (h : roundsTo md n (y : ℝ) k) :
    integerFor md (if n then -y else y) (if n then -(k : Int) else k) := by
  obtain ⟨hrne, haway, hdown⟩ := h
  have hdown' : md ≠ .rne → ¬ awayFrom md n → (k : ℚ) ≤ y ∧ y < k + 1 := fun hm ha => by exact_mod_cast hdown hm ha
  have haway' : md ≠ .rne → awayFrom md n → y ≤ k ∧ (k : ℚ) < y + 1 := fun hm ha => by exact_mod_cast haway hm ha
  refine ⟨fun hm => ?_, fun hm => ?_, fun hm => ?_, fun hm => ?_⟩
  · symm
    cases n
    · obtain ⟨h1, h2⟩ := hdown' (by simp [hm]) (by simp [awayFrom, hm])
      exact Int.floor_eq_iff.mpr ⟨by simpa using h1, by simpa using h2⟩
    · obtain ⟨h1, h2⟩ := haway' (by simp [hm]) (by simp [awayFrom, hm])
      exact Int.floor_eq_iff.mpr ⟨by simpa using h1, by simp; linarith⟩
  · symm
    cases n
    · obtain ⟨h1, h2⟩ := haway' (by simp [hm]) (by simp [awayFrom, hm])
      exact Int.ceil_eq_iff.mpr ⟨by simp; linarith, by simpa using h1⟩
    · obtain ⟨h1, h2⟩ := hdown' (by simp [hm]) (by simp [awayFrom, hm])
      exact Int.ceil_eq_iff.mpr ⟨by simp; linarith, by simpa using h1⟩
  · obtain ⟨h1, h2⟩ := hdown' (by simp [hm]) (by simp [awayFrom, hm])
    symm
    cases n
    · simp only [if_false, Bool.false_eq_true, not_lt.mpr hy]
      exact Int.floor_eq_iff.mpr ⟨by simpa using h1, by simpa using h2⟩
    · rcases hy.eq_or_lt with rfl | hpos
      · have hk : k = 0 := by have := Nat.cast_nonneg (α := ℚ) k; exact_mod_cast le_antisymm h1 this
        simp [hk]
      · simp only [if_true, neg_lt_zero.mpr hpos]
        exact Int.ceil_eq_iff.mpr ⟨by simp; linarith, by simpa using h1⟩
  · obtain ⟨hle, htie⟩ := hrne hm
    have habs : |((if n then -(k : Int) else k : Int) : ℚ) - (if n then -y else y)| = |(k : ℚ) - y| := by
      cases n
      · simp
      · simp only [if_true, Int.cast_neg, Int.cast_natCast, neg_sub_neg, abs_sub_comm]
    have hcast : |(k : ℝ) - y| = ((|(k : ℚ) - y| : ℚ) : ℝ) := by push_cast; rfl
    rw [hcast, show (1 / 2 : ℝ) = ((1 / 2 : ℚ) : ℝ) by norm_num] at hle htie
    rw [habs]
    refine ⟨Rat.cast_le.mp hle, fun he => ?_⟩
    have := htie (by rw [he])
    cases n <;> simp <;> omega

/-- A magnitude that a finite code stands for rounds to that code in every mode. -/
theorem roundIeee_of_code {f : Fmt} (hf : IsIeee f) (md : RMode) (n : Bool) {m c : Nat} {e : Int} (hm : m ≠ 0)
    (hc : c ≤ maxCode f) (hv : magOf f c = m * (2 : ℝ) ^ e) : (roundIeee f md n m e false).1 = c + signCode f n := by
  obtain ⟨hrne, haway, hdown⟩ := (roundMag_spec hf md n hm (exactly_false.mpr hv) nofun).1
  have hcode : (roundMag f md n m e false).code = c := by
    apply (strictMono_magOf f).injective
    by_cases hmd : md = .rne
    · have := (hrne hmd c).1
      rw [sub_self, abs_zero] at this
      exact sub_eq_zero.mp (abs_nonpos_iff.mp this)
    · by_cases ha : awayFrom md n
      · obtain ⟨h1, h2⟩ := haway hmd ha
        exact le_antisymm (h2 c le_rfl) h1
      · obtain ⟨h1, h2⟩ := hdown hmd ha
        exact le_antisymm h1 (h2 c le_rfl)
  have hhuge : (roundMag f md n m e false).huge = false := by
    have : (roundMag f md n m e false).huge = decide (maxCode f < (roundMag f md n m e false).code) := rfl
    rw [this, hcode, decide_eq_false (not_lt.mpr hc)]
  rw [roundIeee, if_neg (by simp [hhuge]), hcode]

/-- Every integer of at most 24 bits, and 2^24, has an F32 code. -/
theorem exists_code_of_le {k : Nat} (h0 : k ≠ 0) (hk : k ≤ 2 ^ 24) : ∃ c ≤ maxCode fF32, magOf fF32 c = k := by
  obtain ⟨l, -, hlo, hhi⟩ := bitLen_spec h0
  have hl : l ≤ 24 := (Nat.pow_le_pow_iff_right (by decide : 1 < 2)).mp (hlo.trans hk)
  obtain ⟨j, hj⟩ : ∃ j, j = 23 - l := ⟨_, rfl⟩
  have hrlo : 2 ^ 23 ≤ k * 2 ^ j := (Nat.pow_le_pow_right (by decide) (by omega : 23 ≤ l + j)).trans
    (by rw [pow_add]; exact Nat.mul_le_mul_right _ hlo)
  have hrhi : k * 2 ^ j ≤ 2 ^ 24 := by
    rcases Nat.lt_or_ge 23 l with h | h
    · rw [hj, Nat.sub_eq_zero_of_le h.le]; simpa using hk
    · calc k * 2 ^ j ≤ 2 ^ (l + 1) * 2 ^ j := Nat.mul_le_mul_right _ hhi.le
        _ = 2 ^ 24 := by rw [← pow_add]; congr 1; omega
  refine ⟨(149 - j) * 2 ^ 23 + k * 2 ^ j, ?_, ?_⟩
  · have : maxCode fF32 = 0x7F7FFFFF := rfl
    omega
  · have := magOf_significand fF32 (E := 149 - j) (r := k * 2 ^ j) hrhi (.inr hrlo)
    rw [show fF32.fw = 23 from rfl] at this
    rw [this, show fF32.bias = 127 from rfl, Nat.cast_sub (by omega : j ≤ 149)]
    push_cast
    rw [show (149 - (j : Int) + 1 - 127 - 23) = -j by ring, mul_assoc, ← zpow_natCast, ← zpow_add₀ (by norm_num)]
    simp

/-- A code that decodes to a finite number: its sign, its magnitude, and a significand of at most fw + 1 bits. -/
theorem fdecode_eq_num {f : Fmt} (hf : IsIeee f) {k m : Nat} {n : Bool} {e : Int} (h : fdecode f k = .num n m e) :
    k % 2 ^ (f.ew + f.fw) ≤ maxCode f ∧ magOf f (k % 2 ^ (f.ew + f.fw)) = m * (2 : ℝ) ^ e ∧ m < 2 ^ (f.fw + 1) := by
  have hfin : finiteCode f k := by simp [finiteCode, h, isNan, isInf]
  have hc := (finiteCode_iff hf).mp hfin
  rw [fdecode_ieee hf, if_pos hc] at h
  obtain ⟨hsign, hval⟩ := finiteVal_spec f (k.testBit (f.ew + f.fw)) (k % 2 ^ (f.ew + f.fw))
  rw [h] at hsign hval
  rw [ratOf_num, show n = k.testBit (f.ew + f.fw) from hsign, signed_inj] at hval
  refine ⟨hc, hval.symm, ?_⟩
  have hlt := Nat.mod_lt (k % 2 ^ (f.ew + f.fw)) (show 0 < 2 ^ f.fw by positivity)
  have hpow : 2 ^ (f.fw + 1) = 2 ^ f.fw + 2 ^ f.fw := by ring
  unfold finiteVal at h
  split at h <;> (injection h; omega)

/-- The integer that a mode takes for an F32 number has an F32 code. -/
theorem exists_code_of_roundsTo {md : RMode} {n : Bool} {a m r : Nat} {e : Int} (ha : fdecode fF32 a = .num n m e)
    (h : roundsTo md n (m * (2 : ℝ) ^ e) r) (hr : r ≠ 0) : ∃ c ≤ maxCode fF32, magOf fF32 c = r := by
  obtain ⟨hc, hval, hm⟩ := fdecode_eq_num isIeee_F32 ha
  rcases le_or_gt 0 e with he | he
  · refine ⟨_, hc, ?_⟩
    obtain ⟨j, rfl⟩ := Int.eq_ofNat_of_zero_le he
    have hint : (m : ℝ) * (2 : ℝ) ^ (j : Int) = ((m * 2 ^ j : Nat) : ℝ) := by rw [zpow_natCast]; push_cast; rfl
    rw [hint] at h hval
    rw [hval, eq_of_roundsTo h]
  · refine exists_code_of_le hr ?_
    have hy : (m : ℝ) * (2 : ℝ) ^ e ≤ m := mul_le_of_le_one_right (by positivity) (zpow_le_one_of_nonpos₀ (by norm_num) he.le)
    have hfloor := Nat.floor_le_of_le hy
    have hstep := roundsTo_step h (Nat.floor_le (by positivity)) (Nat.lt_floor_add_one _)
    rw [show fF32.fw = 23 from rfl] at hm
    omega

/-- FRND of a finite number: no exception, its sign, and the integer that the mode takes for it. -/
theorem frndF_spec (md : RMode) {n : Bool} {a m : Nat} {e : Int} (ha : fdecode fF32 a = .num n m e) :
    let r := frndF fF32 md (.num n m e)
    r.2 = 0 ∧ signOf (fdecode fF32 r.1) = n ∧ finiteCode fF32 r.1 ∧
      ∃ i : Int, ratOf (fdecode fF32 r.1) = i ∧ integerFor md (ratOf (.num n m e)) i := by
  have hround := (roundAt_spec md n (q := 0) (exactly_false.mpr (rfl : (m : ℝ) * (2 : ℝ) ^ e = _)) nofun).1
  rw [zpow_zero, div_one] at hround
  set k := (roundAt md n m e false 0).1 with hk
  obtain ⟨c, hc, hval, hr⟩ : ∃ c ≤ maxCode fF32, magOf fF32 c = k ∧
      frndF fF32 md (.num n m e) = (c + signCode fF32 n, 0) := by
    by_cases h0 : k = 0
    · exact ⟨0, Nat.zero_le _, by simp [h0], by simp only [frndF, ← hk, if_pos h0, Nat.zero_add]⟩
    · obtain ⟨c, hc, hval⟩ := exists_code_of_roundsTo ha hround h0
      have hcode := roundIeee_of_code isIeee_F32 .rz n (e := 0) h0 hc (by simpa using hval)
      exact ⟨c, hc, hval, by simp only [frndF, ← hk, if_neg h0, hcode]⟩
  obtain ⟨hfin, hsign, hrat⟩ := fdecode_signCode isIeee_F32 n hc
  dsimp only
  rw [hr]
  refine ⟨rfl, hsign, hfin, if n then -(k : Int) else k, ?_, ?_⟩
  · rw [hval] at hrat
    have : ((ratOf (fdecode fF32 (c + signCode fF32 n)) : ℚ) : ℝ) = (((if n then -(k : Int) else k : Int) : ℚ) : ℝ) := by
      rw [hrat]; cases n <;> simp [signed]
    exact_mod_cast this
  · have hx : ratOf (.num n m e) = if n then -((m : ℚ) * (2 : ℚ) ^ e) else m * (2 : ℚ) ^ e := by cases n <;> simp [ratOf]
    rw [hx]
    exact integerFor_of_roundsTo (by positivity) (by push_cast; exact hround)

/-! ### Minimum, maximum and comparison (R117, R119) -/

theorem sigExc_pair (x y : FVal) : sigExc [x, y] = if (isSig x || isSig y) = true then excNV else 0 := by
  simp [sigExc]

theorem fltVal_irrefl (x : FVal) : fltVal x x = false := by
  cases x <;> simp [fltVal]

theorem fltVal_asymm {x y : FVal} (h : fltVal x y = true) : fltVal y x = false := by
  cases x with
  | nan => cases h
  | inf n => cases y <;> simp_all [fltVal]
  | num n m e =>
    cases y with
    | nan => cases h
    | inf k => simp_all [fltVal]
    | num k w d =>
      simp only [fltVal, decide_eq_true_eq, decide_eq_false_iff_not, not_lt] at h ⊢
      rw [min_comm d e]
      exact h.le

/-- Of two numbers one that is below the other, as FMIN and FMAX order them, is not greater, and one that is not is not less. -/
theorem fltVal_of_fbelow (x y : FVal) :
    (fbelow x y = true → fltVal y x = false) ∧ (fbelow x y = false → fltVal x y = false) := by
  unfold fbelow feqVal
  constructor
  · intro h
    rcases Bool.or_eq_true .. ▸ h with h | h
    · exact fltVal_asymm h
    · simp_all
  · intro h
    exact (Bool.or_eq_false_iff.mp h).1

theorem f32_ofNat_toNat (a : Word) : f32 (BitVec.ofNat 32 a.toNat) = f32 a := by rw [BitVec.ofNat_toNat, BitVec.setWidth_eq]

theorem fminmax_exc (f : Fmt) (isMax useNan : Bool) (x y : Nat) :
    (fminmax f isMax useNan x y).2 = sigExc [fdecode f x, fdecode f y] := by
  simp only [fminmax, apply_ite Prod.snd, ite_self]

/-- FMIN and FMAX of two words neither of which is a NaN. -/
theorem fminmax_of_numbers (isMax useNan : Bool) {a b : Word} (ha : isNan (f32 a) = false) (hb : isNan (f32 b) = false) :
    ∃ c, (c = a ∨ c = b) ∧ (fminmax fF32 isMax useNan a.toNat b.toNat).1 = c.toNat ∧
      (isMax = false → fltVal (f32 a) (f32 c) = false ∧ fltVal (f32 b) (f32 c) = false) ∧
      (isMax = true → fltVal (f32 c) (f32 a) = false ∧ fltVal (f32 c) (f32 b) = false) := by
  simp only [f32] at ha hb
  simp only [fminmax, ha, hb, Bool.and_self, if_false, Bool.false_eq_true]
  cases isMax
  · obtain ⟨hyes, hno⟩ := fltVal_of_fbelow (f32 b) (f32 a)
    by_cases h : fbelow (f32 b) (f32 a) = true
    · exact ⟨b, .inr rfl, by simp only [f32] at h; simp [h], fun _ => ⟨hyes h, fltVal_irrefl _⟩, nofun⟩
    · rw [Bool.not_eq_true] at h
      exact ⟨a, .inl rfl, by simp only [f32] at h; simp [h], fun _ => ⟨fltVal_irrefl _, hno h⟩, nofun⟩
  · obtain ⟨hyes, hno⟩ := fltVal_of_fbelow (f32 a) (f32 b)
    by_cases h : fbelow (f32 a) (f32 b) = true
    · exact ⟨b, .inr rfl, by simp only [f32] at h; simp [h], nofun, fun _ => ⟨hyes h, fltVal_irrefl _⟩⟩
    · rw [Bool.not_eq_true] at h
      exact ⟨a, .inl rfl, by simp only [f32] at h; simp [h], nofun, fun _ => ⟨fltVal_irrefl _, hno h⟩⟩

/-- FMIN and FMAX where an operand is a NaN: both or one with `.nan`, and one without. -/
theorem fminmax_of_nan (isMax useNan : Bool) (a b : Word) :
    let r := (fminmax fF32 isMax useNan a.toNat b.toNat).1
    (isNan (f32 a) = true → isNan (f32 b) = true ∨ useNan = true → r = 0x7FC00000) ∧
    (isNan (f32 a) = true → isNan (f32 b) = false → useNan = false → r = b.toNat) ∧
    (isNan (f32 a) = false → isNan (f32 b) = true → useNan = false → r = a.toNat) := by
  simp only [f32, fminmax]
  refine ⟨fun ha h => ?_, fun ha hb hu => ?_, fun ha hb hu => ?_⟩
  · rcases h with hb | hu
    · simp [ha, hb]; rfl
    · simp [ha, hu]; rfl
  · simp [ha, hb, hu]
  · simp [ha, hb, hu]

/-! ### Classification (R120) -/

/-- What an F32 word stands for, by its sign and the bits below. -/
theorem f32_eq (a : Word) : f32 a =
    if a.toNat % 2 ^ 31 < 0x7F800000 then
      (if a.toNat % 2 ^ 31 < 2 ^ 23 then .num (a.toNat.testBit 31) (a.toNat % 2 ^ 23) (-149)
       else .num (a.toNat.testBit 31) (2 ^ 23 + a.toNat % 2 ^ 23) ((a.toNat % 2 ^ 31 / 2 ^ 23 : Nat) - 150))
    else if a.toNat % 2 ^ 23 = 0 then .inf (a.toNat.testBit 31) else .nan (!a.toNat.testBit 22) := by
  have hmod : a.toNat % 2 ^ 31 % 2 ^ 23 = a.toNat % 2 ^ 23 := Nat.mod_mod_of_dvd _ (by decide)
  have hquiet : (a.toNat % 2 ^ 23).testBit (23 - 1) = a.toNat.testBit 22 := by rw [Nat.testBit_mod_two_pow]; simp
  have hfin : a.toNat % 2 ^ 31 ≤ maxCode fF32 ↔ a.toNat % 2 ^ 31 < 0x7F800000 := by
    rw [show maxCode fF32 = 0x7F7FFFFF from rfl]; omega
  have hsub : a.toNat % 2 ^ 31 / 2 ^ 23 = 0 ↔ a.toNat % 2 ^ 31 < 2 ^ 23 := by omega
  have hexp : ∀ k : Int, k - (127 : Nat) - (23 : Nat) = k - 150 := fun k => by omega
  rw [f32, fdecode_ieee isIeee_F32, finiteVal]
  simp only [show fF32.ew = 8 from rfl, show fF32.fw = 23 from rfl, show fF32.bias = 127 from rfl, Nat.reduceAdd, hmod, hquiet,
    hfin, hsub, hexp]
  rfl

/-- The class of an F32 value by the bit that FCLASS sets. -/
def classOf (v : FVal) : Nat :=
  match v with
  | .nan s => if s then 8 else 9
  | .inf n => if n then 0 else 7
  | .num n m _ => if m = 0 then (if n then 3 else 4) else if m < 2 ^ 23 then (if n then 2 else 5) else if n then 1 else 6

theorem fclassF_eq (a : Word) : fclassF fF32 a.toNat = 2 ^ classOf (f32 a) := by
  unfold fclassF classOf f32
  cases fdecode fF32 a.toNat <;> simp only [apply_ite (2 ^ · : Nat → Nat), show fF32.fw = 23 from rfl]

/-- FCLASS sets the bit of the word's class. -/
theorem fclassF_spec (a : Word) : ∃ k, k ≤ 9 ∧ fclassF fF32 a.toNat = 2 ^ k ∧ (8 ≤ k ↔ isNan (f32 a) = true) ∧
    (k = 8 ↔ isSig (f32 a) = true) ∧ (k = 0 ∨ k = 7 ↔ isInf (f32 a) = true) ∧ (k = 3 ∨ k = 4 ↔ isZero (f32 a) = true) ∧
    (k ≤ 3 ↔ isNan (f32 a) = false ∧ signOf (f32 a) = true) ∧
    (k = 2 ∨ k = 5 ↔ 0 < a.toNat % 2 ^ 31 ∧ a.toNat % 2 ^ 31 < 2 ^ 23) ∧
    (k = 1 ∨ k = 6 ↔ 2 ^ 23 ≤ a.toNat % 2 ^ 31 ∧ a.toNat % 2 ^ 31 < 0x7F800000) := by
  have hdiv := Nat.div_add_mod (a.toNat % 2 ^ 31) (2 ^ 23)
  have hmod : a.toNat % 2 ^ 31 % 2 ^ 23 = a.toNat % 2 ^ 23 := Nat.mod_mod_of_dvd _ (by decide)
  have hlt : a.toNat % 2 ^ 23 < 2 ^ 23 := Nat.mod_lt _ (by decide)
  have hge : ¬ 2 ^ 23 + a.toNat % 2 ^ 23 < 2 ^ 23 := by omega
  refine ⟨classOf (f32 a), ?_, fclassF_eq a, ?_⟩
  · unfold classOf
    split <;> repeat' split
    all_goals decide
  rw [f32_eq]
  generalize a.toNat.testBit 31 = n
  generalize a.toNat.testBit 22 = quiet
  by_cases hfin : a.toNat % 2 ^ 31 < 0x7F800000
  · rw [if_pos hfin]
    by_cases hsub : a.toNat % 2 ^ 31 < 2 ^ 23
    · rw [if_pos hsub]
      have hm : a.toNat % 2 ^ 23 = a.toNat % 2 ^ 31 := by omega
      by_cases hz : a.toNat % 2 ^ 23 = 0
      · rw [hz]
        cases n <;> simp [classOf, isNan, isSig, isInf, isZero, signOf] <;> omega
      · simp only [classOf, hz, hlt, if_true, if_false, isNan, isSig, isInf, isZero, signOf]
        cases n <;> simp <;> omega
    · rw [if_neg hsub]
      simp only [classOf, hge, if_false, isNan, isSig, isInf, isZero, signOf]
      cases n <;> simp <;> omega
  · rw [if_neg hfin]
    split
    · cases n <;> simp [classOf, isNan, isSig, isInf, isZero, signOf] <;> omega
    · cases quiet <;> simp [classOf, isNan, isSig, isInf, isZero, signOf] <;> omega

/-! ### Floating-point instructions complete (R27, R28, R114) -/

/-- A per-lane floating-point instruction that is ready completes: `val` is what it computes from the operands of a lane. -/
theorem issue_perLaneFp {op : Nat} {f : Fields} {q : Issue} (lat : Option Nat) (n : Nat) (val : Operands → List Word × Exc)
    (h : Ready op f q) : issue op f (perLaneFp lat n (fun t c x l => val (operandsOf t c f x l)) f) q.s =
      .next (q.computesFp f lat n val) := by
  have hc : q.s1.cur.1 = q.core := by rw [cur_of_ready h]; rfl
  rw [issue_of_ready _ h]
  simp only [perLaneFp, hc, Issue.computesFp, Issue.floats, apply_ite (settled q f)]
  rfl

theorem exec_of_perLaneFp {op : Nat} {f : Fields} {q : Issue} {i : Instr} {lat : Option Nat} {n : Nat}
    {val : Operands → List Word × Exc} (h : Ready op f q)
    (hi : exec i q.s = issue op f (perLaneFp lat n (fun t c x l => val (operandsOf t c f x l)) f) q.s) :
    exec i q.s = .next (q.computesFp f lat n val) :=
  hi.trans (issue_perLaneFp lat n val h)

/-! ### NaNs, infinities and zeros (R116) -/

/-- A NaN operand of a sum: the canonical NaN's value, and NV where an operand is signalling. -/
theorem addVal_nan (md : RMode) {x y : FVal} (h : isNan x = true ∨ isNan y = true) :
    addVal md x y = (.nan false, sigExc [x, y]) := by
  cases x <;> cases y <;> simp_all [addVal, isNan]

theorem mulVal_nan {x y : FVal} (h : isNan x = true ∨ isNan y = true) : mulVal x y = (.nan false, sigExc [x, y]) := by
  cases x <;> cases y <;> simp_all [mulVal, isNan]

theorem fdivF_nan (f : Fmt) (md : RMode) {x y : FVal} (h : isNan x = true ∨ isNan y = true) :
    fdivF f md x y = (nanCode f, sigExc [x, y]) := by
  cases x <;> cases y <;> simp_all [fdivF, isNan]

theorem finish_nan (f : Fmt) (md : RMode) (e : Exc) : finish f md (.nan false, e) = (nanCode f, e) := by
  simp [finish, packVal]

theorem addVal_inf_opposite (md : RMode) (n : Bool) : addVal md (.inf n) (.inf (!n)) = (.nan false, excNV) := by
  simp [addVal]

/-- The exceptions of operands are NV or none. -/
theorem sigExc_eq_excNV (x y : FVal) : sigExc [x, y] = excNV ↔ (isSig x || isSig y) = true := by
  rw [sigExc_pair]; split <;> simp_all [excNV]

theorem fmaVal_inf_zero (md : RMode) (n k : Bool) (e : Int) (z : FVal) :
    fmaVal md (.inf n) (.num k 0 e) z = (.nan false, excNV) := by
  have hadd : addVal md (.nan false) z = (.nan false, sigExc [.nan false, z]) := addVal_nan md (.inl rfl)
  simp only [fmaVal, mulVal, isZero, BEq.rfl, if_true, hadd, Prod.mk.injEq, true_and]
  rw [sigExc_pair, sigExc, show isSig (.nan false) = false from rfl, Bool.false_or]
  simp only [List.any_cons, List.any_nil, Bool.or_false]
  split <;> rfl

/-- The exact sum of a number and its opposite is +0, and -0 under `.rd`. -/
theorem addNum_opposite (md : RMode) (n : Bool) {m : Nat} (e : Int) (hm : m ≠ 0) :
    addNum md n m e (!n) m e = .num (md == .rd) 0 0 := by
  cases n <;> simp [addNum, hm]

theorem fmaVal_num_exc (md : RMode) (n k j : Bool) (m w z : Nat) (e d b : Int) :
    (fmaVal md (.num n m e) (.num k w d) (.num j z b)).2 = 0 := by
  simp [fmaVal, mulVal, addVal, sigExc, isSig]

/-! ### Rounded results of exact values (R43, R44, R46, R116) -/

theorem finish_exact (f : Fmt) (md : RMode) (v : FVal) : finish f md (v, 0) = packVal f md v := by simp [finish]

theorem signed_div (n k : Bool) (a b : ℝ) : signed n a / signed k b = signed (n != k) (a / b) := by
  cases n <;> cases k <;> simp [signed, neg_div, div_neg]

theorem finish_roundedTo {f : Fmt} (hf : IsIeee f) (md : RMode) (n : Bool) {m : Nat} (e : Int) (hm : m ≠ 0) :
    roundedTo f md n ((ratOf (.num n m e) : ℚ) : ℝ) (finish f md (.num n m e, 0)) := by
  rw [finish_exact, packVal, if_neg hm, ratOf_num]
  exact roundIeee_roundedTo hf md n hm (exactly_false.mpr rfl) nofun

theorem fdivF_roundedTo {f : Fmt} (hf : IsIeee f) (md : RMode) (n k : Bool) {m w : Nat} (e d : Int) (hm : m ≠ 0) (hw : w ≠ 0) :
    roundedTo f md (n != k) ((ratOf (.num n m e) / ratOf (.num k w d) : ℚ) : ℝ) (fdivF f md (.num n m e) (.num k w d)) := by
  obtain ⟨hexact, hbits⟩ := divMag_spec (f.fw + 4) e d hm hw
  have hlen := lt_bitLen_of_two_pow_le hbits
  have hpos := Nat.two_pow_pos (f.fw + 4)
  rw [Rat.cast_div, ratOf_num, ratOf_num, signed_div]
  simp only [fdivF, if_neg hw, if_neg hm]
  exact roundIeee_roundedTo hf md _ (by omega) hexact fun _ => by omega

theorem fsqrtF_roundedTo {f : Fmt} (hf : IsIeee f) (md : RMode) {m : Nat} (e : Int) (hm : m ≠ 0) :
    roundedTo f md false (Real.sqrt ((ratOf (.num false m e) : ℚ) : ℝ)) (fsqrtF f md (.num false m e)) := by
  obtain ⟨hexact, hbits⟩ := sqrtMag_spec (f.fw + 4) e hm
  have hlen := lt_bitLen_of_two_pow_le hbits
  have hpos := Nat.two_pow_pos (f.fw + 4)
  rw [ratOf_num]
  simp only [fsqrtF, if_neg hm, if_false, Bool.false_eq_true]
  exact roundIeee_roundedTo hf md false (by omega) hexact fun _ => by omega

/-! ### Comparison (R119) -/

theorem bitVec3_cases : ∀ c : BitVec 3, c = 0 ∨ c = 1 ∨ c = 2 ∨ c = 3 ∨ c = 4 ∨ c = 5 ∨ c = 6 ∨ c = 7 := by decide

theorem feqVal_iff (x y : FVal) : feqVal x y = true ↔
    ¬ (isNan x || isNan y) = true ∧ ¬ fltVal x y = true ∧ ¬ fltVal y x = true := by
  simp [feqVal, and_assoc]

/-- Comparison as FCMP writes it: the condition of R119 and the exceptions. -/
theorem fcmpF_spec (cond : BitVec 3) (x y : FVal) :
    let un := (isNan x || isNan y) = true
    let less := fltVal x y = true
    let more := fltVal y x = true
    let holds := if cond = 0 then ¬ un ∧ ¬ less ∧ ¬ more else if cond = 1 then un ∨ less ∨ more
      else if cond = 2 then less else if cond = 3 then ¬ un ∧ ¬ more else if cond = 4 then more
      else if cond = 5 then ¬ un ∧ ¬ less else if cond = 6 then un else ¬ un
    let raises := if cond = 2 ∨ cond = 3 ∨ cond = 4 ∨ cond = 5 then un else (isSig x || isSig y) = true
    ((fcmpF cond.toNat x y).1 = true ↔ holds) ∧ (raises → (fcmpF cond.toNat x y).2 = excNV) ∧
      (¬ raises → (fcmpF cond.toNat x y).2 = 0) := by
  have hquiet := sigExc_pair x y
  rcases bitVec3_cases cond with rfl | rfl | rfl | rfl | rfl | rfl | rfl | rfl
  case inl => exact ⟨feqVal_iff x y, fun h => hquiet.trans (if_pos h), fun h => hquiet.trans (if_neg h)⟩
  case inr.inl =>
    have hne : ((isNan x || isNan y) || !feqVal x y) = true ↔
        (isNan x || isNan y) = true ∨ fltVal x y = true ∨ fltVal y x = true := by
      rw [Bool.or_eq_true, Bool.not_eq_true', ← Bool.not_eq_true, feqVal_iff]; tauto
    exact ⟨hne, fun h => hquiet.trans (if_pos h), fun h => hquiet.trans (if_neg h)⟩
  all_goals
    refine ⟨?_, fun h => ?_, fun h => ?_⟩ <;> simp_all [fcmpF]

/-! ### O19 -/

/-- FCMP's number: 1 where its condition holds. -/
def fcmpNat (f : Fields) (o : Operands) : Nat × Exc :=
  let r := fcmpF f.mod.toNat (f32 o.a) (f32 o.b)
  (if r.1 then 1 else 0, r.2)

theorem fcmpWord_eq (f : Fields) (o : Operands) :
    oneWord (fcmpWord f.mod.toNat o.a o.b) = ([BitVec.ofNat 32 (fcmpNat f o).1], (fcmpNat f o).2) := by
  simp only [oneWord, fcmpWord, fcmpNat]
  split <;> rfl

/-- Settles O19, in three parts: that the rounded instructions complete, with their NaNs, infinities and zeros; that exact values
are rounded once (`roundIeee_roundedTo`); and FMIN, FMAX, FCMP and FCLASS. -/
theorem floatArithmetic : Obligations.float_arithmetic := by
  unfold Obligations.float_arithmetic
  refine ⟨fun f q => ⟨fun h => exec_of_perLaneFp h rfl, fun h => exec_of_perLaneFp h rfl,
    fun h => exec_of_perLaneFp h rfl, fun h => exec_of_perLaneFp h rfl, fun h => exec_of_perLaneFp h rfl,
    fun h => exec_of_perLaneFp h rfl, fun h => exec_of_perLaneFp h rfl, fun md x y z => ?_⟩,
    fun md n k j m w z e d b => ?_, fun f q => ?_⟩
  -- NaNs, infinities and zeros (R116)
  · refine ⟨fun hnan => ⟨?_, ?_, ?_, ?_⟩, fun n => ?_, fun n k e => ?_, fun n k e d => ⟨?_, rfl⟩, fun n k m e d hm => ?_,
      fun n m e hm => ?_, fun e => rfl⟩
    · rw [addVal_nan md hnan, finish_nan]; rfl
    · rw [mulVal_nan hnan, finish_nan]; rfl
    · rw [fdivF_nan _ md hnan]; rfl
    · rw [addVal_nan md hnan, finish_nan]; exact (sigExc_eq_excNV x y).symm
    · rw [addVal_inf_opposite, finish_nan]; rfl
    · rw [fmaVal_inf_zero, finish_nan]; rfl
    · rfl
    · simp only [fdivF, if_true, if_neg hm]
      cases n <;> cases k <;> rfl
    · simp only [addVal, addNum_opposite md n e hm]
      cases md <;> rfl
  -- exact values rounded once (R43, R44, R46, R116, R118)
  · refine ⟨⟨ratOf_addNum md n k m w e d, rfl, ratOf_mul n k m w e d, rfl, rfl, ?_, fmaVal_num_exc ..⟩,
      fun f hf => ⟨fun hm => ?_, fun hm => finish_roundedTo (isIeee_of_mem hf) md n e hm⟩,
      fun hm hw => fdivF_roundedTo isIeee_F32 md n k e d hm hw, fun hm hn => ?_, fun a ha => frndF_spec md ha⟩
    · exact (ratOf_addNum md (n != k) j (m * w) z (e + d) b).trans (by rw [ratOf_mul])
    · rw [finish_exact, packVal, if_pos hm]
    · subst hn; exact fsqrtF_roundedTo isIeee_F32 md e hm
  -- minimum, maximum, comparison and class (R117, R119, R120)
  · refine ⟨fun o => fminmax fF32 false (f.mod.getLsbD 0) o.a.toNat o.b.toNat,
      fun o => fminmax fF32 true (f.mod.getLsbD 0) o.a.toNat o.b.toNat, fcmpNat f, fun o => fclassF fF32 o.a.toNat,
      fun h => exec_of_perLaneFp h rfl, fun h => exec_of_perLaneFp h rfl, fun h => ?_,
      fun h => exec_of_perLaneFp h rfl, fun o => ⟨?_, ?_, ?_, ?_, ?_, ?_, ?_, fclassF_spec o.a⟩⟩
    · rw [← funext (fcmpWord_eq f)]; exact exec_of_perLaneFp h rfl
    · exact fun h => ⟨(fminmax_exc ..).trans ((sigExc_eq_excNV ..).mpr h), (fminmax_exc ..).trans ((sigExc_eq_excNV ..).mpr h)⟩
    · intro h
      have hnone := (sigExc_pair (f32 o.a) (f32 o.b)).trans (if_neg h)
      exact ⟨(fminmax_exc ..).trans hnone, (fminmax_exc ..).trans hnone⟩
    · intro hun
      obtain ⟨ha, hb⟩ := Bool.or_eq_false_iff.mp (Bool.not_eq_true _ ▸ hun)
      obtain ⟨c, hc, hlo, hmin, -⟩ := fminmax_of_numbers false (f.mod.getLsbD 0) ha hb
      obtain ⟨d, hd, hhi, -, hmax⟩ := fminmax_of_numbers true (f.mod.getLsbD 0) ha hb
      simp only [hlo, hhi, f32_ofNat_toNat]
      obtain ⟨hminA, hminB⟩ := hmin rfl
      obtain ⟨hmaxA, hmaxB⟩ := hmax rfl
      exact ⟨hc.imp (congrArg _) (congrArg _), hd.imp (congrArg _) (congrArg _), hminA, hminB, hmaxA, hmaxB⟩
    · exact fun ha h => ⟨(fminmax_of_nan ..).1 ha h, (fminmax_of_nan ..).1 ha h⟩
    · exact fun ha hb h => ⟨(fminmax_of_nan ..).2.1 ha hb h, (fminmax_of_nan ..).2.1 ha hb h⟩
    · exact fun ha hb h => ⟨(fminmax_of_nan ..).2.2 ha hb h, (fminmax_of_nan ..).2.2 ha hb h⟩
    · obtain ⟨hholds, hraises⟩ := fcmpF_spec f.mod (f32 o.a) (f32 o.b)
      exact ⟨fun h => if_pos (hholds.mpr h), fun h => if_neg (mt hholds.mp h), hraises⟩

end Sys2Proof.Proofs
end

section
/-! PROOFS. Encoding and decoding (O1 to O4). -/

namespace Sys2Proof.Proofs
open Sys2Proof Sys2Proof.Machine Sys2Proof.Safety Sys2Proof.Laws

/-! ### Bytes as a number -/

theorem bytesToNat_lt (bs : List Byte) : bytesToNat bs < 256 ^ bs.length := by
  induction bs with
  | nil => simp [bytesToNat]
  | cons x xs ih =>
    have hx := x.isLt
    rw [bytesToNat, List.length_cons, Nat.pow_succ]
    omega

theorem bytesToNat_natToBytes (n : Nat) : ∀ v : Nat, bytesToNat (natToBytes n v) = v % 256 ^ n := by
  induction n with
  | zero => intro v; simp [natToBytes, bytesToNat, Nat.mod_one]
  | succ n ih =>
    intro v
    rw [natToBytes, bytesToNat, ih, Nat.pow_succ', Nat.mod_mul, BitVec.toNat_ofNat]

theorem natToBytes_bytesToNat {bs : List Byte} {n : Nat} (hn : bs.length = n) : natToBytes n (bytesToNat bs) = bs := by
  subst hn
  induction bs with
  | nil => rfl
  | cons x xs ih =>
    have hx := x.isLt
    have hhead : BitVec.ofNat 8 (x.toNat + 256 * bytesToNat xs) = x := by
      apply BitVec.eq_of_toNat_eq; rw [BitVec.toNat_ofNat]; omega
    rw [bytesToNat, List.length_cons, natToBytes, hhead, show (x.toNat + 256 * bytesToNat xs) / 256 = bytesToNat xs by omega, ih]

/-- The first byte holds the low bits of the number that any longer run of bytes makes. -/
theorem bytesToNat_take_one (bs : List Byte) (n : Nat) : bytesToNat (bs.take 1) = bytesToNat (bs.take (n + 1)) % 256 := by
  cases bs with
  | nil => rfl
  | cons x xs =>
    have hx := x.isLt
    simp only [List.take_succ_cons, List.take_zero, bytesToNat]
    omega

/-! ### The fields of an instruction's words (R56 to R58, R61) -/

theorem scopeOfBits_scopeBits (s : Scope) : scopeOfBits (scopeBits s) = s := by cases s <;> rfl
theorem scopeBits_scopeOfBits : ∀ x : BitVec 2, scopeBits (scopeOfBits x) = x := by decide
theorem lenOfBits_eq_some : ∀ (x : BitVec 2) (len : Len), lenOfBits x = some len ↔ x = lenBits len := by
  intro x len; revert x; cases len <;> decide
theorem bitOf_ofBool (b : Bool) : bitOf (BitVec.ofBool b) = b := by cases b <;> rfl
theorem ofBool_bitOf : ∀ x : BitVec 1, BitVec.ofBool (bitOf x) = x := by decide

theorem scopeBits_injective : Function.Injective scopeBits := Function.LeftInverse.injective scopeOfBits_scopeBits
theorem ofBool_injective : Function.Injective BitVec.ofBool := Function.LeftInverse.injective bitOf_ofBool
theorem lenBits_injective : Function.Injective lenBits := by intro x y; cases x <;> cases y <;> decide

theorem extractLsb'_eq_zero {n : Nat} (w : BitVec n) {a k : Nat} (h : w.toNat < 2 ^ a) : w.extractLsb' a k = 0 := by
  apply BitVec.eq_of_toNat_eq
  rw [BitVec.extractLsb'_toNat, Nat.shiftRight_eq_div_pow, Nat.div_eq_of_lt h]
  simp

/-- Neighbouring slices of a word make one slice. -/
theorem extractLsb'_append {n : Nat} (w : BitVec n) {a k b m : Nat} (h : b = a + k) :
    w.extractLsb' b m ++ w.extractLsb' a k = w.extractLsb' a (m + k) := BitVec.extractLsb'_append_extractLsb'_eq_extractLsb' h

theorem append_inj {n m : Nat} {x x' : BitVec n} {y y' : BitVec m} (h : x ++ y = x' ++ y') : x = x' ∧ y = y' :=
  ⟨by rw [← BitVec.extractLsb'_append_eq_left (a := x) (b := y), h, BitVec.extractLsb'_append_eq_left],
   by rw [← BitVec.extractLsb'_append_eq_right (a := x) (b := y), h, BitVec.extractLsb'_append_eq_right]⟩

/-- The fields that 128 bits hold, of an instruction of length `len`. -/
def slices (len : Len) (w : BitVec 128) : Fields := { fieldsOfWord .w128 w with len := len }

/-- The slices of a word make the word again. -/
theorem encodeFields_slices {len : Len} {w : BitVec 128} (hl : w.extractLsb' 0 2 = lenBits len) :
    encodeFields (opOfWord w) (slices len w) = w := by
  simp only [encodeFields, slices, fieldsOfWord, opOfWord, ofBool_bitOf, scopeBits_scopeOfBits, BitVec.ofNat_toNat,
    BitVec.setWidth_eq, ← hl, beq_self_eq_true, bne_iff_ne, ne_eq, reduceCtorEq, not_false_eq_true, if_true]
  iterate 18 rw [extractLsb'_append]
  · exact BitVec.extractLsb'_eq_self
  all_goals rfl

theorem encodeFields_inj {op op' : Nat} {f f' : Fields} (h : encodeFields op f = encodeFields op' f') :
    BitVec.ofNat 10 op = BitVec.ofNat 10 op' ∧ f = f' := by
  obtain ⟨h, hlen⟩ := append_inj h
  obtain ⟨h, hsw⟩ := append_inj h
  obtain ⟨h, hstall⟩ := append_inj h
  obtain ⟨h, hscope⟩ := append_inj h
  obtain ⟨h, hop⟩ := append_inj h
  obtain ⟨h, hd⟩ := append_inj h
  obtain ⟨h, ha⟩ := append_inj h
  obtain ⟨h, hb⟩ := append_inj h
  obtain ⟨h, hp⟩ := append_inj h
  obtain ⟨h, hpn⟩ := append_inj h
  obtain ⟨h, hra⟩ := append_inj h
  obtain ⟨h, hrb⟩ := append_inj h
  obtain ⟨h, hmod⟩ := append_inj h
  obtain ⟨h, hc⟩ := append_inj h
  obtain ⟨h, hperm⟩ := append_inj h
  obtain ⟨h, hhint⟩ := append_inj h
  obtain ⟨h, hsub⟩ := append_inj h
  obtain ⟨himm, hrsvi⟩ := append_inj h
  refine ⟨hop, ?_⟩
  cases f; cases f'
  simp only [Fields.mk.injEq]
  exact ⟨lenBits_injective hlen, scopeBits_injective hscope, hstall, ofBool_injective hsw, hd, ha, hb, hp, ofBool_injective hpn,
    ofBool_injective hra, ofBool_injective hrb, hmod, hc, hperm, hhint, hsub, hrsvi, himm⟩

theorem extractLsb'_len_encodeFields (op : Nat) (f : Fields) : (encodeFields op f).extractLsb' 0 2 = lenBits f.len :=
  BitVec.extractLsb'_append_eq_right

theorem slices_encodeFields (op : Nat) (f : Fields) : slices f.len (encodeFields op f) = f :=
  (encodeFields_inj (encodeFields_slices (extractLsb'_len_encodeFields op f))).2

theorem opOfWord_encodeFields {op : Nat} (f : Fields) (h : op < 1024) : opOfWord (encodeFields op f) = op := by
  have heq := (encodeFields_inj (encodeFields_slices (extractLsb'_len_encodeFields op f))).1
  have hlt : opOfWord (encodeFields op f) < 1024 := BitVec.isLt _
  have := congrArg BitVec.toNat heq
  simp only [BitVec.toNat_ofNat] at this
  omega

/-- Words that the length leaves out are zero (R61), so a word holds no more bits than the length's bytes. -/
theorem fieldsOfWord_eq_slices {len : Len} {w : BitVec 128} (h : w.toNat < 256 ^ lenBytes len) :
    fieldsOfWord len w = slices len w := by
  have hz : ∀ a k, 8 * lenBytes len ≤ a → w.extractLsb' a k = 0 := fun a k ha =>
    extractLsb'_eq_zero w (Nat.lt_of_lt_of_le h
      (by rw [show 256 = 2 ^ 8 from rfl, ← Nat.pow_mul]; exact Nat.pow_le_pow_right (by decide) ha))
  unfold fieldsOfWord slices
  cases len
  case w64 =>
    simp [fieldsOfWord, hz 64 10 (by decide), hz 74 12 (by decide), hz 86 3 (by decide), hz 89 4 (by decide),
      hz 93 3 (by decide), hz 96 32 (by decide)]
  case w96 => simp [fieldsOfWord, hz 96 32 (by decide)]
  case w128 => simp [fieldsOfWord]

theorem toNat_lt_of_slice_zero {w : BitVec 128} {a k : Nat} (hk : a + k = 128) (h : w.extractLsb' a k = 0) :
    w.toNat < 2 ^ a := by
  have hw := w.isLt
  have hlt : w.toNat / 2 ^ a < 2 ^ k := Nat.div_lt_of_lt_mul (by rw [← Nat.pow_add, hk]; exact hw)
  have hzero : (w.extractLsb' a k).toNat = 0 := by rw [h]; rfl
  rw [BitVec.extractLsb'_toNat, Nat.shiftRight_eq_div_pow, Nat.mod_eq_of_lt hlt] at hzero
  exact (Nat.div_eq_zero_iff_lt (Nat.two_pow_pos a)).mp hzero

theorem encodeFields_lt {op : Nat} {f : Fields} (h : lenFits f = true) : (encodeFields op f).toNat < 256 ^ lenBytes f.len := by
  have hs := slices_encodeFields op f
  generalize encodeFields op f = w at hs
  cases hlen : f.len
  case w128 => exact w.isLt
  case w96 =>
    have himm : w.extractLsb' 96 32 = f.imm := congrArg Fields.imm hs
    have hzero : f.imm = 0 := by simpa [lenFits, hlen] using h
    exact toNat_lt_of_slice_zero rfl (himm.trans hzero)
  case w64 =>
    have hzero : ((((f.c = 0 ∧ f.perm = 0) ∧ f.hint = 0) ∧ f.sub = 0) ∧ f.rsvi = 0) ∧ f.imm = 0 := by
      simpa [lenFits, hlen] using h
    obtain ⟨⟨⟨⟨⟨hc, hperm⟩, hhint⟩, hsub⟩, hrsvi⟩, himm⟩ := hzero
    have hc' : w.extractLsb' 64 10 = 0 := (congrArg Fields.c hs).trans hc
    have hperm' : w.extractLsb' 74 12 = 0 := (congrArg Fields.perm hs).trans hperm
    have hhint' : w.extractLsb' 86 3 = 0 := (congrArg Fields.hint hs).trans hhint
    have hsub' : w.extractLsb' 89 4 = 0 := (congrArg Fields.sub hs).trans hsub
    have hrsvi' : w.extractLsb' 93 3 = 0 := (congrArg Fields.rsvi hs).trans hrsvi
    have himm' : w.extractLsb' 96 32 = 0 := (congrArg Fields.imm hs).trans himm
    have hall : w.extractLsb' 64 64 = w.extractLsb' 96 32 ++ w.extractLsb' 93 3 ++ w.extractLsb' 89 4 ++ w.extractLsb' 86 3 ++
        w.extractLsb' 74 12 ++ w.extractLsb' 64 10 := by
      iterate 5 rw [extractLsb'_append]
      all_goals rfl
    refine toNat_lt_of_slice_zero (a := 64) rfl (hall.trans ?_)
    rw [hc', hperm', hhint', hsub', hrsvi', himm']
    decide

/-! ### An instruction and its opcode and fields (R74) -/

/-- A well-formed instruction with an opcode has fields that pass the checks of that opcode. -/
theorem fieldsOf_of_opcodeOf {i : Instr} {op : Nat} (ho : opcodeOf i = some op) (hw : wellFormed i = true) :
    ∃ f, fieldsOf i = some f ∧ fieldsWellFormed op f = true := by
  cases i with
  | xvset f => cases ho; exact ⟨f, rfl, (Bool.and_eq_true_iff.mp hw).1⟩
  | xvsetRd f => cases ho; exact ⟨f, rfl, (Bool.and_eq_true_iff.mp hw).1⟩
  | _ => cases ho <;> exact ⟨_, rfl, hw⟩

/-- Every instruction is built again of its opcode and fields; MOD tells the two forms of XVSET apart. -/
theorem roundTrip (i : Instr) : RoundTrip.Statement i := by
  cases i with
  | xvset f => exact RoundTrip.xvset f
  | xvsetRd f => exact RoundTrip.xvsetRd f
  | _ => intro _ op f ho hf; cases ho <;> cases hf <;> exact ⟨rfl, by decide, by decide⟩

theorem fieldsWellFormed_iff (op : Nat) (f : Fields) : fieldsWellFormed op f = true ↔ ∃ r, opRow op = some r ∧
    lenRank r.min ≤ lenRank f.len ∧ lenFits f = true ∧ scopeOk r f.scope = true ∧ valuesOk r op f = true ∧ regsOk op f = true := by
  unfold fieldsWellFormed
  cases opRow op <;> simp [and_assoc]

theorem modOk_of_valuesOk {r : OpRow} {op : Nat} {f : Fields} (h : valuesOk r op f = true) : modOk op f = true := by
  simp only [valuesOk, Bool.and_eq_true] at h
  obtain ⟨⟨⟨⟨hmod, -⟩, -⟩, -⟩, -⟩ := h
  exact hmod

/-- XVSET has two forms (R189). -/
theorem mod_of_xvset {f : Fields} (h : fieldsWellFormed 0x2C5 f = true) : f.mod = 0 ∨ f.mod = 1 := by
  obtain ⟨r, -, -, -, -, hvalues, -⟩ := (fieldsWellFormed_iff _ f).mp h
  have hle : f.mod.toNat ≤ 1 := by simpa [modOk] using modOk_of_valuesOk hvalues
  rcases Nat.le_one_iff_eq_zero_or_eq_one.mp hle with h0 | h1
  · exact .inl (BitVec.eq_of_toNat_eq h0)
  · exact .inr (BitVec.eq_of_toNat_eq h1)

/-- What the decoder builds has that opcode and those fields, and is well-formed where they are. -/
theorem opcodeOf_of_buildInstr {i : Instr} {op : Nat} {f : Fields} (h : buildInstr op f = some i)
    (hw : fieldsWellFormed op f = true) : opcodeOf i = some op ∧ fieldsOf i = some f ∧ wellFormed i = true := by
  by_cases hop : op = 0x2C5
  · subst hop
    cases h
    rcases mod_of_xvset hw with h0 | h1
    · rw [if_neg (by rw [h0]; decide)]
      exact ⟨rfl, rfl, by simp [wellFormed, hw, h0]⟩
    · rw [if_pos h1]
      exact ⟨rfl, rfl, by simp [wellFormed, hw, h1]⟩
  · unfold buildInstr at h
    split at h
    any_goals exact absurd rfl hop
    all_goals cases h <;> exact ⟨rfl, rfl, hw⟩

/-! ### The checks of R76 -/

/-- What decodes has passed every check of R76, in order. -/
theorem decodeWord_eq_ok {pv : Priv} {len : Len} {w : BitVec 128} {i : Instr} : decodeWord pv len w = .ok i ↔
    ∃ r, opRow (opOfWord w) = some r ∧ buildInstr (opOfWord w) (fieldsOfWord len w) = some i ∧ lenRank r.min ≤ lenRank len ∧
      scopeOk r (fieldsOfWord len w).scope = true ∧ levelOk pv r (opOfWord w) (fieldsOfWord len w) = true ∧
      valuesOk r (opOfWord w) (fieldsOfWord len w) = true ∧ regsOk (opOfWord w) (fieldsOfWord len w) = true := by
  unfold decodeWord
  dsimp only
  cases opRow (opOfWord w) with
  | none => simp
  | some r =>
    cases buildInstr (opOfWord w) (fieldsOfWord len w) with
    | none => simp
    | some j =>
      rw [show (fieldsOfWord len w).len = len from rfl]
      grind

theorem forall_mem_ite {α : Type} {q : Prop} [Decidable q] {a b : Option α} {P : α → Prop} (ha : ∀ r ∈ a, P r)
    (hb : ∀ r ∈ b, P r) : ∀ r ∈ (if q then a else b), P r := by split <;> assumption

/-- No instruction of the table is above level 2. -/
theorem level_le_of_opRow (op : Nat) : ∀ r ∈ opRow op, r.level ≤ 2 := by
  unfold opRow opRowLow opRowHigh
  repeat' apply forall_mem_ite
  all_goals rintro _ ⟨⟩
  all_goals decide

/-- Every level and the handler slot may run every instruction. -/
theorem levelOk_topPriv {op : Nat} {r : OpRow} (h : opRow op = some r) (f : Fields) : levelOk topPriv r op f = true := by
  have hlevel : r.level ≤ 3 := Nat.le_succ_of_le (level_le_of_opRow op r h)
  have hcsr : ∀ l, ¬ (l ≤ 3 ∧ 3 < l) := fun l => by omega
  simp only [levelOk, slotOk, topPriv, hlevel, decide_true, Bool.or_true, Bool.true_or, Bool.true_and]
  split
  · have := hcsr (f.imm.extractLsb' 12 4).toNat
    grind
  · rfl

theorem lenFits_fieldsOfWord (len : Len) (w : BitVec 128) : lenFits (fieldsOfWord len w) = true := by
  cases len <;> rfl

/-! ### Bytes that are fetched -/

/-- The words of an instruction of length `len` at the head of some bytes. -/
def wordAt (len : Len) (bs : List Byte) : BitVec 128 := BitVec.ofNat 128 (bytesToNat (bs.take (lenBytes len)))

theorem lenBytes_pos (len : Len) : 1 ≤ lenBytes len ∧ lenBytes len ≤ 16 := by cases len <;> decide

theorem wordAt_toNat (len : Len) (bs : List Byte) : (wordAt len bs).toNat = bytesToNat (bs.take (lenBytes len)) ∧
    (wordAt len bs).toNat < 256 ^ lenBytes len := by
  have hlt : bytesToNat (bs.take (lenBytes len)) < 256 ^ lenBytes len :=
    Nat.lt_of_lt_of_le (bytesToNat_lt _) (Nat.pow_le_pow_right (by decide) (List.length_take_le _ _))
  have h128 : (256 : Nat) ^ lenBytes len ≤ 2 ^ 128 := by
    rw [show (2 : Nat) ^ 128 = 256 ^ 16 by decide]; exact Nat.pow_le_pow_right (by decide) (lenBytes_pos len).2
  rw [wordAt, BitVec.toNat_ofNat, Nat.mod_eq_of_lt (Nat.lt_of_lt_of_le hlt h128)]
  exact ⟨rfl, hlt⟩

/-- LEN stands in the first byte (R56). -/
theorem len_wordAt (len : Len) (bs : List Byte) :
    BitVec.ofNat 2 (bytesToNat (bs.take 1)) = (wordAt len bs).extractLsb' 0 2 := by
  obtain ⟨n, hn⟩ := Nat.exists_eq_add_of_le' (lenBytes_pos len).1
  apply BitVec.eq_of_toNat_eq
  rw [BitVec.extractLsb'_toNat, (wordAt_toNat len bs).1, hn, bytesToNat_take_one bs n, BitVec.toNat_ofNat, Nat.shiftRight_zero]
  omega

theorem decode_eq_ok {pv : Priv} {off : Nat} {bs : List Byte} {i : Instr} : decode pv off bs = .ok i ↔
    ∃ len, (wordAt len bs).extractLsb' 0 2 = lenBits len ∧ off + lenBytes len ≤ 32 ∧ decodeWord pv len (wordAt len bs) = .ok i := by
  unfold decode
  cases hlen : lenOfBits (BitVec.ofNat 2 (bytesToNat (bs.take 1))) with
  | none =>
    simp only [reduceCtorEq, false_iff]
    rintro ⟨len, hl, -⟩
    rw [← len_wordAt, ← lenOfBits_eq_some, hlen] at hl
    cases hl
  | some len =>
    have huniq : ∀ l, (wordAt l bs).extractLsb' 0 2 = lenBits l ↔ l = len := fun l => by
      rw [← len_wordAt, ← lenOfBits_eq_some, hlen, Option.some.injEq, eq_comm]
    simp only [huniq, exists_eq_left]
    split
    · simp; omega
    · exact ⟨fun h => ⟨by omega, h⟩, fun h => h.2⟩

theorem encode_eq_some {i : Instr} {bs : List Byte} : encode i = some bs ↔ ∃ op f, opcodeOf i = some op ∧ fieldsOf i = some f ∧
    bs = natToBytes (lenBytes f.len) (encodeFields op f).toNat := by
  unfold encode
  cases opcodeOf i <;> cases fieldsOf i <;> simp [eq_comm]

/-- The words at the head of an instruction's bytes are its words. -/
theorem wordAt_natToBytes {len : Len} {w : BitVec 128} (h : w.toNat < 256 ^ lenBytes len) (rest : List Byte) :
    wordAt len (natToBytes (lenBytes len) w.toNat ++ rest) = w := by
  rw [wordAt, List.take_left' (length_natToBytes ..), bytesToNat_natToBytes, Nat.mod_eq_of_lt h, BitVec.ofNat_toNat,
    BitVec.setWidth_eq]

/-! ### O1 to O4 -/

/-- Settles O1: the decoder is run on each of the five words. -/
theorem decodeWords : Obligations.decode_words := by
  unfold Obligations.decode_words
  decide

/-- Settles O2: the slices of the concatenated fields are the fields again, the opcode's constructor is built again from
them, and a well-formed instruction passes the checks of R76 that the decoder makes. -/
theorem decodeEncode : Obligations.decode_encode := by
  unfold Obligations.decode_encode
  intro i hw
  refine ⟨fun ho => ?_, fun bs rest off he hoff => ?_⟩
  · obtain ⟨op, ho⟩ := Option.ne_none_iff_exists'.mp ho
    obtain ⟨f, hf, -⟩ := fieldsOf_of_opcodeOf ho hw
    exact Option.ne_none_iff_exists'.mpr ⟨_, encode_eq_some.mpr ⟨op, f, ho, hf, rfl⟩⟩
  · obtain ⟨op, f, ho, hf, rfl⟩ := encode_eq_some.mp he
    obtain ⟨g, hg, hwf⟩ := fieldsOf_of_opcodeOf ho hw
    obtain rfl : g = f := Option.some.inj (hg.symm.trans hf)
    obtain ⟨hb, hop, -⟩ := roundTrip i hw op g ho hf
    obtain ⟨r, hr, hmin, hfits, hscope, hvalues, hregs⟩ := (fieldsWellFormed_iff op g).mp hwf
    have hlt := encodeFields_lt (op := op) hfits
    have hfields : fieldsOfWord g.len (encodeFields op g) = g := by rw [fieldsOfWord_eq_slices hlt, slices_encodeFields]
    rw [length_natToBytes] at hoff
    refine decode_eq_ok.mpr ⟨g.len, ?_, hoff, ?_⟩
    · rw [wordAt_natToBytes hlt, extractLsb'_len_encodeFields]
    · rw [wordAt_natToBytes hlt, decodeWord_eq_ok, opOfWord_encodeFields g hop, hfields]
      exact ⟨r, hr, hb, hmin, hscope, levelOk_topPriv hr g, hvalues, hregs⟩

/-- Settles O3: what has passed the decoder's checks is well-formed, and the concatenated slices of the words that were
fetched are those words. -/
theorem encodeDecode : Obligations.encode_decode := by
  unfold Obligations.encode_decode
  intro pv off bs i h
  obtain ⟨len, hl, hoff, hd⟩ := decode_eq_ok.mp h
  obtain ⟨r, hr, hb, hmin, hscope, -, hvalues, hregs⟩ := decodeWord_eq_ok.mp hd
  obtain ⟨hnat, hlt⟩ := wordAt_toNat len bs
  obtain ⟨ho, hf, hw⟩ := opcodeOf_of_buildInstr hb
    ((fieldsWellFormed_iff _ _).mpr ⟨r, hr, hmin, lenFits_fieldsOfWord len _, hscope, hvalues, hregs⟩)
  have hcs : encodeFields (opOfWord (wordAt len bs)) (fieldsOfWord len (wordAt len bs)) = wordAt len bs := by
    rw [fieldsOfWord_eq_slices hlt, encodeFields_slices hl]
  refine ⟨hw, natToBytes (lenBytes len) (wordAt len bs).toNat, encode_eq_some.mpr ⟨_, _, ho, hf, by rw [hcs]; rfl⟩, ?_, ?_⟩
  · rw [length_natToBytes]; exact hoff
  · rw [length_natToBytes, hnat]
    intro hle
    exact (natToBytes_bytesToNat (List.length_take_of_le hle)).symm

/-- Settles O4: the check of the fetch block comes before every other field, and the check of the level next after those of the
length and the scope. -/
theorem frontEndRefusals : Obligations.front_end_refusals := by
  unfold Obligations.front_end_refusals
  refine ⟨fun pv off bs len hl => ⟨fun h => ⟨?_, rfl⟩, ?_⟩, fun pv len w r i hr hb hmin hscope hpv => ⟨?_, rfl⟩⟩
  · simp [decode, hl, h]
  · cases len <;> simp only [lenBytes] <;> omega
  · have hlevel : levelOk pv r (opOfWord w) (fieldsOfWord len w) = false := by
      rcases hpv with h | ⟨h1, h2, h3⟩
      · simp [levelOk, Nat.not_le.mpr h]
      · have hslot : slotOk pv r (opOfWord w) = false := by
          simp only [slotOk, h1, h2, Bool.not_true, Bool.false_or, Bool.and_eq_false_iff, beq_eq_false_iff_ne]
          tauto
        simp [levelOk, hslot]
    have hlen : ¬ lenRank (fieldsOfWord len w).len < lenRank r.min := Nat.not_lt.mpr hmin
    simp [decodeWord, hr, hb, hlen, hscope, hlevel]

end Sys2Proof.Proofs
end

section
/-! PROOFS. Fetching, and the step of a context that issues (O5, O6). -/

namespace Sys2Proof.Proofs
open Sys2Proof Sys2Proof.Machine Sys2Proof.Safety Sys2Proof.Laws

/-! ### The step of a context that is the next to move -/

/-- The state in which a context that is the next to move issues: it has left the agenda, and its group has chosen. -/
def toIssue (s : State) (c x : Nat) (rest : List Agent) : State :=
  updGroup { s with agenda := rest } c x (chosen { s with agenda := rest } c x)

/-- A step of a context that is the next to move (log 1) is its issue, in its slot's turn. -/
theorem step_of_issue {s : State} {c x : Nat} {rest : List Agent} (ha : s.agenda = .issue c x :: rest) (hup : moduleUp s = true) :
    step s = thenChoose (inTurn (toIssue s c x rest) c (issueOnce c x (toIssue s c x rest))) := by
  have hup' : moduleUp { s with agenda := rest } = true := hup
  simp [step, nextMove, ha, runAgent, runIssue, hup', toIssue]

/-- The running entry of a group is one that may fetch in this cycle (R62, R226). -/
structure MayFetch (s : State) (c x : Nat) (e : Entry) : Prop where
  live    : (getGroup s c x).live = true
  runs    : (getGroup s c x).stop = .run
  running : runningEntry (getGroup s c x) = some e
  stall   : e.notBefore ≤ now s c
  cycle   : (getGroup s c x).lastIssue ≤ now s c

section
variable {s : State} {c x : Nat} {e : Entry} (h : MayFetch s c x e)
include h

theorem fetchNext_of_misaligned (hal : e.pc.toNat % 4 ≠ 0) : fetchNext s c x = .idle (fetchTrap s c x clsAL e.pc) := by
  simp [fetchNext, h.live, h.runs, h.running, Nat.not_lt.mpr h.stall, Nat.not_lt.mpr h.cycle, hal]

theorem fetchNext_of_nonvirtual (hal : e.pc.toNat % 4 = 0) (hva : signExtended e.pc = false) :
    fetchNext s c x = .idle (fetchTrap s c x clsTP e.pc) := by
  simp [fetchNext, h.live, h.runs, h.running, Nat.not_lt.mpr h.stall, Nat.not_lt.mpr h.cycle, hal, hva]

/-- An address that translates, to bytes that decode: the instruction runs (R62, R76). -/
theorem fetchNext_of_decoded (hal : e.pc.toNat % 4 = 0) (hva : signExtended e.pc = true) {s2 : State} {pa : Nat}
    (htr : translate s c x e.pc 0 = (s2, .pa pa)) {block : List Byte} {i : Instr}
    (hblock : (fetchBlock (useWalks s2 c x 0 [pageOf e.pc]) c pa).2 = some block)
    (hdec : decode (privOf (getGroup s c x) x) (pa % 32) (block.drop (pa % 32)) = .ok i) :
    fetchNext s c x = .run i { (fetchBlock (useWalks s2 c x 0 [pageOf e.pc]) c pa).1 with cur := (c, x) } := by
  have hpair : fetchBlock (useWalks s2 c x 0 [pageOf e.pc]) c pa =
      ((fetchBlock (useWalks s2 c x 0 [pageOf e.pc]) c pa).1, some block) := by rw [← hblock]
  simp only [fetchNext, h.live, h.runs, h.running, Nat.not_lt.mpr h.stall, Nat.not_lt.mpr h.cycle, hal, hva, htr]
  rw [hpair]
  simp [hdec]

end

/-- A block that is not buffered is fetched from memory (R60, R278). -/
theorem fetchBlock_of_unbuffered {s : State} {c pa : Nat} {block : List Byte} (hbuf : mget [] (getCore s c).ibuf (pa / 32) = [])
    (hblock : (fetchBlock s c pa).2 = some block) : block = readBytes s.mem (pa / 32 * 32) 32 := by
  simp only [fetchBlock, hbuf] at hblock
  split at hblock
  · cases hblock
  · exact (Option.some.inj hblock).symm

/-! ### The turn of an issue slot (R226) -/

/-- A move that uses no issue slot is not held up. -/
theorem hasTurn_of_no_slot {s t : State} {c : Nat} (h : slotsTaken s t c = []) : hasTurn s t c = true := by
  unfold hasTurn
  split <;> simp [h]

/-- In a core with no other context than the one that has issued, nothing holds it up. -/
theorem hasTurn_of_alone {s t : State} {c : Nat} (h : ∀ z g, (z, g) ∈ (getCore s c).groups → some z = issuedFor s t c) :
    hasTurn s t c = true := by
  unfold hasTurn
  split
  case h_1 => rfl
  case h_2 y hy =>
    have hall : ∀ z ∈ (getCore s c).groups.map (·.1), z = y := fun z hz => by
      obtain ⟨q, hq, rfl⟩ := List.mem_map.mp hz
      exact Option.some.inj ((h q.1 q.2 hq).trans hy)
    simp only [Bool.or_eq_true, List.all_eq_true]
    exact .inr fun z hz => .inl (by rw [hall z hz]; exact beq_self_eq_true y)

theorem handlerFault_slots (k : Core) : (handlerFault k).slots = k.slots := by
  unfold handlerFault
  dsimp only
  split <;> rfl

/-- Raising a trap uses no issue slot. -/
theorem raiseTrap_slots (s : State) (c : Nat) (r : TrapReq) : (getCore (raiseTrap s c r) c).slots = (getCore s c).slots := by
  unfold raiseTrap
  split
  · rw [getCore_updCore_same, handlerFault_slots]; rfl
  · rw [getCore_updCore_same, updSlots_core]; rfl

theorem slotsTaken_raiseTrap (s : State) (c : Nat) (r : TrapReq) : slotsTaken s (raiseTrap s c r) c = [] := by
  simp only [slotsTaken, raiseTrap_slots, List.filter_eq_nil_iff, Bool.and_eq_true, decide_eq_true_eq]
  omega

/-- A context whose fetch traps. -/
theorem step_of_fetchTrap {s : State} {c x cls : Nat} {pc : Dword} {rest : List Agent} (ha : s.agenda = .issue c x :: rest)
    (hup : moduleUp s = true) (hf : fetchNext (toIssue s c x rest) c x = .idle (fetchTrap (toIssue s c x rest) c x cls pc)) :
    step s = .next (chooseAll (feedEngines (fetchTrap (toIssue s c x rest) c x cls pc))) := by
  have hturn : hasTurn (toIssue s c x rest) (fetchTrap (toIssue s c x rest) c x cls pc) c = true :=
    hasTurn_of_no_slot (slotsTaken_raiseTrap ..)
  rw [step_of_issue ha hup, issueOnce, hf, inTurn, if_pos hturn, thenChoose]

/-! ### O5 and O6 -/

/-- Settles O5: the fetch comes to the decoded instruction, and the step to its execution in the slot's turn. -/
theorem stepRunsDecoded : Obligations.step_runs_decoded := by
  unfold Obligations.step_runs_decoded
  intro s s2 c x rest e pa block i s1 s0 g u r ha hup hlive hstop hrun hnb hlast hal hva htr hblock hdec v
  have hmay : MayFetch s0 c x e := ⟨hlive, hstop, hrun, hnb, hlast⟩
  have hstep : step s = thenChoose (inTurn s0 c (exec i v)) := by
    rw [step_of_issue ha hup, issueOnce, show toIssue s c x rest = s0 from rfl,
      fetchNext_of_decoded hmay hal hva htr hblock hdec]
  refine ⟨hstep, fun t ht => ⟨fun hturn => ?_, hasTurn_of_no_slot, hasTurn_of_alone⟩,
    fun hbuf => fetchBlock_of_unbuffered hbuf hblock⟩
  rw [hstep, ht, inTurn, if_pos hturn, thenChoose]

/-- Settles O6: the fetch raises the trap before it reads any byte, and a trap uses no issue slot, so its turn is never another's. -/
theorem fetchAlignment : Obligations.fetch_alignment := by
  unfold Obligations.fetch_alignment
  intro s c x rest e s1 s0 g ha hup hlive hstop hrun hnb hlast
  have hmay : MayFetch s0 c x e := ⟨hlive, hstop, hrun, hnb, hlast⟩
  exact ⟨fun hal => step_of_fetchTrap ha hup (fetchNext_of_misaligned hmay hal),
    fun hal hva => step_of_fetchTrap ha hup (fetchNext_of_nonvirtual hmay hal hva)⟩

end Sys2Proof.Proofs
end

section
/-! PROOFS. Going on, the register bound, and the movement of lanes (O11, O17). -/

namespace Sys2Proof.Proofs
open Sys2Proof Sys2Proof.Machine Sys2Proof.Safety Sys2Proof.Laws

/-! ### Going on at the next instruction (R55, R67) -/

/-- An entry alone at its address leaves an empty frontier behind and merges with none. -/
theorem advance_alone {g : Group} {pc next : Dword} {e : Entry} (nb : Nat) (hf : g.frontier = [e]) (hpc : e.pc = pc)
    (hpark : e.park = .none) : advance g false pc next nb = { g with
      frontier := [{ e with pc := next, park := .none, wait := .none, settle := false, notBefore := nb }]
      running := some next } := by
  have hissue : issuingEntry g false pc = some e := by simp [issuingEntry, hf, isIssuing, hpc, hpark, isParked]
  have hdrop : dropIssuing g false pc = { g with frontier := [] } := by simp [dropIssuing, hissue, hf]
  simp [advance, hissue, hdrop, freeEntryAt]

theorem nextCycle_of_not_interlocked {s : State} {c x : Nat} (f : Fields) (hil : (getGroup s c x).il = false)
    (hx : x < handlerCtx) : nextCycle s c x f = now s c + 1 + f.stall.toNat := by
  simp [nextCycle, interlocked, hil, hx]

/-! ### The register bound (R18, R281) -/

/-- An instruction of lane scope that may issue and names a register outside the allotment traps with class RB. -/
theorem issue_of_outOfBound {op : Nat} {f : Fields} (body : Dword → Members → State → Res) {s : State} {e : Entry} {r : Nat}
    (hscope : f.scope = .lane) (hrun : runningEntry (getGroup s s.cur.1 s.cur.2) = some e)
    (hdep : depCheck s s.cur.1 s.cur.2 op f e = .go) (hout : outOfBound (getGroup s s.cur.1 s.cur.2) op f = some r)
    (hslot : (slotUse s s.cur.1 f e.pc [memberOf s s.cur.1 f e.pc false s.cur.2]).isSome = true) :
    issue op f body s = .next (raiseTrap s s.cur.1
      { cls := clsRB, info := BitVec.ofNat 32 r, pc := e.pc, slots := [s.cur.2], origin := s.cur.2 }) := by
  have hrb : rbOf (getCore s s.cur.1) op f [s.cur.2] = some (s.cur.2, r) := by
    rw [rbOf, show (getCore s s.cur.1).group s.cur.2 = getGroup s s.cur.1 s.cur.2 from rfl, hout]
  simp [issue, hrun, hdep, hscope, hslot, issueNow, hrb, stopLanes]

/-- Settles O11: the frontier of an entry alone is followed through its removal and re-entry; the bound is checked before the
instruction's effect, and a trap at lane scope leaves the entry at the instruction. -/
theorem goingOnAndBounds : Obligations.going_on_and_bounds := by
  unfold Obligations.going_on_and_bounds
  refine ⟨fun g pc next e nb hf hpc hpark _ => ?_, fun op f body s e r hscope hrun hdep hout _ hslot =>
    issue_of_outOfBound body hscope hrun hdep hout hslot⟩
  rw [advance_alone nb hf hpc hpark]
  exact ⟨rfl, rfl, fun s c x f => nextCycle_of_not_interlocked f⟩

/-! ### PERM, SHUF and SREAD (R106, R107, R108) -/

theorem core_of_ready {op : Nat} {f : Fields} {q : Issue} (h : Ready op f q) : q.s1.cur.1 = q.core := by
  rw [cur_of_ready h]; rfl

theorem exec_perm {f : Fields} {q : Issue} (h : Ready 0x040 f q) :
    exec (.perm f) q.s = .next (q.computesElems f (some 4) 1 (fun e => [permWord q.s1 q.core f (q.elems f) e])) := by
  change issue 0x040 f (performPerm f) q.s = _
  rw [issue_of_ready _ h, performPerm, core_of_ready h]
  rfl

theorem exec_shuf {f : Fields} {q : Issue} (h : Ready 0x041 f q) :
    exec (.shuf f) q.s = .next (q.computesElems f none 1 (fun e => [shufWord q.s1 q.core f (q.elems f) e])) := by
  change issue 0x041 f (performShuf f) q.s = _
  rw [issue_of_ready _ h, performShuf, core_of_ready h]
  rfl

/-- SREAD's values are those of the state in which it takes effect, whatever its earlier members' results have changed. -/
theorem exec_sread {f : Fields} {q : Issue} (h : Ready 0x042 f q) :
    exec (.sread f) q.s = .next (q.onward f (postResults q.s1 q.core f (q.members f) none (if f.a = 0x10 then 2 else 1)
      (fun _ x l => sreadWords q.s1 q.core x f.a.toNat l))) := by
  change issue 0x042 f (performSread f) q.s = _
  rw [issue_of_ready _ h, performSread, core_of_ready h]
  rfl

/-- `permsrc` of R63 with the lane's place in its segment named. -/
theorem permLane_eq (cls z d w l : Nat) : permLane cls z d w l = l - l % min (2 ^ z) w +
    (if cls = 1 then (l % min (2 ^ z) w + d % min (2 ^ z) w) % min (2 ^ z) w
     else if cls = 2 then l % min (2 ^ z) w ^^^ (d % min (2 ^ z) w) else d % min (2 ^ z) w) := by
  have hle : l % min (2 ^ z) w ≤ l := Nat.mod_le _ _
  simp only [permLane, Nat.sub_sub_self hle]
  split_ifs <;> rfl

/-- PERM's word of an element below set scope (R63, R106). -/
theorem permWord_of_ne_set {s : State} {c : Nat} {f : Fields} (es : List Elem) (e : Nat) (h : f.scope ≠ .set) :
    permWord s c f es e = readReg s c (elemAt es e).slot fldA f.a (permLane (permClass f.perm) (permSeg f.perm)
      (permDistOf s c f (elemAt es e)) (widthOf s c (elemAt es e).slot) (elemAt es e).lane) := if_neg h

/-- The source element of PERM at set scope (R106): class 2 keeps the own element where the source lies beyond the segment. -/
theorem permElem_eq (cls z d total e : Nat) :
    let sg := min (2 ^ z) total
    let b0 := e - e % sg
    let n := min sg (total - b0)
    permElem cls z d total e = (if cls = 1 then b0 + (e - b0 + d % n) % n
      else if cls = 2 then (if b0 + ((e - b0) ^^^ (d % n)) < b0 + n then b0 + ((e - b0) ^^^ (d % n)) else e)
      else b0 + d % n) := by
  intro sg b0 n
  unfold permElem
  simp only [← Nat.not_lt, ite_not]
  rfl

/-- SHUF's source element by its mode (R107): the own element where the source is out of range. -/
theorem shufSource_getD (mod b total e : Nat) : (shufSource mod b total e).getD e =
    if mod = 0 then b % total else if mod = 1 then (if b ≤ e then e - b else e)
    else if mod = 2 then (if e + b < total then e + b else e) else (if e ^^^ (b % 64) < total then e ^^^ (b % 64) else e) := by
  unfold shufSource
  simp only [← Nat.not_lt, ite_not]
  split_ifs <;> rfl

/-- Settles O17: the words are `permWord`, `shufWord` and `sreadWords` of the state in which the instruction takes effect, each
read off by the case of its definition. -/
theorem laneMovement : Obligations.lane_movement := by
  unfold Obligations.lane_movement
  intro f q
  refine ⟨permWord q.s1 q.core f (q.elems f), shufWord q.s1 q.core f (q.elems f), fun x l => sreadWords q.s1 q.core x f.a.toNat l,
    exec_perm, exec_shuf, exec_sread, fun e => ⟨fun hscope => ?_, fun hscope => ?_⟩, fun e => ⟨?_, ?_, ?_, ?_⟩, fun x l => ?_⟩
  · rw [permWord_of_ne_set _ _ hscope, permLane_eq]
    rfl
  · rw [permWord, if_pos hscope, permElem_eq]
    rfl
  · intro hmod; rw [shufWord, shufSource_getD, hmod]; rfl
  · intro hmod; rw [shufWord, shufSource_getD, hmod]; rfl
  · intro hmod; rw [shufWord, shufSource_getD, hmod]; rfl
  · intro hmod; rw [shufWord, shufSource_getD, hmod]; rfl
  · refine ⟨?_, ?_, ?_, ?_, ?_, ?_, ?_, ?_, ?_, ?_, ?_, ?_, ?_, ?_, ?_, ?_, ?_⟩ <;> intro ha <;> rw [ha]
    case refine_7.refine_8 | refine_7.refine_9 =>
      rw [getGroup]
      cases hset : ((getCore q.s1 q.core).group x).setId <;> simp [sreadWords, hset]
    all_goals rfl

end Sys2Proof.Proofs
end

section
/-! PROOFS. What an instruction leaves as it was (O58). -/

namespace Sys2Proof.Proofs
open Sys2Proof Sys2Proof.Machine Sys2Proof.Safety Sys2Proof.Laws

/-! ### A group whose entries move -/

/-- What becomes of a group when its entries go on, are parked, wait or are stopped: its frontier, the choice among its
entries and its stop state change, and what its issue leaves behind (R23, R140, R226, R274). -/
def Shifts (g h : Group) : Prop :=
  h = { g with frontier := h.frontier, running := h.running, yielded := h.yielded, stop := h.stop, gave := h.gave,
               lastIssue := h.lastIssue, latchA := h.latchA, latchB := h.latchB, seen := h.seen, dones := h.dones }

theorem Shifts.refl (g : Group) : Shifts g g := rfl

theorem Shifts.trans {g h k : Group} (h1 : Shifts g h) (h2 : Shifts h k) : Shifts g k := by
  unfold Shifts at h2 ⊢
  rw [h1] at h2
  exact h2

/-- What such a group keeps. -/
theorem Shifts.keeps {g h : Group} (hs : Shifts g h) :
    keepsPlace g h ∧ h.regs = g.regs ∧ h.pend = g.pend ∧ h.fpflags = g.fpflags ∧ h.live = g.live := by
  rw [hs]
  exact ⟨⟨rfl, rfl, rfl, rfl, rfl, rfl, rfl, rfl, rfl, rfl, rfl, rfl, rfl, rfl, rfl, rfl⟩, rfl, rfl, rfl, rfl⟩

theorem shifts_choose (g : Group) : Shifts g (choose g) := rfl

theorem shifts_updEntry (g : Group) (pc : Dword) (h : Entry → Entry) : Shifts g (updEntry g pc h) := rfl

theorem shifts_enter (g : Group) (pc : Dword) (m : Mask) (prio nb : Nat) : Shifts g (enter g pc m prio nb) := by
  unfold enter
  split
  · rfl
  · split <;> rfl

theorem shifts_dropIssuing (g : Group) (wide : Bool) (pc : Dword) : Shifts g (dropIssuing g wide pc) := by
  unfold dropIssuing
  split <;> rfl

theorem shifts_advance (g : Group) (wide : Bool) (pc next : Dword) (nb : Nat) : Shifts g (advance g wide pc next nb) := by
  unfold advance
  split
  · rfl
  · refine (shifts_dropIssuing g wide pc).trans ?_
    dsimp only
    split
    · exact (shifts_enter ..).trans (shifts_choose _)
    · rfl

theorem shifts_waitEntry (g : Group) (pc : Dword) (w : Wait) : Shifts g (waitEntry g pc w) :=
  (shifts_updEntry ..).trans (shifts_choose _)

theorem shifts_parkEntry (g : Group) (wide : Bool) (pc at' : Dword) (p : Park) (nb : Nat) :
    Shifts g (parkEntry g wide pc at' p nb) := rfl

theorem shifts_stopGroup (id : Nat) (g : Group) : Shifts g (stopGroup id g) := rfl

theorem shifts_learnDones (rs : List (Nat × Nat)) (g : Group) : Shifts g (learnDones rs g) := by
  unfold learnDones
  split <;> rfl

theorem shifts_markIssued (s : State) (c op : Nat) (f : Fields) (g : Group) : Shifts g (markIssued s c op f g) :=
  (shifts_learnDones (readRuns op f ++ accReads op f) g).trans rfl

/-! ### A core whose groups shift -/

/-- What becomes of a core when the entries of the groups `xs` move: groups shift, those outside `xs` with their frontier and
stop state as they were; traps are raised, and issue slots used. -/
structure CoreShifts (xs : List Nat) (k k' : Core) : Prop where
  rest   : k' = { k with groups := k'.groups, raised := k'.raised, slots := k'.slots }
  group  : ∀ y, Shifts (k.group y) (k'.group y)
  others : ∀ y, y ∉ xs → (k'.group y).frontier = (k.group y).frontier ∧ (k'.group y).stop = (k.group y).stop

theorem CoreShifts.refl (xs : List Nat) (k : Core) : CoreShifts xs k k := ⟨rfl, fun _ => rfl, fun _ _ => ⟨rfl, rfl⟩⟩

theorem CoreShifts.trans {xs : List Nat} {k k1 k2 : Core} (h1 : CoreShifts xs k k1) (h2 : CoreShifts xs k1 k2) :
    CoreShifts xs k k2 where
  rest := by
    have h := h2.rest
    rw [h1.rest] at h
    exact h
  group y := (h1.group y).trans (h2.group y)
  others y hy := ⟨((h2.others y hy).1.trans (h1.others y hy).1), ((h2.others y hy).2.trans (h1.others y hy).2)⟩

theorem coreShifts_withGroup {xs : List Nat} {k : Core} {x : Nat} {g : Group} (hx : x ∈ xs) (hg : Shifts (k.group x) g) :
    CoreShifts xs k (k.withGroup x g) where
  rest := rfl
  group y := by
    rw [group_withGroup]
    split
    case isTrue h => rw [h]; exact hg
    case isFalse => exact Shifts.refl _
  others y hy := by
    have hne : y ≠ x := fun h => hy (h ▸ hx)
    rw [group_withGroup, if_neg hne]
    exact ⟨rfl, rfl⟩

/-- Groups of `xs` that are changed in turn. -/
theorem coreShifts_foldl {xs : List Nat} {upd : Core → Nat → Group} (hupd : ∀ k x, Shifts (k.group x) (upd k x)) {ys : List Nat}
    (hys : ∀ y ∈ ys, y ∈ xs) (k : Core) : CoreShifts xs k (ys.foldl (fun k x => k.withGroup x (upd k x)) k) :=
  List.foldlRecOn ys _ (CoreShifts.refl xs k) fun _ hk x hx => hk.trans (coreShifts_withGroup (hys x hx) (hupd _ x))

theorem coreShifts_updSlots {xs : List Nat} {upd : Group → Group} (hupd : ∀ g, Shifts g (upd g)) {ys : List Nat}
    (hys : ∀ y ∈ ys, y ∈ xs) (k : Core) : CoreShifts xs k (updSlots k ys upd) :=
  coreShifts_foldl (fun k x => hupd (k.group x)) hys k

theorem CoreShifts.raise {xs : List Nat} {k k' : Core} (h : CoreShifts xs k k') (rs : List Raised) :
    CoreShifts xs k { k' with raised := rs } :=
  ⟨congrArg (fun k1 : Core => { k1 with raised := rs }) h.rest, h.group, h.others⟩

/-! ### A table with every listed value changed -/

/-- A table in canonical form above `lo` lists no key up to `lo`. -/
theorem mget_of_le {α : Type} [DecidableEq α] {d : α} {k : Nat} (m : SMap α) :
    ∀ lo, mwfFrom d (some lo) m = true → k ≤ lo → mget d m k = d := by
  induction m with
  | nil => exact fun _ _ _ => rfl
  | cons q t ih =>
    obtain ⟨i, v⟩ := q
    intro lo hm hk
    simp only [mwfFrom, Bool.and_eq_true, decide_eq_true_eq] at hm
    obtain ⟨⟨hlt, -⟩, ht⟩ := hm
    rw [mget, if_neg (by omega), ih i ht (by omega)]

/-- A table in canonical form, every listed value of which is changed, holds for each key the changed value, where the default
stays the default. -/
theorem mget_mmap {α : Type} [DecidableEq α] {d : α} {h : Nat → α → α} (hd : ∀ k, h k d = d) (k : Nat) {m : SMap α}
    (hm : mwf d m = true) : mget d (mmap d h m) k = h k (mget d m k) := by
  unfold mwf at hm
  generalize none = lo at hm
  induction m generalizing lo with
  | nil => exact (hd k).symm
  | cons q t ih =>
    obtain ⟨i, v⟩ := q
    have ht : mwfFrom d (some i) t = true := by
      cases lo <;> simp only [mwfFrom, Bool.and_eq_true] at hm <;> exact hm.2
    have hcons : mmap d h ((i, v) :: t) = if h i v = d then mmap d h t else (i, h i v) :: mmap d h t := by
      by_cases hv : h i v = d <;> simp [mmap, hv]
    have hrec := ih _ ht
    rw [hcons]
    by_cases hik : i = k
    · subst hik
      rw [mget_of_le t i ht le_rfl, hd] at hrec
      split
      case isTrue hv => rw [hrec, mget, if_pos rfl, hv]
      case isFalse => simp [mget]
    · split <;> simp [mget, hik, hrec]

/-! ### A state in which entries of groups of one core move -/

theorem onlyCore_refl (c : Nat) (s : State) : onlyCore c s s := ⟨rfl, fun _ _ => rfl⟩

theorem onlyCore_trans {c : Nat} {s t u : State} (h1 : onlyCore c s t) (h2 : onlyCore c t u) : onlyCore c s u := by
  obtain ⟨e1, o1⟩ := h1
  obtain ⟨e2, o2⟩ := h2
  rw [e1] at e2
  exact ⟨e2, fun d hd => (o2 d hd).trans (o1 d hd)⟩

theorem onlyCore_updCore (s : State) (c : Nat) (h : Core → Core) : onlyCore c s (updCore s c h) :=
  ⟨rfl, fun _ hd => getCore_updCore_ne s h hd⟩

theorem onlyCore_updGroup (s : State) (c x : Nat) (h : Group → Group) : onlyCore c s (updGroup s c x h) := by
  rw [updGroup, setGroup]
  exact onlyCore_updCore ..

/-- Memory stands outside the cores. -/
theorem sameMemory_of_onlyCore {c : Nat} {s t : State} (h : onlyCore c s t) : sameMemory s t := by
  rw [h.1]
  exact ⟨rfl, rfl, rfl, rfl, rfl⟩

/-- The clocks of the dies stand outside the cores. -/
theorem now_of_onlyCore {c : Nat} {s t : State} (h : onlyCore c s t) (d : Nat) : now t d = now s d := by rw [h.1]; rfl

/-- What becomes of the state when the entries of the groups `xs` of core `c` move. -/
structure StateShifts (c : Nat) (xs : List Nat) (s t : State) : Prop where
  only : onlyCore c s t
  core : CoreShifts xs (getCore s c) (getCore t c)

theorem StateShifts.refl (c : Nat) (xs : List Nat) (s : State) : StateShifts c xs s s :=
  ⟨onlyCore_refl c s, CoreShifts.refl xs _⟩

theorem StateShifts.trans {c : Nat} {xs : List Nat} {s t u : State} (h1 : StateShifts c xs s t) (h2 : StateShifts c xs t u) :
    StateShifts c xs s u := ⟨onlyCore_trans h1.only h2.only, h1.core.trans h2.core⟩

theorem stateShifts_updCore {c : Nat} {xs : List Nat} {s : State} {h : Core → Core}
    (hc : CoreShifts xs (getCore s c) (h (getCore s c))) : StateShifts c xs s (updCore s c h) :=
  ⟨onlyCore_updCore s c h, by rw [getCore_updCore_same]; exact hc⟩

theorem stateShifts_stepFree (c : Nat) (xs : List Nat) (s : State) : StateShifts c xs s (stepFree s) :=
  ⟨⟨rfl, fun _ _ => rfl⟩, CoreShifts.refl xs _⟩

theorem stateShifts_retire {c : Nat} {xs : List Nat} (s : State) (op : Nat) (f : Fields) (pc : Dword) (wide : Bool)
    {ys : List Nat} (hys : ∀ y ∈ ys, y ∈ xs) : StateShifts c xs s (retire s c op f pc wide ys) :=
  stateShifts_updCore (coreShifts_foldl (fun _ _ => (shifts_markIssued ..).trans (shifts_advance ..)) hys _)

theorem stateShifts_parkAll {c : Nat} {xs : List Nat} (s : State) (op : Nat) (f : Fields) (pc : Dword) (wide next : Bool)
    (p : Park) {ys : List Nat} (hys : ∀ y ∈ ys, y ∈ xs) : StateShifts c xs s (parkAll s c op f pc wide next p ys) :=
  stateShifts_updCore (coreShifts_foldl (fun _ _ => (shifts_markIssued ..).trans (shifts_parkEntry ..)) hys _)

theorem stateShifts_stopLanes {c : Nat} {xs : List Nat} (s : State) (op : Nat) (f : Fields) (pc : Dword) (wide next : Bool)
    {ys : List Nat} (hys : ∀ y ∈ ys, y ∈ xs) : StateShifts c xs s (stopLanes s c op f pc wide next ys) := by
  unfold stopLanes
  split
  · exact stateShifts_retire s op f pc wide hys
  · split
    · exact stateShifts_updCore (coreShifts_updSlots (upd := fun g => { g with
        frontier := updFirst (isIssuing wide pc) (fun e => { e with park := .trapped f.scope }) g.frontier }) (fun _ => rfl) hys _)
    · exact StateShifts.refl ..

/-- A trap that is not of the handler slot itself (R281). -/
theorem stateShifts_raiseTrap {c : Nat} {xs : List Nat} (s : State) {r : TrapReq} (hh : handlerCtx ∉ r.slots)
    (hr : ∀ y ∈ r.slots, y ∈ xs) : StateShifts c xs s (raiseTrap s c r) := by
  have hserial : StateShifts c xs s { s with serial := s.serial + 1 } := ⟨⟨rfl, fun _ _ => rfl⟩, CoreShifts.refl xs _⟩
  unfold raiseTrap
  rw [if_neg (by simpa using hh)]
  exact hserial.trans (stateShifts_updCore
    ((coreShifts_updSlots (fun g => shifts_stopGroup s.serial g) hr _).raise _))

/-- A group of an issue slot that issues for others loses its latches (R23). -/
def loseLatches (slot : Nat) (ys : List Nat) (y : Nat) (g : Group) : Group :=
  if !ys.contains y && g.slot == slot then { g with latchA := none, latchB := none } else g

theorem loseLatches_default (slot : Nat) (ys : List Nat) (y : Nat) : loseLatches slot ys y {} = {} := by
  unfold loseLatches
  split <;> rfl

theorem shifts_loseLatches (slot : Nat) (ys : List Nat) (y : Nat) (g : Group) : Shifts g (loseLatches slot ys y g) ∧
    (loseLatches slot ys y g).frontier = g.frontier ∧ (loseLatches slot ys y g).stop = g.stop := by
  unfold loseLatches
  split <;> exact ⟨rfl, rfl, rfl⟩

theorem takeSlot_some (s : State) (c : Nat) (q : Nat × SlotUse) (ys : List Nat) : takeSlot s c (some q) ys =
    updCore s c (fun k => { k with slots := mset {} k.slots q.1 q.2, groups := mmap {} (loseLatches q.1 ys) k.groups }) := rfl

theorem stateShifts_takeSlot {c : Nat} (xs : List Nat) {s : State} (hwf : mwf {} (getCore s c).groups = true)
    (u : Option (Nat × SlotUse)) (ys : List Nat) : StateShifts c xs s (takeSlot s c u ys) := by
  cases u with
  | none => exact StateShifts.refl ..
  | some q =>
    have hgroup : ∀ slots y, ({ getCore s c with slots := slots, groups := mmap {} (loseLatches q.1 ys) (getCore s c).groups } :
        Core).group y = loseLatches q.1 ys y ((getCore s c).group y) :=
      fun _ y => mget_mmap (loseLatches_default q.1 ys) y hwf
    rw [takeSlot_some]
    apply stateShifts_updCore
    refine ⟨rfl, fun y => ?_, fun y _ => ?_⟩
    · rw [hgroup]
      exact (shifts_loseLatches ..).1
    · rw [hgroup]
      exact (shifts_loseLatches ..).2

/-! ### Results that go into flight -/

/-- What becomes of a group when results land: registers, flags, and what a write to a register ends. -/
def Lands (g h : Group) : Prop :=
  h = { g with regs := h.regs, bad := h.bad, pend := h.pend, fpflags := h.fpflags, latchA := h.latchA, latchB := h.latchB,
               dones := h.dones }

theorem lands_landPend (g : Group) (p : Pend) : Lands g (landPend g p) := by
  unfold landPend
  rw [landCells_eq]
  obtain ⟨regs, bad, h⟩ := foldl_landCell_eq p.skip p.cells
    (clearLatch { g with pend := g.pend.filter (fun q => q.id != p.id) } p.regs)
  rw [h]
  rfl

theorem Lands.trans {g h k : Group} (h1 : Lands g h) (h2 : Lands h k) : Lands g k := by
  unfold Lands at h2 ⊢
  rw [h1] at h2
  exact h2

theorem lands_landDue (t : Nat) (g : Group) : Lands g (landDue t g) :=
  List.foldlRecOn g.pend _ (motive := Lands g) rfl fun h hh p _ => by
    split
    · exact hh.trans (lands_landPend h p)
    · exact hh

/-- What becomes of a group in cycle `t` when one result goes into flight for it: those that are due land first. -/
def Posted (t : Nat) (g h : Group) : Prop :=
  ∃ pend dirty, h = { landDue t g with pend := pend, dirty := dirty }

theorem Posted.keeps {t : Nat} {g h : Group} (hp : Posted t g h) :
    keepsPlace g h ∧ keepsValues t g h ∧ h.frontier = g.frontier ∧ h.stop = g.stop ∧ h.live = g.live := by
  obtain ⟨pend, dirty, rfl⟩ := hp
  have hland := lands_landDue t g
  refine ⟨?_, .inr ⟨rfl, rfl⟩, ?_⟩
  · rw [hland]
    exact ⟨rfl, rfl, rfl, rfl, rfl, rfl, rfl, rfl, rfl, rfl, rfl, rfl, rfl, rfl, rfl, rfl⟩
  · rw [hland]
    exact ⟨rfl, rfl, rfl⟩

/-- What becomes of the state when one result at most goes into flight for each of the groups `xs` of core `c`. -/
structure StatePosts (c : Nat) (xs : List Nat) (s t : State) : Prop where
  only   : onlyCore c s t
  core   : getCore t c = { getCore s c with groups := (getCore t c).groups }
  posted : ∀ y, getGroup t c y = getGroup s c y ∨ Posted (now s c) (getGroup s c y) (getGroup t c y)
  others : ∀ y, y ∉ xs → getGroup t c y = getGroup s c y

theorem statePosts_serial (c n : Nat) (s : State) : StatePosts c [] s { s with serial := n } :=
  ⟨⟨rfl, fun _ _ => rfl⟩, rfl, fun _ => .inl rfl, fun _ _ => rfl⟩

/-- Results for other groups go into flight next. -/
theorem StatePosts.trans {c : Nat} {xs ys : List Nat} {s t u : State} (h1 : StatePosts c xs s t) (h2 : StatePosts c ys t u)
    (hdisj : ∀ y ∈ xs, y ∉ ys) : StatePosts c (xs ++ ys) s u where
  only := onlyCore_trans h1.only h2.only
  core := by
    have h := h2.core
    rw [h1.core] at h
    exact h
  posted y := by
    by_cases hy : y ∈ xs
    · rw [h2.others y (hdisj y hy)]
      exact h1.posted y
    · rw [← h1.others y hy, ← now_of_onlyCore h1.only c]
      exact h2.posted y
  others y hy := by
    rw [List.mem_append, not_or] at hy
    exact (h2.others y hy.2).trans (h1.others y hy.1)

/-- The group for which a result goes into flight. -/
def postedGroup (s : State) (c x : Nat) (p : Pend) (g : Group) : Group :=
  markDirty { landDue (now s c) g with
    pend := racePends s x (now s c) (landDue (now s c) g).pend { p with cells := keptCells s c x p } } p.regs

theorem postPend_eq (s : State) (c x : Nat) (p : Pend) :
    ∃ ops wr, postPend s c x p = updGroup { s with mxOps := ops, wrote := wr } c x (postedGroup s c x p) := by
  have hspoil : ∃ ops, spoilRuns s c x p.regs = { s with mxOps := ops } := by
    unfold spoilRuns
    dsimp only
    split
    · exact ⟨s.mxOps, rfl⟩
    · exact ⟨_, rfl⟩
  obtain ⟨ops, hops⟩ := hspoil
  unfold postPend
  rw [hops]
  exact ⟨ops, _, rfl⟩

/-- One result for one group. -/
theorem statePosts_postPend (s : State) (c x : Nat) (p : Pend) : StatePosts c [x] s (postPend s c x p) := by
  obtain ⟨ops, wr, heq⟩ := postPend_eq s c x p
  have hgroup : ∀ y, getGroup (postPend s c x p) c y = if y = x then postedGroup s c x p (getGroup s c x) else getGroup s c y :=
    fun y => by
      rw [heq, getGroup_updGroup]
      simp only [true_and]
      rfl
  refine ⟨?_, ?_, fun y => ?_, fun y hy => ?_⟩
  · rw [heq]
    exact onlyCore_trans (t := { s with mxOps := ops, wrote := wr }) ⟨rfl, fun _ _ => rfl⟩ (onlyCore_updGroup ..)
  · rw [heq, updGroup, setGroup, getCore_updCore_same]
    rfl
  · rw [hgroup]
    split
    case isTrue h => rw [h]; exact .inr ⟨_, _, rfl⟩
    case isFalse => exact .inl rfl
  · rw [hgroup, if_neg (by simpa using hy)]

/-- A member's results; a member of no executing lane posts none. -/
def postMember (s : State) (c : Nat) (f : Fields) (lat : Option Nat) (n : Nat) (val : State → Nat → Nat → List Word)
    (t : State) (m : Member) : State :=
  if m.exec = 0 || f.d.toNat == vnull then t
  else postPend { t with serial := t.serial + 1 } c m.slot
    { resultPend s c f m t.serial lat n (val s m.slot) with share := s.serial }

theorem postResults_eq_foldl (s : State) (c : Nat) (f : Fields) (ms : Members) (lat : Option Nat) (n : Nat)
    (val : State → Nat → Nat → List Word) : postResults s c f ms lat n val = ms.foldl (postMember s c f lat n val) s := rfl

theorem statePosts_postMember (s : State) (c : Nat) (f : Fields) (lat : Option Nat) (n : Nat)
    (val : State → Nat → Nat → List Word) (t : State) (m : Member) :
    StatePosts c [m.slot] t (postMember s c f lat n val t m) := by
  unfold postMember
  split
  · exact ⟨onlyCore_refl c t, rfl, fun _ => .inl rfl, fun _ _ => rfl⟩
  · exact (statePosts_serial c _ t).trans (statePosts_postPend _ c m.slot _) (by simp)

/-- Results of members with slots of their own. -/
theorem statePosts_foldl (s : State) (c : Nat) (f : Fields) (lat : Option Nat) (n : Nat)
    (val : State → Nat → Nat → List Word) (ms : Members) : ∀ t : State, (ms.map (·.slot)).Nodup →
    StatePosts c (ms.map (·.slot)) t (ms.foldl (postMember s c f lat n val) t) := by
  induction ms with
  | nil => exact fun t _ => ⟨onlyCore_refl c t, rfl, fun _ => .inl rfl, fun _ _ => rfl⟩
  | cons m ms ih =>
    intro t hn
    obtain ⟨hm, hms⟩ := List.nodup_cons.mp hn
    exact (statePosts_postMember s c f lat n val t m).trans (ih _ hms) (by simpa using hm)

theorem keepsPlace_refl (g : Group) : keepsPlace g g := (Shifts.refl g).keeps.1

/-! ### O58 -/

/-- The six forms of the state after an instruction. -/
theorem stateShifts_of_form {q : Issue} {f : Fields} {t u : State} {next : Bool} {p : Park} {r : TrapReq}
    (hwf : mwf {} (getCore t q.core).groups = true)
    (hu : u = q.onward f t ∨ u = q.moved f t ∨ u = q.parked f next p t ∨ (u = q.trapped f next r t ∧ 48 ∉ r.slots) ∨
      u = q.waits f t ∨ u = stepFree t) : StateShifts q.core (q.present f ++ r.slots) t u := by
  have hys : ∀ y ∈ q.present f, y ∈ q.present f ++ r.slots := fun y hy => List.mem_append_left _ hy
  have hused : StateShifts q.core (q.present f ++ r.slots) t (q.used f t) := stateShifts_takeSlot _ hwf ..
  have hfree := stateShifts_stepFree q.core (q.present f ++ r.slots)
  rcases hu with rfl | rfl | rfl | ⟨rfl, hh⟩ | rfl | rfl
  · exact (hused.trans (stateShifts_retire _ q.op f q.e.pc _ hys)).trans (hfree _)
  · exact (hused.trans (stateShifts_updCore (coreShifts_updSlots (fun g => shifts_markIssued _ _ _ f g) hys _))).trans (hfree _)
  · exact (hused.trans (stateShifts_parkAll _ q.op f q.e.pc _ next p hys)).trans (hfree _)
  · exact ((hused.trans (stateShifts_stopLanes _ q.op f q.e.pc _ next hys)).trans
      (stateShifts_raiseTrap _ hh fun y hy => List.mem_append_right _ hy)).trans (hfree _)
  · refine StateShifts.trans ?_ (hfree _)
    split
    · exact StateShifts.refl ..
    · exact stateShifts_updCore (coreShifts_updSlots (fun g => shifts_waitEntry g q.e.pc .other) hys _)
  · exact hfree t

/-- Settles O58: each form is a chain of updates that only shift entries of the named groups; results go into flight for one
group after another, each by one `postPend`. -/
theorem frames : Obligations.frames := by
  unfold Obligations.frames
  refine ⟨fun q f t u next p r hwf hu => ?_, fun s c f ms lat n val hn => ?_⟩
  · obtain ⟨honly, hcore⟩ := stateShifts_of_form hwf hu
    refine ⟨honly, sameMemory_of_onlyCore honly, hcore.rest, fun y => ?_⟩
    obtain ⟨hplace, hregs, hpend, hflags, hlive⟩ := (hcore.group y).keeps
    exact ⟨hplace, hregs, hpend, hflags, hlive, fun hy hr => hcore.others y (by simp [hy, hr])⟩
  · obtain ⟨honly, hcore, hposted, hothers⟩ := statePosts_foldl s c f lat n val ms s hn
    refine ⟨honly, sameMemory_of_onlyCore honly, hcore, fun y => ?_⟩
    rcases hposted y with hsame | hp
    · rw [postResults_eq_foldl, hsame]
      exact ⟨keepsPlace_refl _, .inl ⟨rfl, rfl⟩, rfl, rfl, rfl, fun _ => rfl⟩
    · obtain ⟨hplace, hvalues, hfrontier, hstop, hlive⟩ := hp.keeps
      exact ⟨hplace, hvalues, hfrontier, hstop, hlive, hothers y⟩

end Sys2Proof.Proofs
end

section
/-! PROOFS. Integer instructions: how a per-lane instruction completes, and the words of addition, multiplication, minimum, maximum,
absolute value and division (O12, O13). -/

namespace Sys2Proof.Proofs
open Sys2Proof Sys2Proof.Machine Sys2Proof.Safety Sys2Proof.Laws

/-! ### Per-lane instructions complete (R68, R89) -/

/-- A per-lane instruction that is ready completes, with the words that its effect computes from the operands of a lane, in any
equal form. -/
theorem exec_of_perLane {op : Nat} {f : Fields} {q : Issue} {i : Instr} {lat : Option Nat} {n : Nat}
    {val words : Operands → List Word} (hval : ∀ o, val o = words o)
    (hi : exec i q.s = issue op f (perLane lat n (fun t c x l => val (operandsOf t c f x l)) f) q.s)
    (h : Ready op f q) : exec i q.s = .next (q.computes f lat n words) := by
  obtain rfl : val = words := funext hval
  rw [hi, issue_of_ready _ h, perLane, core_of_ready h]
  rfl

/-- The same for an instruction that writes one word. -/
theorem exec_of_perLaneWord {op : Nat} {f : Fields} {q : Issue} {i : Instr} {lat : Option Nat}
    {val word : Operands → Word} (hval : ∀ o, val o = word o)
    (hi : exec i q.s = issue op f (perLane lat 1 (fun t c x l => [val (operandsOf t c f x l)]) f) q.s)
    (h : Ready op f q) : exec i q.s = .next (q.computes f lat 1 (fun o => [word o])) :=
  exec_of_perLane (val := fun o => [val o]) (fun o => by rw [hval o]) hi h

/-! ### MOD and saturation (R3, R90) -/

/-- A MOD value is compared as a number by the model and as three bits by the statements. -/
theorem toNat_mod_eq {mod : BitVec 3} {k : Nat} (hk : k < 8) : mod.toNat = k ↔ mod = BitVec.ofNat 3 k := by
  rw [BitVec.toNat_eq, BitVec.toNat_ofNat, Nat.mod_eq_of_lt hk]

theorem readAs_toNat (mod : BitVec 3) (a : Word) : readAs mod.toNat a = signedBy mod a := by
  simp only [readAs, signedBy, toNat_mod_eq (show 0 < 8 by decide), BitVec.ofNat_eq_ofNat]

theorem satInt_eq_clampTo {lo hi : Int} (x : Int) (h : lo ≤ hi) : satInt x lo hi = clampTo lo hi x := by
  unfold satInt clampTo
  split_ifs <;> omega

/-! ### Sums (R91) -/

theorem ofInt_toNat {w : Nat} (a : BitVec w) : BitVec.ofInt w a.toNat = a := by
  rw [BitVec.ofInt_natCast, BitVec.ofNat_toNat, BitVec.setWidth_eq]

theorem ofInt_toNat_add {w : Nat} (a b : BitVec w) : BitVec.ofInt w (a.toNat + b.toNat) = a + b := by
  rw [BitVec.ofInt_add, ofInt_toNat, ofInt_toNat]

theorem ofInt_toNat_sub {w : Nat} (a b : BitVec w) : BitVec.ofInt w (a.toNat - b.toNat) = a - b := by
  rw [Int.sub_eq_add_neg, BitVec.ofInt_add, BitVec.ofInt_neg, ofInt_toNat, ofInt_toNat, BitVec.sub_eq_add_neg]

theorem satWord_signed (x : Int) : satWord x minS32 maxS32 = BitVec.ofInt 32 (clampTo (-(2 ^ 31)) (2 ^ 31 - 1) x) := by
  rw [satWord, satInt_eq_clampTo x (by decide)]; rfl

theorem satWord_unsigned (x : Int) : satWord x 0 maxN32 = BitVec.ofInt 32 (clampTo 0 (2 ^ 32 - 1) x) := by
  rw [satWord, satInt_eq_clampTo x (by decide)]; rfl

theorem addWords_eq (mod : BitVec 3) (a b : Word) :
    addWords mod.toNat a b = sumWords mod (a.toInt + b.toInt) (a.toNat + b.toNat) := by
  simp only [addWords, sumWords, satWord_signed, satWord_unsigned, ofInt_toNat_add, carryWord, toNat_mod_eq, Nat.reduceLT,
    BitVec.ofNat_eq_ofNat]

theorem subWords_eq (mod : BitVec 3) (a b : Word) :
    subWords mod.toNat a b = sumWords mod (a.toInt - b.toInt) (a.toNat - b.toNat) := by
  simp only [subWords, sumWords, satWord_signed, satWord_unsigned, ofInt_toNat_sub, carryWord, toNat_mod_eq, Nat.reduceLT,
    BitVec.ofNat_eq_ofNat]

theorem pairWords_add64 (mod : BitVec 3) (a b : Dword) :
    pairWords (add64 mod.toNat a b) = sumPair mod (a.toInt + b.toInt) (a.toNat + b.toNat) := by
  simp only [add64, sumPair, satDword, ofInt_toNat_add, toNat_mod_eq, Nat.reduceLT, BitVec.ofNat_eq_ofNat]
  rw [satInt_eq_clampTo _ (by decide), satInt_eq_clampTo _ (by decide)]

theorem pairWords_sub64 (mod : BitVec 3) (a b : Dword) :
    pairWords (sub64 mod.toNat a b) = sumPair mod (a.toInt - b.toInt) (a.toNat - b.toNat) := by
  simp only [sub64, sumPair, satDword, ofInt_toNat_sub, toNat_mod_eq, Nat.reduceLT, BitVec.ofNat_eq_ofNat]
  rw [satInt_eq_clampTo _ (by decide), satInt_eq_clampTo _ (by decide)]

/-! ### Products (R92) -/

theorem ofNat_toNat_mul (a b : Word) : BitVec.ofNat 32 (a.toNat * b.toNat) = a * b := by
  rw [BitVec.ofNat_mul, BitVec.ofNat_toNat, BitVec.ofNat_toNat, BitVec.setWidth_eq, BitVec.setWidth_eq]

theorem ofNat_toNat_mul_add (a b c : Word) : BitVec.ofNat 32 (a.toNat * b.toNat + c.toNat) = a * b + c := by
  rw [BitVec.ofNat_add, ofNat_toNat_mul, BitVec.ofNat_toNat, BitVec.setWidth_eq]

/-- The high half of a number modulo 2^64 is its quotient by 2^32 modulo 2^32. -/
theorem hi32_ofInt (x : Int) : hi32 (BitVec.ofInt 64 x) = BitVec.ofInt 32 (x / 2 ^ 32) := by
  apply BitVec.eq_of_toNat_eq
  simp only [hi32, BitVec.toNat_setWidth, BitVec.toNat_ushiftRight, BitVec.toNat_ofInt, Nat.shiftRight_eq_div_pow]
  omega

theorem mulHigh_eq (mod : BitVec 3) (a b : Word) :
    mulHigh mod.toNat a b = BitVec.ofInt 32 (signedBy mod a * signedBy mod b / 2 ^ 32) := by
  rw [mulHigh, hi32_ofInt, readAs_toNat, readAs_toNat]

theorem madWide_eq (mod : BitVec 3) (a b : Word) (c : Dword) :
    madWide mod.toNat a b c = BitVec.ofInt 64 (signedBy mod a * signedBy mod b + c.toInt) := by
  rw [madWide, readAs_toNat, readAs_toNat, BitVec.ofInt_add, BitVec.ofInt_toInt]

/-! ### Minimum, maximum and absolute value (R93) -/

theorem minWord_eq (mod : BitVec 3) (a b : Word) :
    minWord mod.toNat a b = if signedBy mod b < signedBy mod a then b else a := by
  simp only [minWord, readAs_toNat, ← Int.not_lt, ite_not]

/-- Words with the same reading are the same. -/
theorem readAs_injective (mod : Nat) : Function.Injective (readAs mod) := by
  intro a b h
  unfold readAs at h
  split_ifs at h
  · exact BitVec.toInt_inj.mp h
  · exact BitVec.eq_of_toNat_eq (Int.ofNat_inj.mp h)

theorem signedBy_injective (mod : BitVec 3) : Function.Injective (signedBy mod) := by
  rw [← funext (readAs_toNat mod)]
  exact readAs_injective mod.toNat

theorem maxWord_eq (mod : BitVec 3) (a b : Word) :
    maxWord mod.toNat a b = if signedBy mod a < signedBy mod b then b else a := by
  simp only [maxWord, readAs_toNat]
  split_ifs with hle hlt hlt
  · rfl
  · exact (signedBy_injective mod (le_antisymm hle (not_lt.mp hlt))).symm
  · omega
  · rfl

/-- A word without its sign, modulo 2^32. -/
theorem ofNat_natAbs_toInt (a : Word) : BitVec.ofNat 32 a.toInt.natAbs = if a.toInt < 0 then 0 - a else a := by
  have hlt := a.isLt
  apply BitVec.eq_of_toNat_eq
  rw [BitVec.toInt_eq_toNat_cond]
  split_ifs <;> simp only [BitVec.toNat_ofNat, BitVec.toNat_sub, BitVec.ofNat_eq_ofNat] <;> omega

theorem absWord_eq (mod : BitVec 3) (a : Word) : absWord mod.toNat a =
    BitVec.ofNat 32 (if mod = 1 then min (2 ^ 31 - 1) a.toInt.natAbs else a.toInt.natAbs) := by
  have hone : mod.toNat = 1 ↔ mod = 1 := toNat_mod_eq (by decide)
  rw [absWord, ← ofNat_natAbs_toInt]
  simp only [hone]
  by_cases hmin : a = 0x80000000
  · subst hmin
    by_cases hmod : mod = 1
    · rw [if_pos ⟨hmod, rfl⟩, if_pos hmod]; rfl
    · rw [if_neg fun h => hmod h.1, if_neg hmod]
  · have hle : a.toInt.natAbs ≤ 2 ^ 31 - 1 := by
      have hne : a.toInt ≠ (0x80000000 : Word).toInt := mt BitVec.toInt_inj.mp hmin
      rw [show (0x80000000 : Word).toInt = -(2 ^ 31) by decide] at hne
      have hlo := BitVec.le_toInt a
      have hhi := BitVec.toInt_lt (x := a)
      omega
    rw [if_neg fun h => hmin h.2, min_eq_right hle, ite_self]

/-- Settles O12: each word is a case of the comparison of its operands' readings; the absolute value that has no word is that of
-2^31 alone. -/
theorem minimumMaximumAbsolute : Obligations.minimum_maximum_absolute := by
  unfold Obligations.minimum_maximum_absolute
  intro f q
  exact ⟨exec_of_perLaneWord (fun o => minWord_eq f.mod o.a o.b) rfl, exec_of_perLaneWord (fun o => maxWord_eq f.mod o.a o.b) rfl,
    exec_of_perLaneWord (fun o => absWord_eq f.mod o.a) rfl⟩

/-! ### Quotient and remainder (R94) -/

theorem signedBy_ne_zero (mod : BitVec 3) {b : Word} (hb : b ≠ 0) : signedBy mod b ≠ 0 := by
  intro h
  refine hb (signedBy_injective mod (h.trans ?_))
  unfold signedBy
  split_ifs <;> rfl

/-- For a divisor other than zero, quotient and remainder are the low words of those truncated toward zero. -/
theorem divWord_remWord_of_ne_zero (mod : BitVec 3) (a : Word) {b : Word} (hb : b ≠ 0) :
    divWord mod.toNat a b = BitVec.ofInt 32 ((signedBy mod a).tdiv (signedBy mod b)) ∧
    remWord mod.toNat a b = BitVec.ofInt 32 ((signedBy mod a).tmod (signedBy mod b)) := by
  simp only [divWord, remWord, if_neg hb, readAs_toNat, and_self]

/-- What truncating division gives of two integers: the exact remainder, smaller than the divisor and with the dividend's sign. -/
theorem tdiv_tmod_spec (a : Int) {b : Int} (hb : b ≠ 0) : a = a.tdiv b * b + a.tmod b ∧ (a.tmod b).natAbs < b.natAbs ∧
    (0 ≤ a → 0 ≤ a.tmod b) ∧ (a ≤ 0 → a.tmod b ≤ 0) := by
  refine ⟨(Int.tdiv_mul_add_tmod a b).symm, ?_, Int.tmod_nonneg b, fun ha => ?_⟩
  · rw [Int.natAbs_tmod]
    exact Nat.mod_lt _ (Int.natAbs_pos.mpr hb)
  · have hneg := Int.tmod_nonneg b (Int.neg_nonneg.mpr ha)
    rw [Int.neg_tmod] at hneg
    omega

/-- Settles O13: sums and products are taken in the integers and cut to the width once; quotient and remainder are those that
truncate toward zero. -/
theorem integerArithmetic : Obligations.integer_arithmetic := by
  unfold Obligations.integer_arithmetic
  refine ⟨fun f q => ⟨?_, ?_, ?_, ?_, ?_⟩, fun f q => ⟨?_, ?_, ?_, ?_⟩, fun f q =>
    ⟨fun o => divWord f.mod.toNat o.a o.b, fun o => remWord f.mod.toNat o.a o.b, ?_, ?_, fun o => ⟨fun hb => ?_, fun hb => ?_⟩⟩⟩
  -- sums (R91)
  · exact exec_of_perLane (fun o => addWords_eq f.mod o.a o.b) rfl
  · exact exec_of_perLane (fun o => subWords_eq f.mod o.a o.b) rfl
  · exact exec_of_perLane (fun o => pairWords_add64 f.mod o.aa o.bb) rfl
  · exact exec_of_perLane (fun o => pairWords_sub64 f.mod o.aa o.bb) rfl
  · exact exec_of_perLane (fun o => addWords_eq f.mod o.a f.imm) rfl
  -- products (R92)
  · exact exec_of_perLaneWord (fun o => (ofNat_toNat_mul o.a o.b).symm) rfl
  · exact exec_of_perLaneWord (fun o => mulHigh_eq f.mod o.a o.b) rfl
  · exact exec_of_perLaneWord (fun o => (ofNat_toNat_mul_add o.a o.b o.c).symm) rfl
  · exact exec_of_perLane (fun o => congrArg pairWords (madWide_eq f.mod o.a o.b o.cc)) rfl
  -- quotient and remainder (R94)
  · exact exec_of_perLaneWord (fun _ => rfl) rfl
  · exact exec_of_perLaneWord (fun _ => rfl) rfl
  · exact ⟨if_pos hb, if_pos hb⟩
  · obtain ⟨hquo, hrem⟩ := divWord_remWord_of_ne_zero f.mod o.a hb
    obtain ⟨heq, hlt, hpos, hneg⟩ := tdiv_tmod_spec (signedBy f.mod o.a) (signedBy_ne_zero f.mod hb)
    exact ⟨_, _, heq, hlt, hpos, hneg, hquo, hrem⟩

end Sys2Proof.Proofs
end

section
/-! PROOFS. Integer instructions: comparison, selection, logic and shifts, bit by bit (O14, O15). -/

namespace Sys2Proof.Proofs
open Sys2Proof Sys2Proof.Machine Sys2Proof.Safety Sys2Proof.Laws

/-! ### Comparison and selection (R95, R96) -/

theorem cmpHolds_iff (mod : BitVec 3) (a b : Word) : cmpHolds mod.toNat a b = true ↔ conditionOf mod a b := by
  unfold cmpHolds conditionOf
  rcases bitVec3_cases mod with rfl | rfl | rfl | rfl | rfl | rfl | rfl | rfl <;> simp

/-- The word of a truth value: 1 where it holds and 0 where it does not. -/
theorem boolWord_spec {p : Bool} {P : Prop} (h : p = true ↔ P) : truthOf P (boolWord p) :=
  ⟨fun hP => if_pos (h.mpr hP), fun hP => if_neg (mt h.mp hP)⟩

theorem selWord_eq (a b c : Word) : selWord a b c = if c = 0 then b else a := ite_not ..

/-! ### LOP3 (R97) -/

/-- Bit `i` of LOP3 is the bit of the table that the source bits select. -/
theorem getLsbD_lop3Word (lut a b c : Word) {i : Nat} (hi : i < 32) : (lop3Word lut.toNat a b c).getLsbD i =
    lut.getLsbD ((a.getLsbD i).toNat + 2 * (b.getLsbD i).toNat + 4 * (c.getLsbD i).toNat) := by
  have hpick : ∀ (k : Nat) (x y z : Word), (if lut.toNat.testBit k then x &&& y &&& z else 0).getLsbD i =
      (lut.getLsbD k && (x.getLsbD i && y.getLsbD i && z.getLsbD i)) := by
    intro k x y z
    rw [← BitVec.testBit_toNat lut]
    cases lut.toNat.testBit k <;> simp
  simp only [lop3Word, BitVec.getLsbD_or, hpick, BitVec.getLsbD_not, hi, decide_true, Bool.true_and]
  cases a.getLsbD i <;> cases b.getLsbD i <;> cases c.getLsbD i <;> simp

/-- Settles O14: a comparison's word is the truth value of the condition that MOD selects; the logic of two operands acts on every
bit, and LOP3 by the eight cases of the three source bits. -/
theorem comparisonSelectionLogic : Obligations.comparison_selection_logic := by
  unfold Obligations.comparison_selection_logic
  refine ⟨fun f q => ⟨fun o => boolWord (cmpHolds f.mod.toNat o.a o.b), fun o => boolWord (cmpHolds f.mod.toNat o.a f.imm),
      exec_of_perLaneWord (fun _ => rfl) rfl, exec_of_perLaneWord (fun _ => rfl) rfl,
      exec_of_perLaneWord (fun o => selWord_eq o.a o.b o.c) rfl, fun o => ?_⟩,
    fun f q => ⟨fun o => lop3Word f.imm.toNat o.a o.b o.c,
      exec_of_perLaneWord (fun _ => rfl) rfl, exec_of_perLaneWord (fun _ => rfl) rfl, exec_of_perLaneWord (fun _ => rfl) rfl,
      exec_of_perLaneWord (fun _ => rfl) rfl, exec_of_perLaneWord (fun _ => rfl) rfl, exec_of_perLaneWord (fun _ => rfl) rfl,
      exec_of_perLaneWord (fun _ => rfl) rfl, exec_of_perLaneWord (fun _ => rfl) rfl, exec_of_perLaneWord (fun _ => rfl) rfl,
      fun o i hi => getLsbD_lop3Word f.imm o.a o.b o.c hi⟩⟩
  obtain ⟨hyes, hno⟩ := boolWord_spec (cmpHolds_iff f.mod o.a o.b)
  obtain ⟨hyesImm, hnoImm⟩ := boolWord_spec (cmpHolds_iff f.mod o.a f.imm)
  exact ⟨hyes, hno, hyesImm, hnoImm⟩

/-! ### Shifts (R98) -/

theorem shiftCount_eq (mod : BitVec 3) (b : Word) :
    shiftCount mod.toNat b = if mod = 1 then b.toNat % 32 else min b.toNat 32 := by
  simp only [shiftCount, toNat_mod_eq, Nat.reduceLT, BitVec.ofNat_eq_ofNat]

/-- A shift by the count of R98: what it gives from 32 on is what it gives at 32. -/
theorem shift_shiftCount (mod : BitVec 3) (b : Word) (sh : Nat → Word) : sh (shiftCount mod.toNat b) =
    if mod = 1 then sh (b.toNat % 32) else if 32 ≤ b.toNat then sh 32 else sh b.toNat := by
  rw [shiftCount_eq, apply_ite sh]
  congr 1
  split_ifs with h
  · rw [min_eq_right h]
  · rw [min_eq_left (by omega)]

theorem shlWord_eq (mod : BitVec 3) (a b : Word) : shlWord mod.toNat a b =
    if mod = 1 then a <<< (b.toNat % 32) else if 32 ≤ b.toNat then 0 else a <<< b.toNat := by
  rw [shlWord, shift_shiftCount mod b (a <<< ·), BitVec.shiftLeft_eq_zero (le_refl 32)]
  rfl

theorem shrWord_eq (mod : BitVec 3) (a b : Word) : shrWord mod.toNat a b =
    if mod = 1 then a >>> (b.toNat % 32) else if 32 ≤ b.toNat then 0 else a >>> b.toNat := by
  rw [shrWord, shift_shiftCount mod b (a >>> ·), BitVec.ushiftRight_eq_zero (le_refl 32)]
  rfl

/-- Shifted by its width with its sign, a word is copies of the sign. -/
theorem sshiftRight_width (a : Word) : a.sshiftRight 32 = if a.msb then 0xFFFFFFFF else 0 := by
  cases hm : a.msb with
  | false => rw [BitVec.sshiftRight_eq_of_msb_false hm, BitVec.ushiftRight_eq_zero (le_refl 32)]; rfl
  | true => rw [BitVec.sshiftRight_eq_of_msb_true hm, BitVec.ushiftRight_eq_zero (le_refl 32)]; rfl

theorem sarWord_eq (mod : BitVec 3) (a b : Word) : sarWord mod.toNat a b =
    if mod = 1 then a.sshiftRight (b.toNat % 32)
    else if 32 ≤ b.toNat then (if a.msb then 0xFFFFFFFF else 0) else a.sshiftRight b.toNat := by
  rw [sarWord, shift_shiftCount mod b a.sshiftRight, sshiftRight_width]

theorem toNat_append_words (b a : Word) : (b ++ a : Dword).toNat = b.toNat * 2 ^ 32 + a.toNat := by
  rw [BitVec.toNat_append, ← Nat.shiftLeft_add_eq_or_of_lt a.isLt, Nat.shiftLeft_eq]

theorem hi32_shiftLeft (v : Dword) (n : Nat) : hi32 (v <<< n) = BitVec.ofNat 32 (v.toNat * 2 ^ n % 2 ^ 64 / 2 ^ 32) := by
  apply BitVec.eq_of_toNat_eq
  simp only [hi32, BitVec.toNat_setWidth, BitVec.toNat_ushiftRight, BitVec.toNat_shiftLeft, BitVec.toNat_ofNat,
    Nat.shiftLeft_eq, Nat.shiftRight_eq_div_pow]

theorem lo32_ushiftRight (v : Dword) (n : Nat) : lo32 (v >>> n) = BitVec.ofNat 32 (v.toNat / 2 ^ n) := by
  apply BitVec.eq_of_toNat_eq
  simp only [lo32, BitVec.toNat_setWidth, BitVec.toNat_ushiftRight, BitVec.toNat_ofNat, Nat.shiftRight_eq_div_pow]

/-- The modes of SHF: `.l`, `.r`, `.l.wrap`, `.r.wrap`. -/
theorem shf_modes : ∀ mod : BitVec 3, mod.toNat < 4 →
    (2 ≤ mod.toNat ↔ mod = 2 ∨ mod = 3) ∧ (mod.toNat % 2 = 0 ↔ mod = 0 ∨ mod = 2) := by decide

theorem shfWord_eq {mod : BitVec 3} (hmod : mod.toNat < 4) (a b c : Word) : shfWord mod.toNat a b c =
    let n := if mod = 2 ∨ mod = 3 then c.toNat % 32 else min c.toNat 32
    let v := b.toNat * 2 ^ 32 + a.toNat
    if mod = 0 ∨ mod = 2 then BitVec.ofNat 32 (v * 2 ^ n % 2 ^ 64 / 2 ^ 32) else BitVec.ofNat 32 (v / 2 ^ n) := by
  obtain ⟨hwrap, hleft⟩ := shf_modes mod hmod
  simp only [shfWord, hwrap, hleft, hi32_shiftLeft, lo32_ushiftRight, toNat_append_words]

/-- Settles O15: a clamped count goes no further than 32, where SHL and SHR leave 0 and SAR copies of the sign; SHF shifts the
number that the two words make. -/
theorem shifts : Obligations.shifts := by
  unfold Obligations.shifts
  intro f q
  exact ⟨exec_of_perLaneWord (fun o => shlWord_eq f.mod o.a o.b) rfl, exec_of_perLaneWord (fun o => shrWord_eq f.mod o.a o.b) rfl,
    exec_of_perLaneWord (fun o => sarWord_eq f.mod o.a o.b) rfl,
    fun hmod => exec_of_perLaneWord (fun o => shfWord_eq hmod o.a o.b o.c) rfl⟩

end Sys2Proof.Proofs
end

section
/-! PROOFS. Integer instructions: bit fields, counts, addresses and moves (O16). -/

namespace Sys2Proof.Proofs
open Sys2Proof Sys2Proof.Machine Sys2Proof.Safety Sys2Proof.Laws

/-! ### Bit fields (R99) -/

/-- Bit `i` of the field of `k` bits from position `p`. -/
theorem testBit_field (a : Word) (p k i : Nat) :
    (a.toNat / 2 ^ p % 2 ^ k).testBit i = (decide (i < k) && a.getLsbD (p + i)) := by
  rw [Nat.testBit_mod_two_pow, Nat.testBit_div_two_pow, BitVec.testBit_toNat, Nat.add_comm]

/-- A number of `k` bits less 2^k, in the low 32 bits. -/
theorem toNat_ofInt_sub_two_pow {v k : Nat} (hv : v < 2 ^ k) (hk : k ≤ 32) :
    (BitVec.ofInt 32 ((v : Int) - 2 ^ k)).toNat = 2 ^ k * (2 ^ (32 - k) - 1) + v := by
  have hpow : 2 ^ k * 2 ^ (32 - k) = 2 ^ 32 := by rw [← pow_add, Nat.add_sub_cancel' hk]
  have hle : 2 ^ k ≤ 2 ^ 32 := Nat.pow_le_pow_right (by decide) hk
  have hcast : (2 : Int) ^ k = ((2 ^ k : Nat) : Int) := by push_cast; rfl
  rw [BitVec.toNat_ofInt, Nat.mul_sub, hpow, hcast, Nat.mul_one]
  generalize 2 ^ k = t at hv hle
  omega

/-- Bit `i` of a number of `k` bits extended to a word, with ones where `P` holds and zeros where it does not. -/
theorem getLsbD_extended {P : Prop} [Decidable P] {v k i : Nat} (hv : v < 2 ^ k) (hk : k ≤ 32) (hi : i < 32) :
    (if P then BitVec.ofInt 32 ((v : Int) - 2 ^ k) else BitVec.ofNat 32 v).getLsbD i =
      if i < k then v.testBit i else decide P := by
  by_cases hP : P
  · rw [if_pos hP, ← BitVec.testBit_toNat, toNat_ofInt_sub_two_pow hv hk, Nat.testBit_two_pow_mul_add _ hv,
      Nat.testBit_two_pow_sub_one, decide_eq_true hP]
    split_ifs with hik
    · rfl
    · exact decide_eq_true (by omega)
  · rw [if_neg hP, BitVec.getLsbD_ofNat, decide_eq_true hi, Bool.true_and, decide_eq_false hP]
    split_ifs with hik
    · rfl
    · exact Nat.testBit_lt_two_pow (hv.trans_le (Nat.pow_le_pow_right (by decide) (Nat.not_lt.mp hik)))

theorem getLsbD_bfeWord (mod : BitVec 3) (a b c : Word) {i : Nat} (hi : i < 32) :
    let p := min (b.toNat % 256) 32
    let k := min (c.toNat % 256) (32 - p)
    (bfeWord mod.toNat a b c).getLsbD i =
      if i < k then a.getLsbD (p + i) else (mod == 1 && decide (0 < k) && a.getLsbD (p + k - 1)) := by
  intro p k
  have hk : k ≤ 32 := by omega
  have hv : a.toNat / 2 ^ p % 2 ^ k < 2 ^ k := Nat.mod_lt _ (Nat.two_pow_pos k)
  have hsign : decide (mod.toNat = 1 ∧ k ≠ 0 ∧ (a.toNat / 2 ^ p % 2 ^ k).testBit (k - 1) = true) =
      (mod == 1 && decide (0 < k) && a.getLsbD (p + k - 1)) := by
    rw [testBit_field]
    simp only [Bool.decide_and, Bool.decide_eq_true, toNat_mod_eq (show 1 < 8 by decide), BitVec.ofNat_eq_ofNat, ← Bool.and_assoc]
    rcases Nat.eq_zero_or_pos k with h0 | h0
    · simp [h0]
    · simp [h0, Nat.pos_iff_ne_zero.mp h0, Nat.add_sub_assoc h0, beq_eq_decide]
  refine (getLsbD_extended hv hk hi).trans ?_
  rw [hsign]
  split_ifs with hik
  · rw [testBit_field, decide_eq_true hik, Bool.true_and]
  · rfl

theorem getLsbD_bfiWord (a b c : Word) {i : Nat} (hi : i < 32) :
    let p := min (c.toNat % 256) 32
    let k := min (c.toNat / 256 % 256) (32 - p)
    (bfiWord a b c).getLsbD i = if p ≤ i ∧ i < p + k then a.getLsbD (i - p) else b.getLsbD i := by
  intro p k
  have hmask : (BitVec.ofNat 32 ((2 ^ k - 1) * 2 ^ p)).getLsbD i = decide (p ≤ i ∧ i < p + k) := by
    rw [BitVec.getLsbD_ofNat, Nat.testBit_mul_two_pow, Nat.testBit_two_pow_sub_one, decide_eq_true hi, Bool.true_and,
      ← Bool.decide_and]
    congr 1
    simp only [eq_iff_iff]
    omega
  change ((b &&& ~~~BitVec.ofNat 32 ((2 ^ k - 1) * 2 ^ p)) ||| ((a <<< p) &&& BitVec.ofNat 32 ((2 ^ k - 1) * 2 ^ p))).getLsbD i = _
  rw [BitVec.getLsbD_or, BitVec.getLsbD_and, BitVec.getLsbD_and, BitVec.getLsbD_not, BitVec.getLsbD_shiftLeft, hmask]
  split_ifs with h
  · simp [h, hi]
  · simp [h, hi]

/-! ### Counts and reversal (R100) -/

theorem toNat_popcWord (a : Word) : (popcWord a).toNat = ((List.range 32).filter (fun j => a.getLsbD j)).length := by
  have hle : ((List.range 32).filter (fun j => a.getLsbD j)).length ≤ 32 := by
    simpa using List.length_filter_le (fun j => a.getLsbD j) (List.range 32)
  rw [popcWord, BitVec.toNat_ofNat, Nat.mod_eq_of_lt (by omega)]

/-- CLZ gives the number of zero bits above the highest one, 32 where there is no one. -/
theorem clzWord_spec (a : Word) : (clzWord a).toNat ≤ 32 ∧ (∀ j, j < (clzWord a).toNat → a.getLsbD (31 - j) = false) ∧
    ((clzWord a).toNat < 32 → a.getLsbD (31 - (clzWord a).toNat) = true) := by
  by_cases ha : a = 0
  · subst ha
    exact ⟨le_refl 32, fun j _ => BitVec.getLsbD_zero, fun h => absurd h (by decide)⟩
  · have hne : a.toNat ≠ 0 := fun h => ha (BitVec.eq_of_toNat_eq h)
    have hlog : Nat.log2 a.toNat < 32 := (Nat.log2_lt hne).mpr a.isLt
    have hclz : (clzWord a).toNat = 31 - Nat.log2 a.toNat := by
      rw [clzWord, if_neg ha, BitVec.toNat_ofNat, Nat.mod_eq_of_lt (by omega)]
    rw [hclz]
    refine ⟨by omega, fun j hj => ?_, fun _ => ?_⟩
    · rw [← BitVec.testBit_toNat]
      refine Nat.testBit_lt_two_pow (Nat.lt_log2_self.trans_le (Nat.pow_le_pow_right (by decide) ?_))
      omega
    · rw [← BitVec.testBit_toNat, show 31 - (31 - Nat.log2 a.toNat) = Nat.log2 a.toNat by omega]
      exact Nat.testBit_log2 hne

/-- The sum that BREV makes of the first `n` bits: those bits in the opposite order, on top of 32 - n zeros. -/
theorem foldl_reversed (p : Nat → Bool) : ∀ n ≤ 32, ∃ r : Nat,
    (List.range n).foldl (fun v i => if p i then v + 2 ^ (31 - i) else v) 0 = 2 ^ (32 - n) * r ∧
    ∀ j < n, r.testBit j = p (n - 1 - j) := by
  intro n
  induction n with
  | zero => exact fun _ => ⟨0, rfl, by simp⟩
  | succ n ih =>
    intro hn
    obtain ⟨r, hr, hbits⟩ := ih (by omega)
    refine ⟨Nat.bit (p n) r, ?_, fun j hj => ?_⟩
    · rw [List.range_succ, List.foldl_append, hr, List.foldl_cons, List.foldl_nil, Nat.bit_val,
        show 32 - n = 31 - n + 1 by omega, show 32 - (n + 1) = 31 - n by omega, pow_succ]
      cases p n <;> simp <;> ring
    · cases j with
      | zero => rw [Nat.testBit_bit_zero]; rfl
      | succ j =>
        rw [Nat.testBit_bit_succ, hbits j (by omega)]
        congr 1
        omega

theorem getLsbD_brevWord (a : Word) {i : Nat} (hi : i < 32) : (brevWord a).getLsbD i = a.getLsbD (31 - i) := by
  obtain ⟨r, hr, hbits⟩ := foldl_reversed a.getLsbD 32 (le_refl 32)
  rw [brevWord, BitVec.getLsbD_ofNat, hr, Nat.sub_self, pow_zero, Nat.one_mul, hbits i hi, decide_eq_true hi, Bool.true_and]

/-! ### Addresses and moves (R101, R102) -/

theorem shiftLeft_eq_mul_ofInt {w : Nat} (x : BitVec w) (k : Nat) : x <<< k = x * BitVec.ofInt w (2 ^ k) := by
  rw [show (2 : Int) ^ k = ((2 ^ k : Nat) : Int) by push_cast; rfl, BitVec.ofInt_natCast]
  apply BitVec.eq_of_toNat_eq
  rw [BitVec.toNat_shiftLeft, BitVec.toNat_mul, BitVec.toNat_ofNat, Nat.mul_mod_mod, Nat.shiftLeft_eq]

theorem leaPair_eq (mod : BitVec 3) (k : Nat) (a : Dword) (b : Word) :
    leaPair mod.toNat k a b = BitVec.ofInt 64 (a.toNat + signedBy mod b * 2 ^ k) := by
  have hext : (if mod.toNat = 0 then b.signExtend 64 else b.setWidth 64) = BitVec.ofInt 64 (signedBy mod b) := by
    rw [← readAs_toNat, readAs, apply_ite (BitVec.ofInt 64), BitVec.ofInt_natCast, BitVec.ofNat_toNat]
    rfl
  rw [leaPair, hext, shiftLeft_eq_mul_ofInt, BitVec.ofInt_add, BitVec.ofInt_mul, ofInt_toNat]

/-- The two words of a sign-extended word. -/
theorem pairWords_signExtend (a : Word) : pairWords (a.signExtend 64) = [a, if a.msb then 0xFFFFFFFF else 0] := by
  have hlo : lo32 (a.signExtend 64) = a := by
    apply BitVec.eq_of_getLsbD_eq
    intro i hi
    rw [lo32, BitVec.getLsbD_setWidth, BitVec.getLsbD_signExtend]
    simp [hi, show i < 64 by omega]
  have hhi : hi32 (a.signExtend 64) = if a.msb then 0xFFFFFFFF else 0 := by
    apply BitVec.eq_of_getLsbD_eq
    intro i hi
    rw [hi32, BitVec.getLsbD_setWidth, BitVec.getLsbD_ushiftRight, BitVec.getLsbD_signExtend]
    cases a.msb
    · simp
    · rw [if_pos rfl, show (0xFFFFFFFF : Word) = BitVec.allOnes 32 from rfl, BitVec.getLsbD_allOnes]
      simp [hi, show 32 + i < 64 by omega]
  rw [pairWords, hlo, hhi]

theorem moviWords_eq (mod : BitVec 3) (imm : Word) :
    moviWords mod.toNat imm = if mod = 1 then [imm, if imm.msb then 0xFFFFFFFF else 0] else [imm] := by
  simp only [moviWords, pairWords_signExtend, toNat_mod_eq, Nat.reduceLT, BitVec.ofNat_eq_ofNat]

/-- NOP has no effect but that its entries go on (R103). -/
theorem exec_nop {f : Fields} {q : Issue} (h : Ready 0x000 f q) : exec (.nop f) q.s = .next (q.onward f q.s1) :=
  issue_of_ready (performNop f) h

/-- Settles O16: fields, counts and the reversal are read bit by bit; an address is a sum in the integers, cut to 64 bits. -/
theorem bitFieldsAddressesMoves : Obligations.bit_fields_addresses_moves := by
  unfold Obligations.bit_fields_addresses_moves
  refine ⟨fun f q => ⟨fun o => bfeWord f.mod.toNat o.a o.b o.c, fun o => bfiWord o.a o.b o.c, fun o => popcWord o.a,
      fun o => clzWord o.a, fun o => brevWord o.a, exec_of_perLaneWord (fun _ => rfl) rfl, exec_of_perLaneWord (fun _ => rfl) rfl,
      exec_of_perLaneWord (fun _ => rfl) rfl, exec_of_perLaneWord (fun _ => rfl) rfl, exec_of_perLaneWord (fun _ => rfl) rfl,
      fun o i hi => ⟨getLsbD_bfeWord f.mod o.a o.b o.c hi, getLsbD_bfiWord o.a o.b o.c hi, toNat_popcWord o.a, clzWord_spec o.a,
        getLsbD_brevWord o.a hi⟩⟩,
    fun f q => ⟨exec_of_perLane (fun o => congrArg pairWords (leaPair_eq f.mod f.sub.toNat o.aa o.b)) rfl,
      exec_of_perLane (fun _ => rfl) rfl, exec_of_perLane (fun _ => moviWords_eq f.mod f.imm) rfl, exec_nop⟩⟩

end Sys2Proof.Proofs
end

section
/-! PROOFS. Reductions over a list of words (R52, R112, R113): the integer combinations, the tree, and a single element. -/

namespace Sys2Proof.Proofs
open Sys2Proof Sys2Proof.Machine Sys2Proof.Safety Sys2Proof.Laws

/-! ### Integer combinations (R112) -/

theorem foldl_add_eq (xs : List Word) : xs.foldl (· + ·) 0 = BitVec.ofNat 32 ((xs.map (·.toNat)).foldl (· + ·) 0) := by
  rw [List.foldl_map]
  refine List.foldl_hom (BitVec.ofNat 32) (init := 0) fun n x => ?_
  rw [BitVec.ofNat_add, BitVec.ofNat_toNat, BitVec.setWidth_eq]

/-- An operation that takes the operand whose reading is least. -/
def picksLeast (key : Word → Int) (op : Word → Word → Word) : Prop :=
  ∀ a b, op a b = a ∧ key a ≤ key b ∨ op a b = b ∧ key b ≤ key a

theorem picksLeast_minWord (mod : Nat) : picksLeast (readAs mod) (minWord mod) := by
  intro a b
  unfold minWord
  split_ifs with h
  · exact .inl ⟨rfl, h⟩
  · exact .inr ⟨rfl, (not_le.mp h).le⟩

theorem picksLeast_maxWord (mod : Nat) : picksLeast (fun a => -readAs mod a) (maxWord mod) := by
  intro a b
  unfold maxWord
  split_ifs with h
  · exact .inr ⟨rfl, neg_le_neg h⟩
  · exact .inl ⟨rfl, neg_le_neg (not_le.mp h).le⟩

/-- A fold of such an operation gives one of the words, the first included, and none has a lesser reading. -/
theorem foldl_of_picksLeast {key : Word → Int} {op : Word → Word → Word} (hop : picksLeast key op) (xs : List Word) : ∀ w,
    xs.foldl op w ∈ w :: xs ∧ ∀ x ∈ w :: xs, key (xs.foldl op w) ≤ key x := by
  induction xs with
  | nil => exact fun w => ⟨List.mem_singleton_self w, fun x hx => by rw [List.mem_singleton.mp hx]; rfl⟩
  | cons y ys ih =>
    intro w
    obtain ⟨hmem, hleast⟩ := ih (op w y)
    simp only [List.foldl_cons, List.forall_mem_cons] at hmem hleast ⊢
    obtain ⟨hfirst, hrest⟩ := hleast
    rcases hop w y with ⟨hw, hle⟩ | ⟨hy, hle⟩
    · rw [hw] at hmem hfirst hrest ⊢
      exact ⟨by simp only [List.mem_cons] at hmem ⊢; tauto, hfirst, hfirst.trans hle, hrest⟩
    · rw [hy] at hmem hfirst hrest ⊢
      exact ⟨List.mem_cons_of_mem _ hmem, hfirst.trans hle, hfirst, hrest⟩

/-- Folded from the word of the greatest reading, which changes nothing, a list that is not empty gives one of its words of the
least reading. -/
theorem foldl_from_identity {key : Word → Int} {op : Word → Word → Word} {id : Word} (hop : picksLeast key op)
    (hkey : Function.Injective key) (hid : ∀ a, key a ≤ key id) (xs : List Word) :
    (xs = [] → xs.foldl op id = id) ∧ (xs ≠ [] → xs.foldl op id ∈ xs ∧ ∀ x ∈ xs, key (xs.foldl op id) ≤ key x) := by
  obtain ⟨hmem, hleast⟩ := foldl_of_picksLeast hop xs id
  have hall : ∀ x ∈ xs, key (xs.foldl op id) ≤ key x := fun x hx => hleast x (List.mem_cons_of_mem _ hx)
  refine ⟨fun h => by rw [h]; rfl, fun hne => ⟨?_, hall⟩⟩
  rcases List.mem_cons.mp hmem with hid' | hxs
  · obtain ⟨x, hx⟩ := List.exists_mem_of_ne_nil xs hne
    have hxid : x = id := hkey (le_antisymm (hid x) (hid' ▸ hall x hx))
    rw [hid', ← hxid]
    exact hx
  · exact hxs

theorem getLsbD_foldl_and (xs : List Word) (i : Nat) : ∀ w : Word,
    (xs.foldl (· &&& ·) w).getLsbD i = (w.getLsbD i && xs.all (fun x => x.getLsbD i)) := by
  induction xs with
  | nil => simp
  | cons x xs ih => intro w; rw [List.foldl_cons, ih, BitVec.getLsbD_and, List.all_cons, Bool.and_assoc]

theorem getLsbD_foldl_or (xs : List Word) (i : Nat) : ∀ w : Word,
    (xs.foldl (· ||| ·) w).getLsbD i = (w.getLsbD i || xs.any (fun x => x.getLsbD i)) := by
  induction xs with
  | nil => simp
  | cons x xs ih => intro w; rw [List.foldl_cons, ih, BitVec.getLsbD_or, List.any_cons, Bool.or_assoc]

theorem getLsbD_foldl_xor (xs : List Word) (i : Nat) : ∀ w : Word,
    (xs.foldl (· ^^^ ·) w).getLsbD i = (w.getLsbD i ^^ ((xs.filter (fun x => x.getLsbD i)).length % 2 == 1)) := by
  induction xs with
  | nil => simp
  | cons x xs ih =>
    intro w
    rw [List.foldl_cons, ih, BitVec.getLsbD_xor, Bool.xor_assoc, List.filter_cons]
    cases x.getLsbD i
    · simp
    · rcases Nat.mod_two_eq_zero_or_one (xs.filter (fun x => x.getLsbD i)).length with h | h <;>
        simp [Nat.add_mod, h]

theorem readAs_zero_le (a : Word) : readAs 0 a ≤ readAs 0 0x7FFFFFFF := Int.le_of_lt_add_one BitVec.toInt_lt
theorem le_readAs_zero (a : Word) : readAs 0 0x80000000 ≤ readAs 0 a := BitVec.le_toInt a
theorem readAs_one_le (a : Word) : readAs 1 a ≤ readAs 1 0xFFFFFFFF := Int.ofNat_le.mpr (Nat.le_of_lt_succ a.isLt)
theorem le_readAs_one (a : Word) : readAs 1 0 ≤ readAs 1 a := Int.ofNat_le.mpr (Nat.zero_le a.toNat)

/-- What REDUCE and SCAN fold from the identity of SUB is its combination of the words. -/
theorem combinedTo_foldl {sub : Nat} (h : sub ≤ 7) (xs : List Word) :
    combinedTo sub xs (xs.foldl (combine sub) (identityOf sub)) := by
  interval_cases sub
  · exact foldl_add_eq xs
  · exact foldl_from_identity (picksLeast_minWord 0) (readAs_injective 0) readAs_zero_le xs
  · have h := foldl_from_identity (picksLeast_maxWord 0) (neg_injective.comp (readAs_injective 0))
      (fun a => neg_le_neg (le_readAs_zero a)) xs
    simp only [neg_le_neg_iff] at h
    exact h
  · have h := foldl_from_identity (picksLeast_minWord 1) (readAs_injective 1) readAs_one_le xs
    simp only [readAs, one_ne_zero, if_false, Int.ofNat_le] at h
    exact h
  · have h := foldl_from_identity (picksLeast_maxWord 1) (neg_injective.comp (readAs_injective 1))
      (fun a => neg_le_neg (le_readAs_one a)) xs
    simp only [neg_le_neg_iff, readAs, one_ne_zero, if_false, Int.ofNat_le] at h
    exact h
  · intro i hi
    refine (getLsbD_foldl_and xs i _).trans ?_
    rw [show identityOf 5 = BitVec.allOnes 32 from rfl, BitVec.getLsbD_allOnes, decide_eq_true hi, Bool.true_and]
  · intro i _
    refine (getLsbD_foldl_or xs i _).trans ?_
    rw [show identityOf 6 = 0#32 from rfl, BitVec.getLsbD_zero, Bool.false_or]
  · intro i _
    refine (getLsbD_foldl_xor xs i _).trans ?_
    rw [show identityOf 7 = 0#32 from rfl, BitVec.getLsbD_zero, Bool.false_xor]

/-! ### The tree (R52) -/

/-- One level of the model's tree is one of the tree of R52. -/
theorem treeStep_treeLevel {α : Type} (add : α → α → α) (d : α) (xs : List α) : treeStep add d xs (treeLevel add xs) := by
  induction xs using treeLevel.induct with
  | case1 a b t ih =>
    obtain ⟨hlen, hpair, hodd⟩ := ih
    refine ⟨?_, fun i hi => ?_, fun h => ?_⟩
    · simp only [treeLevel, List.length_cons, hlen]; omega
    · cases i with
      | zero => rfl
      | succ i =>
        have hi' : i < t.length / 2 := by simp only [List.length_cons] at hi; omega
        simpa [treeLevel, Nat.mul_succ] using hpair i hi'
    · simp only [List.length_cons] at h
      have hlast := hodd (by omega)
      rw [List.length_cons, List.length_cons, show (t.length + 1 + 1) / 2 = t.length / 2 + 1 by omega,
        show t.length + 1 + 1 - 1 = t.length - 1 + 1 + 1 by omega]
      exact hlast
  | case2 t ht =>
    obtain ⟨hone, hsame⟩ : t.length ≤ 1 ∧ treeLevel add t = t := by
      match t, ht with
      | [], _ => exact ⟨Nat.zero_le 1, rfl⟩
      | [_], _ => exact ⟨le_refl 1, rfl⟩
      | a :: b :: u, ht => exact (ht a b u rfl).elim
    rw [hsame]
    refine ⟨by omega, fun i hi => by omega, fun h => ?_⟩
    rw [show t.length / 2 = t.length - 1 by omega]

/-- The model's tree over a list that is not empty, in levels enough. -/
theorem treeGives_tree {α : Type} (add : α → α → α) (d : α) : ∀ (n : Nat) (xs : List α), xs ≠ [] → xs.length ≤ n + 1 →
    treeGives add d n xs ((tree add n xs).headD d) := by
  intro n
  induction n with
  | zero =>
    intro xs hne hlen
    obtain ⟨x, rfl⟩ := List.length_eq_one_iff.mp (Nat.le_antisymm hlen (List.length_pos_of_ne_nil hne))
    rfl
  | succ n ih =>
    intro xs hne hlen
    rw [tree]
    split_ifs with hone
    · obtain ⟨x, rfl⟩ := List.length_eq_one_iff.mp (Nat.le_antisymm hone (List.length_pos_of_ne_nil hne))
      exact .inl rfl
    · have hstep := treeStep_treeLevel add d xs
      have hhalf : (treeLevel add xs).length = (xs.length + 1) / 2 := hstep.1
      refine .inr ⟨by omega, _, hstep, ih _ (List.ne_nil_of_length_pos (by omega)) (by omega)⟩

/-! ### A single element (R45, R113) -/

theorem nearestMag_self (f : Fmt) (md : RMode) (n : Bool) (c : Nat) : nearestMag f md n (magOf f c) c := by
  refine ⟨fun _ k => ⟨?_, fun heq hne => ?_⟩, fun _ _ => ⟨le_rfl, fun _ h => h⟩, fun _ _ => ⟨le_rfl, fun _ h => h⟩⟩
  · rw [sub_self, abs_zero]; exact abs_nonneg _
  · rw [sub_self, abs_zero] at heq
    exact absurd (sub_eq_zero.mp (abs_eq_zero.mp heq.symm)) hne

/-- Rounding a number that has a code gives that code, with no exception. -/
theorem roundIeee_exact {f : Fmt} (hf : IsIeee f) (md : RMode) (n : Bool) {m c : Nat} {e : Int} (hm : m ≠ 0)
    (hc : c ≤ maxCode f) (hv : magOf f c = m * (2 : ℝ) ^ e) : roundIeee f md n m e false = (c + signCode f n, 0) := by
  have hcode := roundIeee_of_code hf md n hm hc hv
  have hno : ¬ overflows f md n (signed n (magOf f c)) := by
    rw [← maxCode_lt_iff_overflows hf (hv ▸ by positivity) (nearestMag_self f md n c)]
    exact not_lt.mpr hc
  obtain ⟨-, -, hexc, -⟩ := (roundIeee_roundedTo hf md n hm (exactly_false.mpr hv) nofun).2 hno
  refine Prod.ext hcode (hexc ?_)
  obtain ⟨-, -, hval⟩ := fdecode_signCode hf n hc
  rw [hcode, hval]

/-- A word is its bits below the sign, and the sign. -/
theorem toNat_eq_add_signCode (x : Word) : x.toNat = x.toNat % 2 ^ 31 + signCode fF32 (x.toNat.testBit 31) := by
  have hlt := x.isLt
  rw [Nat.testBit_eq_decide_div_mod_eq, signCode, show fF32.ew + fF32.fw = 31 from rfl]
  split_ifs with h <;> simp only [decide_eq_true_eq] at h <;> omega

theorem sign_of_f32_eq_num {x : Word} {n : Bool} {m : Nat} {e : Int} (h : f32 x = .num n m e) : n = x.toNat.testBit 31 := by
  rw [f32_eq] at h
  split_ifs at h <;> injection h with hn <;> exact hn.symm

/-- A word that is no NaN passes unchanged, with no exception. -/
theorem packVal_f32 (md : RMode) (x : Word) (h : isNan (f32 x) = false) : packVal fF32 md (f32 x) = (x.toNat, 0) := by
  cases hv : f32 x with
  | nan s => rw [hv] at h; cases h
  | inf n =>
    have hx := toNat_eq_add_signCode x
    rw [f32_eq] at hv
    split_ifs at hv with hfin hsub hz
    injection hv with hn
    rw [packVal, ← hn]
    refine Prod.ext ?_ rfl
    change 0x7F800000 + _ = _
    omega
  | num n m e =>
    obtain ⟨hc, hval, -⟩ := fdecode_eq_num isIeee_F32 hv
    rw [toNat_eq_add_signCode x, ← sign_of_f32_eq_num hv, packVal]
    split_ifs with hm
    · have hzero : x.toNat % 2 ^ 31 = 0 := by
        apply (strictMono_magOf fF32).injective
        rw [show magOf fF32 0 = 0 by simp [magOf]]
        rwa [hm, Nat.cast_zero, zero_mul] at hval
      rw [hzero, Nat.zero_add]
    · exact roundIeee_exact isIeee_F32 md n hm hc hval

/-- A NaN gives the canonical NaN, and NV where it is signalling. -/
theorem packVal_f32_nan (md : RMode) (x : Word) (h : isNan (f32 x) = true) :
    packVal fF32 md (f32 x) = (0x7FC00000, if isSig (f32 x) then excNV else 0) := by
  cases hv : f32 x with
  | nan s => rfl
  | inf n => rw [hv] at h; cases h
  | num n m e => rw [hv] at h; cases h

end Sys2Proof.Proofs
end

section
/-! PROOFS. Votes, matches, reductions and scans over the executing elements (O18). -/

namespace Sys2Proof.Proofs
open Sys2Proof Sys2Proof.Machine Sys2Proof.Safety Sys2Proof.Laws

/-! ### The executing elements (R104) -/

theorem mem_execIndexes {q : Issue} {f : Fields} {e : Nat} : e ∈ execIndexes (q.elems f) ↔ q.takes f e := by
  simp [execIndexes, Issue.takes]

/-- The executing elements with what each contributes, by number. -/
def contributions {β : Type} (q : Issue) (f : Fields) (val : Nat → β) : List (Nat × β) :=
  (execIndexes (q.elems f)).map (fun e => (e, val e))

theorem forall_mem_contributions {β : Type} {q : Issue} {f : Fields} {val : Nat → β} {P : Nat × β → Prop} :
    (∀ p ∈ contributions q f val, P p) ↔ ∀ e, q.takes f e → P (e, val e) := by
  simp [contributions, mem_execIndexes]

theorem mem_map_fst_filter_contributions {β : Type} {q : Issue} {f : Fields} {val : Nat → β} {p : Nat × β → Bool} {e : Nat} :
    e ∈ ((contributions q f val).filter p).map (·.1) ↔ q.takes f e ∧ p (e, val e) = true := by
  simp only [contributions, List.mem_map, List.mem_filter, ← mem_execIndexes]
  constructor
  · rintro ⟨-, ⟨⟨e, he, rfl⟩, hp⟩, rfl⟩; exact ⟨he, hp⟩
  · rintro ⟨he, hp⟩; exact ⟨_, ⟨⟨e, he, rfl⟩, hp⟩, rfl⟩

theorem filter_lt_range (m n : Nat) : (List.range n).filter (fun e => decide (e < m)) = List.range (min m n) := by
  induction n with
  | zero => simp
  | succ n ih =>
    rw [List.range_succ, List.filter_append, ih]
    by_cases h : n < m
    · rw [min_eq_right h.le, min_eq_right h, List.range_succ]; simp [h]
    · rw [min_eq_left (not_lt.mp h), min_eq_left (by omega)]; simp [h]

/-- The values of the executing elements below `m` are the contributions with a number below `m`. -/
theorem values_eq (q : Issue) (f : Fields) (m : Nat) :
    q.values f m = ((contributions q f (q.a f)).filter (fun p => decide (p.1 < m))).map (·.2) := by
  rw [Issue.values, ← filter_lt_range, contributions, List.filter_map, List.map_map, execIndexes, List.filter_filter, List.filter_filter]
  congr 1
  exact List.filter_congr fun e _ => Bool.and_comm _ _

/-- The values of all executing elements. -/
theorem values_all (q : Issue) (f : Fields) : q.values f (q.elems f).length = (execIndexes (q.elems f)).map (q.a f) := by
  rw [Issue.values, min_self]; rfl

/-! ### Instructions over elements complete (R104, R105) -/

theorem exec_vote {f : Fields} {q : Issue} (h : Ready 0x043 f q) : exec (.vote f) q.s =
    .next (q.computesElems f none (if f.mod = 3 then 2 else 1) (voteWords f.mod.toNat (contributions q f (q.a f)))) := by
  change issue 0x043 f (performVote f) q.s = _
  rw [issue_of_ready _ h, performVote, core_of_ready h]
  rfl

theorem exec_elect {f : Fields} {q : Issue} (h : Ready 0x044 f q) : exec (.elect f) q.s =
    .next (q.computesElems f none 1 (fun e => [boolWord ((execIndexes (q.elems f)).head? == some e)])) := by
  change issue 0x044 f (performElect f) q.s = _
  rw [issue_of_ready _ h, performElect, core_of_ready h]
  rfl

/-- What MATCH compares of an element: the A value of 32 or 64 bits (R111). -/
def matchValue (q : Issue) (f : Fields) (e : Nat) : Dword :=
  if f.mod = 1 then readPair q.s1 q.core (elemAt (q.elems f) e).slot fldA f.a (elemAt (q.elems f) e).lane
  else (q.a f e).setWidth 64

/-- The executing elements whose value is that of element `e`. -/
def matching (q : Issue) (f : Fields) (e : Nat) : List Nat :=
  ((contributions q f (matchValue q f)).filter (fun p => p.2 == matchValue q f e)).map (·.1)

theorem exec_matchMask {f : Fields} {q : Issue} (h : Ready 0x047 f q) : exec (.matchMask f) q.s =
    .next (q.computesElems f none 2 (fun e => pairWords (windowMask (matching q f e) e))) := by
  change issue 0x047 f (performMatchMask f) q.s = _
  rw [issue_of_ready _ h, performMatchMask, core_of_ready h]
  rfl

theorem exec_reduce {f : Fields} {q : Issue} (hsub : f.sub.toNat ≤ 7) (h : Ready 0x045 f q) : exec (.reduce f) q.s =
    .next (q.computesElems f none 1 (fun _ =>
      [(q.values f (q.elems f).length).foldl (combine f.sub.toNat) (identityOf f.sub.toNat)])) := by
  change issue 0x045 f (performReduce f) q.s = _
  rw [issue_of_ready _ h, values_all]
  simp only [performReduce, core_of_ready h, if_pos hsub]
  rfl

theorem exec_reduce_float {f : Fields} {q : Issue} (hsub : 7 < f.sub.toNat) (h : Ready 0x045 f q) : exec (.reduce f) q.s =
    .next (q.computesFp f none 1 (fun _ => one32 (reduceFloat f.sub.toNat (rmOf f) (q.values f (q.elems f).length)))) := by
  rw [← issue_perLaneFp none 1 _ h, issue_of_ready _ h]
  change issue 0x045 f (performReduce f) q.s = _
  rw [issue_of_ready _ h, values_all]
  simp only [performReduce, core_of_ready h, if_neg (not_le.mpr hsub)]
  rfl

theorem exec_scan {f : Fields} {q : Issue} (h : Ready 0x046 f q) : exec (.scan f) q.s =
    .next (q.computesElems f none 1 (fun e => [scanWord f (contributions q f (q.a f)) e])) := by
  change issue 0x046 f (performScan f) q.s = _
  rw [issue_of_ready _ h, performScan, core_of_ready h]
  rfl

/-! ### Votes (R109, R110, R111) -/

/-- Bit `i` of the mask of element `e`'s window is that of element `i` of the window. -/
theorem getLsbD_windowMask (ns : List Nat) (e : Nat) {i : Nat} (hi : i < 64) :
    (windowMask ns e).getLsbD i = true ↔ e / 64 * 64 + i ∈ ns := by
  have hmask : windowMask ns e = maskOf ((ns.filter (fun n => n / 64 == e / 64)).map (· % 64)) := by
    rw [maskOf, List.foldl_map]; rfl
  rw [hmask, getLsbD_maskOf _ hi]
  simp only [List.mem_map, List.mem_filter, beq_iff_eq]
  constructor
  · rintro ⟨n, ⟨hn, hwin⟩, hbit⟩
    rwa [show e / 64 * 64 + i = n by omega]
  · exact fun h => ⟨_, ⟨h, by omega⟩, by omega⟩

theorem vote_all {q : Issue} {f : Fields} : truthOf (∀ k, q.takes f k → q.a f k ≠ 0)
    (boolWord (((contributions q f (q.a f)).filter (fun p => p.2 != 0)).length == (contributions q f (q.a f)).length)) := by
  refine boolWord_spec ?_
  rw [beq_iff_eq, List.length_filter_eq_length_iff, forall_mem_contributions]
  simp only [bne_iff_ne]

theorem vote_any {q : Issue} {f : Fields} : truthOf (∃ k, q.takes f k ∧ q.a f k ≠ 0)
    (boolWord !((contributions q f (q.a f)).filter (fun p => p.2 != 0)).isEmpty) := by
  refine boolWord_spec ?_
  rw [Bool.not_eq_true', ← Bool.not_eq_true, List.isEmpty_iff, List.filter_eq_nil_iff, forall_mem_contributions]
  simp only [bne_iff_ne, not_not, not_forall, exists_prop]

theorem vote_same {q : Issue} {f : Fields} : truthOf (∀ j k, q.takes f j → q.takes f k → q.a f j = q.a f k)
    (boolWord ((contributions q f (q.a f)).all (fun p => (contributions q f (q.a f)).all (fun r => p.2 == r.2)))) := by
  refine boolWord_spec ?_
  simp only [List.all_eq_true, forall_mem_contributions, beq_iff_eq]
  exact ⟨fun h j k hj hk => h j hj k hk, fun h j hj k hk => h j k hj hk⟩

theorem vote_count (q : Issue) (f : Fields) : ((contributions q f (q.a f)).filter (fun p => p.2 != 0)).length =
    ((q.values f (q.elems f).length).filter (fun a => a != 0)).length := by
  rw [values_all, contributions, List.filter_map, List.filter_map, List.length_map, List.length_map]
  rfl

theorem elect_first (q : Issue) (f : Fields) (e : Nat) : truthOf (q.takes f e ∧ ∀ k, k < e → ¬ q.takes f k)
    (boolWord ((execIndexes (q.elems f)).head? == some e)) := by
  refine boolWord_spec ?_
  rw [beq_iff_eq, execIndexes, List.head?_filter, List.find?_range_eq_some, List.mem_range]
  simp only [Bool.not_eq_true']
  constructor
  · rintro ⟨hexec, hlt, hfirst⟩
    exact ⟨⟨hlt, hexec⟩, fun k hk htakes => absurd htakes.2 (Bool.not_eq_true _ ▸ hfirst k hk)⟩
  · rintro ⟨⟨hlt, hexec⟩, hfirst⟩
    exact ⟨hexec, hlt, fun k hk => Bool.not_eq_true _ ▸ fun hk' => hfirst k hk ⟨hk.trans hlt, hk'⟩⟩

/-! ### Scans (R112) -/

theorem scanWord_eq (q : Issue) (f : Fields) (e : Nat) : scanWord f (contributions q f (q.a f)) e =
    (q.values f (if f.mod = 4 then e else e + 1)).foldl (combine f.sub.toNat) (identityOf f.sub.toNat) := by
  rw [scanWord, values_eq]
  congr 2
  refine List.filter_congr fun p _ => ?_
  by_cases hmod : f.mod = 4
  · simp [hmod]
  · rw [if_neg hmod, bne_iff_ne.mpr hmod, Bool.true_and, beq_eq_decide, ← Bool.decide_or]
    exact decide_eq_decide.mpr (Nat.lt_succ_iff_lt_or_eq).symm

/-- Settles O18: the words of votes and matches are read off the executing elements with their values; an integer combination is a
fold from its identity, and a floating-point one the tree of R52, which leaves a single element to be packed as it is. -/
theorem votesAndReductions : Obligations.votes_and_reductions := by
  unfold Obligations.votes_and_reductions
  refine ⟨fun f q => ⟨voteWords f.mod.toNat (contributions q f (q.a f)),
      fun e => boolWord ((execIndexes (q.elems f)).head? == some e),
      windowMask (((contributions q f (q.a f)).filter (fun p => p.2 != 0)).map (·.1)),
      fun e => windowMask (matching q f e) e, exec_vote, exec_elect, exec_matchMask, fun e => ?_⟩,
    fun f q => ⟨(q.values f (q.elems f).length).foldl (combine f.sub.toNat) (identityOf f.sub.toNat),
      scanWord f (contributions q f (q.a f)), exec_reduce, exec_reduce_float, exec_scan, fun hsub =>
        ⟨combinedTo_foldl hsub _, fun e => ?_⟩⟩,
    fun sub md xs => ⟨fun hlen => ?_, fun x => ⟨packVal_f32 md x, packVal_f32_nan md x⟩⟩⟩
  · refine ⟨fun hmod => ?_, fun hmod => ?_, fun hmod => ?_, fun hmod => ?_, fun hmod => ?_, elect_first q f e, fun i hi => ?_⟩
    · rw [hmod]; exact ⟨_, rfl, vote_all⟩
    · rw [hmod]; exact ⟨_, rfl, vote_any⟩
    · rw [hmod]; exact ⟨_, rfl, vote_same⟩
    · rw [hmod]
      refine ⟨rfl, fun i hi => ?_⟩
      rw [getLsbD_windowMask _ e hi, mem_map_fst_filter_contributions, bne_iff_ne]
    · rw [hmod, ← vote_count]; rfl
    · rw [getLsbD_windowMask _ e hi, matching, mem_map_fst_filter_contributions, beq_iff_eq]
      rfl
  · rw [scanWord_eq]; exact combinedTo_foldl hsub _
  · match xs, hlen with
    | x :: y :: t, _ => exact treeGives_tree _ _ _ _ (by simp) (by simp)

end Sys2Proof.Proofs
end

section
/-! PROOFS. Codes of rounded numbers (R43, R44): how far a rounded magnitude lies from the number, its neighbours, and results that
are one of the two (R121). -/

namespace Sys2Proof.Proofs
open Sys2Proof Sys2Proof.Machine Sys2Proof.Safety Sys2Proof.Laws

/-! ### How far a rounded number lies -/

theorem bitLen_le_of_lt {p m : Nat} (h : m < 2 ^ p) : bitLen m ≤ p := by
  by_contra hp
  have hm : m ≠ 0 := by rintro rfl; exact hp (Nat.zero_le _)
  obtain ⟨l, hl, hlo, -⟩ := bitLen_spec hm
  exact absurd (h.trans_le (Nat.pow_le_pow_right (by decide) (by omega : p ≤ l))) (not_lt.mpr hlo)

/-- A magnitude rounded to a multiple of 2^q, with or without a sticky bit: the integer part of the quotient or the next integer. -/
theorem roundAt_floor (md : RMode) (neg st : Bool) (m : Nat) (e q : Int) :
    (roundAt md neg m e st q).1 = ⌊(m * (2 : ℝ) ^ e) / (2 : ℝ) ^ q⌋₊ ∨
    (roundAt md neg m e st q).1 = ⌊(m * (2 : ℝ) ^ e) / (2 : ℝ) ^ q⌋₊ + 1 := by
  rw [mul_div_assoc, ← zpow_sub₀ (by norm_num), roundAt]
  split
  case isTrue hqe =>
    left
    rw [← Int.toNat_of_nonneg (sub_nonneg.mpr hqe), zpow_natCast]
    exact_mod_cast (Nat.floor_natCast _).symm
  case isFalse hqe =>
    have hquot : ⌊(m : ℝ) * (2 : ℝ) ^ (e - q)⌋₊ = m / 2 ^ (q - e).toNat := by
      rw [show e - q = -((q - e).toNat : Int) by omega, zpow_neg, zpow_natCast, ← div_eq_mul_inv]
      exact_mod_cast Nat.floor_div_eq_div m (2 ^ (q - e).toNat)
    rw [hquot]
    exact (ite_eq_or_eq ..).symm

/-- A code that a format rounds a magnitude to stands for a number within one quantum of it. -/
theorem abs_magOf_roundMag_sub_le (f : Fmt) (md : RMode) (neg st : Bool) {m : Nat} (e : Int) (hm : m ≠ 0) :
    |magOf f (roundMag f md neg m e st).code - m * (2 : ℝ) ^ e| ≤
      (2 : ℝ) ^ (max (e + bitLen m - (f.fw + 1 : Nat)) (1 - (f.bias : Int) - f.fw)) := by
  set q : Int := max (e + bitLen m - (f.fw + 1 : Nat)) (1 - (f.bias : Int) - f.fw) with hq
  obtain ⟨E, hE⟩ : ∃ E : Nat, q + f.fw + f.bias - 1 = E := ⟨(q + f.fw + f.bias - 1).toNat, by omega⟩
  have hcode : (roundMag f md neg m e st).code = E * 2 ^ f.fw + (roundAt md neg m e st q).1 := by
    simp only [roundMag, ← hq, hE, Int.toNat_natCast]
  have hu : (0 : ℝ) < (2 : ℝ) ^ q := by positivity
  have hfloor := roundAt_floor md neg st m e q
  obtain ⟨hy, hn, hEn⟩ := floor_significand (y := m * (2 : ℝ) ^ e / (2 : ℝ) ^ q) (st := false) hm hq hE
    (exactly_false.mpr (by field_simp))
  set y := m * (2 : ℝ) ^ e / (2 : ℝ) ^ q with hyq
  have h1 := Nat.floor_le hy
  have h2 := Nat.lt_floor_add_one y
  have hr : |((roundAt md neg m e st q).1 : ℝ) - y| ≤ 1 := by
    rw [abs_le]
    rcases hfloor with h | h <;> rw [h] <;> push_cast <;> constructor <;> linarith
  rw [hcode, magOf_significand f (by omega) (hEn.imp_right fun h => by omega),
    show (E : Int) + 1 - f.bias - f.fw = q by omega, show m * (2 : ℝ) ^ e = y * (2 : ℝ) ^ q by rw [hyq]; field_simp, ← sub_mul,
    abs_mul, abs_of_pos hu]
  exact mul_le_of_le_one_left hu.le hr

/-- Rounding to a code that is finite, and past the finite codes. -/
theorem roundIeee_of_le {f : Fmt} {md : RMode} {neg st : Bool} {m : Nat} {e : Int} (h : (roundMag f md neg m e st).code ≤ maxCode f) :
    roundIeee f md neg m e st = ((roundMag f md neg m e st).code + signCode f neg,
      if (roundMag f md neg m e st).inexact then (if (roundMag f md neg m e st).tiny then excUF ||| excNX else excNX) else 0) :=
  if_neg (ne_true_of_eq_false (decide_eq_false (not_lt.mpr h)))

theorem roundIeee_of_lt {f : Fmt} {md : RMode} {neg st : Bool} {m : Nat} {e : Int} (h : maxCode f < (roundMag f md neg m e st).code) :
    roundIeee f md neg m e st =
      ((if overToMax md neg then maxCode f else infCode f) + signCode f neg, excOF ||| excNX) :=
  if_pos (decide_eq_true h)

theorem overToMax_eq_false_iff (md : RMode) (neg : Bool) : overToMax md neg = false ↔ md = .rne ∨ awayFrom md neg := by
  cases md <;> cases neg <;> simp [overToMax, awayFrom]

/-- The F32 codes of magnitudes below 2^128 are finite. -/
theorem le_maxCode_of_magOf_lt {c : Nat} (h : magOf fF32 c < (2 : ℝ) ^ (128 : Int)) : c ≤ maxCode fF32 := by
  rw [show (128 : Int) = topExpo fF32 + 1 by decide, ← magOf_infCode isIeee_F32, (strictMono_magOf fF32).lt_iff_lt,
    ← maxCode_succ isIeee_F32] at h
  exact Nat.le_of_lt_succ h

/-- A magnitude that stays, with its quantum, below 2^128 rounds to a finite F32 code within a quantum of it. -/
theorem roundIeee_near (md : RMode) (neg st : Bool) {m : Nat} {e b : Int} (hm : m ≠ 0) (hb : max (e + bitLen m - 24) (-149) ≤ b)
    (hlt : m * (2 : ℝ) ^ e + (2 : ℝ) ^ b < (2 : ℝ) ^ (128 : Int)) : ∃ c ≤ maxCode fF32,
      (roundIeee fF32 md neg m e st).1 = c + signCode fF32 neg ∧ |magOf fF32 c - m * (2 : ℝ) ^ e| ≤ (2 : ℝ) ^ b := by
  have hnear := (abs_magOf_roundMag_sub_le fF32 md neg st e hm).trans (zpow_le_zpow_right₀ (by norm_num) hb)
  have hc := le_maxCode_of_magOf_lt (hlt.trans_le' (by linarith [(abs_le.mp hnear).2]))
  exact ⟨_, hc, by rw [roundIeee_of_le hc], hnear⟩

/-! ### The two neighbours of a number -/

/-- Toward zero: the greatest finite code whose magnitude is not above the number, without exception where it is the number. -/
theorem roundIeee_toward {f : Fmt} (hf : IsIeee f) {md : RMode} {neg : Bool} {v : ℝ} {m : Nat} {e : Int} {st : Bool}
    (hmd : md ≠ .rne) (ha : ¬ awayFrom md neg) (hm : m ≠ 0) (hv : exactly v m e st) (hst : st = true → f.fw + 2 ≤ bitLen m) :
    ∃ c ≤ maxCode f, (roundIeee f md neg m e st).1 = c + signCode f neg ∧ magOf f c ≤ v ∧
      (∀ k ≤ maxCode f, magOf f k ≤ v → magOf f k ≤ magOf f c) ∧
      (magOf f c = v → (roundIeee f md neg m e st).2 = 0) := by
  obtain ⟨hnear, hinex⟩ := roundMag_spec hf md neg hm hv hst
  obtain ⟨hle, hgreatest⟩ := hnear.2.2 hmd ha
  rcases Nat.lt_or_ge (maxCode f) (roundMag f md neg m e st).code with hc | hc
  · have hlt := strictMono_magOf f hc
    have hmax : overToMax md neg = true := by rw [← Bool.not_eq_false, overToMax_eq_false_iff, not_or]; exact ⟨hmd, ha⟩
    exact ⟨_, le_rfl, by rw [roundIeee_of_lt hc, if_pos hmax], hlt.le.trans hle, fun k hk _ => (strictMono_magOf f).monotone hk,
      fun heq => absurd (hlt.trans_le hle) heq.not_lt⟩
  · refine ⟨_, hc, by rw [roundIeee_of_le hc], hle, fun k _ => hgreatest k, fun heq => ?_⟩
    rw [roundIeee_of_le hc, if_neg (mt hinex.mp (not_not.mpr heq))]

/-- Away from zero: the least code whose magnitude is not below the number, or that of infinity. -/
theorem roundIeee_away {f : Fmt} (hf : IsIeee f) {md : RMode} {neg : Bool} {v : ℝ} {m : Nat} {e : Int} {st : Bool}
    (ha : awayFrom md neg) (hm : m ≠ 0) (hv : exactly v m e st) (hst : st = true → f.fw + 2 ≤ bitLen m) :
    ∃ c ≤ infCode f, (roundIeee f md neg m e st).1 = c + signCode f neg ∧ (c ≤ maxCode f → v ≤ magOf f c) ∧
      (∀ k ≤ maxCode f, v ≤ magOf f k → magOf f c ≤ magOf f k) := by
  have hmd : md ≠ .rne := by rintro rfl; simp [awayFrom] at ha
  obtain ⟨hle, hleast⟩ := (roundMag_spec hf md neg hm hv hst).1.2.1 hmd ha
  have hmax := (overToMax_eq_false_iff md neg).mpr (.inr ha)
  have hsucc := maxCode_succ hf
  rcases Nat.lt_or_ge (maxCode f) (roundMag f md neg m e st).code with hc | hc
  · refine ⟨_, le_rfl, by rw [roundIeee_of_lt hc, hmax, if_neg (by decide)], fun h => by omega, fun k hk hvk => ?_⟩
    exact absurd ((strictMono_magOf f).le_iff_le.mp (hleast k hvk)) (by omega)
  · exact ⟨_, by omega, by rw [roundIeee_of_le hc], fun _ => hle, fun k _ => hleast k⟩

/-! ### Faithful results (R121, R122) -/

/-- Toward zero is down for a positive number and up for a negative one. -/
theorem roundIeee_rz (f : Fmt) (neg : Bool) (m : Nat) (e : Int) (st : Bool) :
    roundIeee f .rz neg m e st = roundIeee f (if neg then .ru else .rd) neg m e st := by
  cases neg <;> simp [roundIeee, roundMag, roundAt, roundShift, overToMax]

theorem lt_of_le_infCode {f : Fmt} (hf : IsIeee f) {c : Nat} (hc : c ≤ infCode f) : c < 2 ^ (f.ew + f.fw) := by
  obtain ⟨T, hT, hinf, -⟩ := exists_topField hf
  rw [pow_add, hT]
  have : 0 < 2 ^ f.fw := by positivity
  rw [hinf] at hc
  exact hc.trans_lt (Nat.mul_lt_mul_of_pos_right (by omega) this)

/-- An F32 code up to that of infinity, with a sign, as a word. -/
theorem toNat_ofNat_code (neg : Bool) {c : Nat} (hc : c ≤ infCode fF32) :
    (BitVec.ofNat 32 (c + signCode fF32 neg)).toNat = c + signCode fF32 neg ∧ (c + signCode fF32 neg) % 2 ^ 31 = c := by
  refine ⟨Nat.mod_eq_of_lt ?_, (signCode_lt fF32 neg (lt_of_le_infCode isIeee_F32 hc)).2⟩
  have : infCode fF32 = 0x7F800000 := rfl
  cases neg <;> simp only [signCode, if_true, if_false, Bool.false_eq_true, show fF32.ew + fF32.fw = 31 from rfl] <;> omega

theorem f32_infCode (neg : Bool) : f32 (BitVec.ofNat 32 (infCode fF32 + signCode fF32 neg)) = .inf neg := by
  cases neg <;> decide

/-- The exceptions of an inexact result by its code. -/
theorem approxExc_code (neg : Bool) {c : Nat} (hc : c ≤ infCode fF32) : approxExc (BitVec.ofNat 32 (c + signCode fF32 neg)) =
    if c = infCode fF32 then excNX ||| excOF else if c < 2 ^ 23 then excNX ||| excUF else excNX := by
  obtain ⟨htoNat, hmod⟩ := toNat_ofNat_code neg hc
  simp only [approxExc, htoNat, hmod]

/-- A faithful result, by its code: exact and without exception, or inexact. -/
theorem faithfulTo_of_code {neg : Bool} {x : ℝ} {c : Nat} {ex : Exc} (hc : c ≤ infCode fF32)
    (hr : ∃ ex, roundedTo fF32 .rd neg x (c + signCode fF32 neg, ex) ∨ roundedTo fF32 .ru neg x (c + signCode fF32 neg, ex))
    (hx : (c ≤ maxCode fF32 ∧ signed neg (magOf fF32 c) = x ∧ ex = 0) ∨
      ((c ≤ maxCode fF32 → signed neg (magOf fF32 c) ≠ x) ∧ x ≠ 0 ∧ ex = approxExc (BitVec.ofNat 32 (c + signCode fF32 neg)))) :
    faithfulTo neg x (BitVec.ofNat 32 (c + signCode fF32 neg), ex) := by
  have hsucc := maxCode_succ isIeee_F32
  obtain ⟨htoNat, hmod⟩ := toNat_ofNat_code neg hc
  rw [faithfulTo, htoNat, hmod]
  refine ⟨hr, ?_⟩
  rcases Nat.lt_or_ge (maxCode fF32) c with hinf | hfin
  · obtain rfl : c = infCode fF32 := by omega
    obtain ⟨-, hx0, rfl⟩ := hx.resolve_left fun h => by omega
    rw [f32_infCode, approxExc_code neg le_rfl]
    exact ⟨fun h => absurd (by simpa [ratOf] using h.symm) hx0, fun _ _ => by simp, fun _ h => nomatch h⟩
  · obtain ⟨hcode, -, hval⟩ := fdecode_signCode isIeee_F32 neg hfin
    rw [← htoNat] at hcode hval
    rw [f32, hval]
    rcases hx with ⟨-, heq, rfl⟩ | ⟨hne, -, rfl⟩
    · exact ⟨fun _ => rfl, fun h => absurd heq h, fun h => absurd heq h⟩
    · rw [approxExc_code neg hc, if_neg (by omega)]
      exact ⟨fun h => absurd h (hne hfin), fun _ h => absurd (hcode.2.symm.trans h) (by decide), fun _ _ => rfl⟩

/-- One of the two neighbours of a number, whichever the part takes, is a faithful result. -/
theorem pickFaithful_faithfulTo (fn : Nat) (x : Word) (neg : Bool) {v : ℝ} {m : Nat} {e : Int} {st : Bool} (hm : m ≠ 0)
    (hv : exactly v m e st) (hst : st = true → fF32.fw + 2 ≤ bitLen m) :
    faithfulTo neg (signed neg v) (pickFaithful fn x neg (m, e, st)) := by
  have hv0 : 0 < v := lt_of_lt_of_le (by positivity) (exactly_bounds hm hv).1
  have hx0 : signed neg v ≠ 0 := by cases neg <;> simp [signed, hv0.ne']
  have hmono := strictMono_magOf fF32
  have hsucc := maxCode_succ isIeee_F32
  have hround : ∀ md : RMode, md = .rd ∨ md = .ru → ∃ ex, roundedTo fF32 .rd neg (signed neg v)
      ((roundIeee fF32 md neg m e st).1, ex) ∨ roundedTo fF32 .ru neg (signed neg v) ((roundIeee fF32 md neg m e st).1, ex) := by
    intro md hmd
    have h := roundIeee_roundedTo isIeee_F32 md neg hm hv hst
    rw [← Prod.mk.eta (p := roundIeee fF32 md neg m e st)] at h
    rcases hmd with rfl | rfl
    · exact ⟨_, .inl h⟩
    · exact ⟨_, .inr h⟩
  obtain ⟨c, hc, hlo, hcv, hgreatest, hexact⟩ := roundIeee_toward isIeee_F32 (md := if neg then .ru else .rd) (neg := neg)
    (by cases neg <;> decide) (by cases neg <;> simp [awayFrom]) hm hv hst
  obtain ⟨d, hd, hhi, hdv, hleast⟩ := roundIeee_away isIeee_F32 (md := if neg then .rd else .ru) (neg := neg)
    (by cases neg <;> simp [awayFrom]) hm hv hst
  have hrlo := hround (if neg then .ru else .rd) (by cases neg <;> simp)
  have hrhi := hround (if neg then .rd else .ru) (by cases neg <;> simp)
  rw [hlo] at hrlo
  rw [hhi] at hrhi
  simp only [pickFaithful, roundIeee_rz, hlo, hhi]
  split
  case isTrue heq =>
    obtain rfl : c = d := Nat.add_right_cancel heq
    exact faithfulTo_of_code (by omega) hrlo
      (.inl ⟨hc, by rw [hcv.antisymm (hdv hc)], hexact (hcv.antisymm (hdv hc))⟩)
  case isFalse hne =>
    have hother : ∀ k ≤ maxCode fF32, magOf fF32 k ≠ v := fun k hk hkv => by
      have hck : c = k := hmono.injective ((hcv.trans hkv.ge).antisymm (hgreatest k hk hkv.le))
      have hdk := hleast k hk hkv.ge
      have hdk' : d = k := hmono.injective (hdk.antisymm (hkv.trans_le (hdv ((hmono.le_iff_le.mp hdk).trans hk))))
      exact hne (by rw [hck, hdk'])
    rw [apply_ite (BitVec.ofNat 32)]
    split
    · exact faithfulTo_of_code hd hrhi (.inr ⟨fun h => mt signed_inj.mp (hother d h), hx0, rfl⟩)
    · exact faithfulTo_of_code (by omega) hrlo (.inr ⟨fun h => mt signed_inj.mp (hother c h), hx0, rfl⟩)

end Sys2Proof.Proofs
end

section
/-! PROOFS. Approximated functions (O20): results inside a bound, and reciprocals (R121, R122). -/

namespace Sys2Proof.Proofs
open Sys2Proof Sys2Proof.Machine Sys2Proof.Safety Sys2Proof.Laws

/-! ### Results inside a bound (R121; log 8) -/

/-- The number that a near value names. -/
def nearRat (y : Near) : ℚ := ratOf (.num y.neg y.n y.e)

theorem withinAbs_spec {c : Word} {y : Near} {b : Int} (h : withinAbs c y b = true) :
    finiteCode fF32 c.toNat ∧ |ratOf (f32 c) - nearRat y| ≤ (2 : ℚ) ^ b := by
  unfold withinAbs at h
  split at h
  case h_2 => cases h
  case h_1 neg m e hc =>
    refine ⟨by simp [finiteCode, hc, isNan, isInf], ?_⟩
    rw [f32, hc]
    set base := min (min e y.e) b with hbase
    have h1 := mul_two_pow_toNat m (show base ≤ e by omega)
    have h2 := mul_two_pow_toNat y.n (show base ≤ y.e by omega)
    have h3 := mul_two_pow_toNat 1 (show base ≤ b by omega)
    have hu : (0 : ℚ) < (2 : ℚ) ^ base := by positivity
    rw [decide_eq_true_eq] at h
    set d : Int := (if neg then -((m * 2 ^ (e - base).toNat : Nat) : Int) else (m * 2 ^ (e - base).toNat : Nat)) -
      (if y.neg then -((y.n * 2 ^ (y.e - base).toNat : Nat) : Int) else (y.n * 2 ^ (y.e - base).toNat : Nat)) with hd
    have hdiff : ratOf (.num neg m e) - nearRat y = d * (2 : ℚ) ^ base := by
      rw [hd, nearRat, ratOf, ratOf]
      push_cast
      rw [sub_mul, ite_neg_mul neg h1, ite_neg_mul y.neg h2]
    rw [hdiff, abs_mul, abs_of_pos hu, ← one_mul ((2 : ℚ) ^ b), ← Nat.cast_one, ← h3]
    gcongr
    rw [Nat.cast_one, one_mul, ← Int.cast_abs, ← Nat.cast_natAbs]
    exact_mod_cast h

/-- A finite word within 2^b of a number, with the exceptions of its code. -/
theorem inBound_of_finite {c : Word} {y : ℚ} {b : Int} (hfin : finiteCode fF32 c.toNat)
    (hnear : |ratOf (f32 c) - y| ≤ (2 : ℚ) ^ b) : inBound y b (c, approxExc c) := by
  refine ⟨hfin, hnear, ?_⟩
  have hle := (finiteCode_iff isIeee_F32).mp hfin
  have hsucc := maxCode_succ isIeee_F32
  exact if_neg (by rw [show fF32.ew + fF32.fw = 31 from rfl] at hle; omega)

/-- The word written for an inexact result lies inside the bound, whatever the part's own result is. -/
theorem pickApprox_inBound (fn : Nat) (x : Word) {y : Near} {b : Int} (hn : y.n ≠ 0)
    (hb : max (y.e + bitLen y.n - 24) (-149) ≤ b) (hlt : (y.n : ℝ) * (2 : ℝ) ^ y.e + (2 : ℝ) ^ b < (2 : ℝ) ^ (128 : Int)) :
    inBound (nearRat y) b (pickApprox fn x false y b) := by
  simp only [pickApprox, Bool.false_eq_true, if_false]
  split
  case isTrue h =>
    obtain ⟨hfin, hnear⟩ := withinAbs_spec h
    exact inBound_of_finite hfin hnear
  case isFalse =>
    obtain ⟨c, hc, hcode, hnear⟩ := roundIeee_near .rne y.neg true hn hb hlt
    obtain ⟨hfin, -, hval⟩ := fdecode_signCode isIeee_F32 y.neg hc
    have hsucc := maxCode_succ isIeee_F32
    obtain ⟨htoNat, -⟩ := toNat_ofNat_code y.neg (show c ≤ infCode fF32 by omega)
    rw [hcode]
    refine inBound_of_finite (by rwa [htoNat]) ?_
    rw [f32, htoNat]
    have : |((ratOf (fdecode fF32 (c + signCode fF32 y.neg)) : ℚ) : ℝ) - ((nearRat y : ℚ) : ℝ)| ≤ (2 : ℝ) ^ b := by
      rwa [hval, nearRat, ratOf_num, abs_signed_sub _ _ (magOf_nonneg _ _) (by positivity), if_pos rfl]
    rw [← Rat.cast_le (K := ℝ)]
    push_cast
    exact this

/-! ### Reciprocals (R122) -/

/-- The functions decode their operand as `f32` does. -/
theorem fdecode_toNat (x : Word) : fdecode fF32 x.toNat = f32 x := rfl

/-- FRCP of a number. -/
theorem frcpF_faithful {x : Word} {n : Bool} {m : Nat} {e : Int} (hx : f32 x = .num n m e) (hm : m ≠ 0) :
    faithfulTo n ((1 / ratOf (f32 x) : ℚ) : ℝ) (frcpF x) := by
  obtain ⟨hexact, hbits⟩ := divMag_spec 27 0 e one_ne_zero hm
  have hlen := lt_bitLen_of_two_pow_le hbits
  have hval : ((1 / ratOf (f32 x) : ℚ) : ℝ) = signed n (((1 : Nat) : ℝ) * (2 : ℝ) ^ (0 : Int) / (m * (2 : ℝ) ^ e)) := by
    rw [hx, Rat.cast_div, ratOf_num]
    cases n <;> simp [signed, div_neg]
  rw [hval, frcpF, fdecode_toNat, hx]
  simp only [if_neg hm]
  exact pickFaithful_faithfulTo 0 x n ((Nat.two_pow_pos 27).trans_le hbits).ne' hexact fun _ => hlen.trans' (by decide)

theorem bitLen_half {m : Nat} (hm : 2 ≤ bitLen m) : bitLen m = bitLen (m / 2) + 1 := by
  have hm0 : m ≠ 0 := by rintro rfl; exact absurd hm (by decide)
  obtain ⟨l, hl, hlo, hhi⟩ := bitLen_spec hm0
  obtain ⟨k, rfl⟩ : ∃ k, l = k + 1 := ⟨l - 1, by omega⟩
  rw [pow_succ] at hlo hhi
  have h1 := lt_bitLen_of_two_pow_le (show 2 ^ k ≤ m / 2 by omega)
  have h2 := bitLen_le_of_lt (show m / 2 < 2 ^ (k + 1) by omega)
  omega

/-- Under a sticky bit the last bit of those shifted out does not matter. -/
theorem roundShift_sticky_half (md : RMode) (neg : Bool) (m n : Nat) :
    roundShift md neg m (n + 2) true = roundShift md neg (m / 2) (n + 1) true := by
  have hq : m / 2 / 2 ^ (n + 1) = m / 2 ^ (n + 2) := by rw [Nat.div_div_eq_div_mul, ← pow_succ']
  have hr : m / 2 % 2 ^ (n + 1) = m % 2 ^ (n + 2) / 2 := by rw [pow_succ' 2 (n + 1), Nat.mod_mul_right_div_self]
  have hhalf : 2 ^ (n + 2) / 2 = 2 * 2 ^ n ∧ 2 ^ (n + 1) / 2 = 2 ^ n := by rw [pow_succ, pow_succ]; omega
  have hup : (decide (2 * 2 ^ n < m % 2 ^ (n + 2)) || m % 2 ^ (n + 2) == 2 * 2 ^ n) =
      (decide (2 ^ n < m % 2 ^ (n + 2) / 2) || m % 2 ^ (n + 2) / 2 == 2 ^ n) := by
    rw [Bool.eq_iff_iff]
    simp only [Bool.or_eq_true, decide_eq_true_eq, beq_iff_eq]
    omega
  simp only [roundShift, hq, hr, hhalf, Bool.or_true, Bool.true_or, Bool.and_true, hup]
  cases md <;> rfl

/-- Under a sticky bit the last bit of a long significand does not matter. -/
theorem roundIeee_sticky_half (f : Fmt) (md : RMode) (neg : Bool) {m : Nat} (e : Int) (hm : f.fw + 3 ≤ bitLen m) :
    roundIeee f md neg m e true = roundIeee f md neg (m / 2) (e + 1) true := by
  have hlen := bitLen_half (show 2 ≤ bitLen m by omega)
  have hround : ∀ q : Int, e + 2 ≤ q → roundAt md neg m e true q = roundAt md neg (m / 2) (e + 1) true q := fun q hq => by
    rw [roundAt, if_neg (by omega), roundAt, if_neg (by omega)]
    obtain ⟨n, hn⟩ : ∃ n : Nat, q - e = (n + 2 : Nat) := ⟨(q - e - 2).toNat, by omega⟩
    rw [show q - (e + 1) = (n + 1 : Nat) by omega, hn, Int.toNat_natCast, Int.toNat_natCast, roundShift_sticky_half]
  have hmag : roundMag f md neg m e true = roundMag f md neg (m / 2) (e + 1) true := by
    have hexp : e + 1 + bitLen (m / 2) = e + bitLen m := by omega
    simp only [roundMag, hexp]
    rw [hround _ (by omega), hround _ (by omega)]
  simp only [roundIeee, hmag]

/-- The square root of a long significand, which is scaled at most by 2 to make its exponent even. -/
theorem sqrtMag_of_long {p m : Nat} (e : Int) (hm : 2 * p + 2 ≤ bitLen m) : ∃ k ≤ 1, e - (k : Nat) = 2 * (sqrtMag p m e).2.1 ∧
    (sqrtMag p m e).1 * (sqrtMag p m e).1 ≤ m * 2 ^ k ∧
    m * 2 ^ k < ((sqrtMag p m e).1 + 1) * ((sqrtMag p m e).1 + 1) := by
  simp only [sqrtMag, Nat.min_eq_left hm, Nat.sub_self, Nat.cast_zero, sub_zero, zero_add]
  split
  case isTrue h => exact ⟨0, by decide, by omega, isqrt_spec _⟩
  case isFalse h => exact ⟨1, le_rfl, by omega, isqrt_spec _⟩

/-- A root between two integers, times a power of two. -/
theorem sqrt_between {w : ℝ} {a b : Nat} {j : Int} (hlo : ((a * a : Nat) : ℝ) * (2 : ℝ) ^ (2 * j) < w)
    (hhi : w < ((b * b : Nat) : ℝ) * (2 : ℝ) ^ (2 * j)) : a * (2 : ℝ) ^ j < Real.sqrt w ∧ Real.sqrt w < b * (2 : ℝ) ^ j := by
  have hroot : ∀ n : Nat, Real.sqrt (((n * n : Nat) : ℝ) * (2 : ℝ) ^ (2 * j)) = n * (2 : ℝ) ^ j := fun n => by
    rw [show ((n * n : Nat) : ℝ) * (2 : ℝ) ^ (2 * j) = (n * (2 : ℝ) ^ j) ^ 2 by rw [two_mul, zpow_add₀ (by norm_num)]; push_cast; ring,
      Real.sqrt_sq (by positivity)]
  rw [← hroot, ← hroot]
  exact ⟨Real.sqrt_lt_sqrt (by positivity) hlo, Real.sqrt_lt_sqrt ((by positivity : (0 : ℝ) ≤ _).trans hlo.le) hhi⟩

/-- The integer square root of Q or of 2 Q bounds that of anything below Q + 1: by the next integer, or, where it is even, by the next
but one. -/
theorem scaled_succ_le {Q r k : Nat} (hk : k ≤ 1) (hhi : Q * 2 ^ k < (r + 1) * (r + 1)) :
    (Q + 1) * 2 ^ k ≤ (r + 1) * (r + 1) ∨ ∃ a, r = 2 * a ∧ (Q + 1) * 2 ^ k ≤ (r + 2) * (r + 2) := by
  rcases Nat.le_one_iff_eq_zero_or_eq_one.mp hk with rfl | rfl
  · exact .inl (by omega)
  · obtain ⟨a, rfl | rfl⟩ := Nat.even_or_odd' r
    · exact .inr ⟨a, rfl, by nlinarith⟩
    · have : (2 * a + 1 + 1) * (2 * a + 1 + 1) = 2 * (2 * (a + 1) * (a + 1)) := by ring
      exact .inl (by omega)

/-- The quotient that FRSQ takes the root of is cut to 256 bits: its root, cut to 64 bits and more, still tells the exact root, up
to its last bit. -/
theorem frsq_exactly {m : Nat} (e : Int) (hm : m ≠ 0) {Q r : Nat} {E j : Int} {s t : Bool}
    (hQ : divMag 256 1 0 m e = (Q, E, s)) (hr : sqrtMag 64 Q E = (r, j, t)) :
    2 ^ 64 ≤ r ∧ (exactly (1 / Real.sqrt (m * (2 : ℝ) ^ e)) r j (t || s) ∨
      ((t || s) = true ∧ exactly (1 / Real.sqrt (m * (2 : ℝ) ^ e)) (r / 2) (j + 1) true)) := by
  obtain ⟨hexact, hbits⟩ := divMag_spec 256 0 e one_ne_zero hm
  rw [hQ] at hexact hbits
  obtain ⟨hroot, hrbits⟩ := sqrtMag_spec 64 E ((Nat.two_pow_pos 256).trans_le hbits).ne'
  obtain ⟨k, hk, hj, hlo, hhi⟩ := sqrtMag_of_long (p := 64) E ((lt_bitLen_of_two_pow_le hbits).trans' (by decide))
  have hv : 1 / Real.sqrt (m * (2 : ℝ) ^ e) = Real.sqrt (((1 : Nat) : ℝ) * (2 : ℝ) ^ (0 : Int) / (m * (2 : ℝ) ^ e)) := by
    rw [Nat.cast_one, zpow_zero, mul_one, Real.sqrt_div zero_le_one, Real.sqrt_one]
  rw [hv]
  rw [hr] at hroot hrbits hj hlo hhi
  dsimp only at hexact hbits hroot hrbits hj hlo hhi
  refine ⟨hrbits, ?_⟩
  generalize ((1 : Nat) : ℝ) * (2 : ℝ) ^ (0 : Int) / (m * (2 : ℝ) ^ e) = w at hexact
  cases s with
  | false => rw [exactly_false.mp hexact, Bool.or_false]; exact .inl hroot
  | true =>
    obtain ⟨h1, h2⟩ := exactly_true.mp hexact
    have hE : ∀ n : Nat, (n : ℝ) * (2 : ℝ) ^ E = (n * 2 ^ k : Nat) * (2 : ℝ) ^ (2 * j) := fun n => by
      rw [show E = k + 2 * j by omega, zpow_add₀ (by norm_num), zpow_natCast]; push_cast; ring
    rw [hE] at h1
    rw [← Nat.cast_succ, hE] at h2
    have hlo' : ((r * r : Nat) : ℝ) * (2 : ℝ) ^ (2 * j) < w := h1.trans_le' (by gcongr)
    rw [Bool.or_true]
    rcases scaled_succ_le hk hhi with hup | ⟨a, rfl, hup⟩
    · exact .inl (exactly_true.mpr (by exact_mod_cast sqrt_between hlo' (h2.trans_le (by gcongr))))
    · refine .inr ⟨rfl, exactly_true.mpr ?_⟩
      have := sqrt_between (b := 2 * a + 2) hlo' (h2.trans_le (by gcongr))
      rw [zpow_add_one₀ (by norm_num), Nat.mul_div_cancel_left _ (by decide)]
      push_cast at this ⊢
      constructor <;> linarith

/-- FRSQ of a positive number. -/
theorem frsqF_faithful {x : Word} {m : Nat} {e : Int} (hx : f32 x = .num false m e) (hm : m ≠ 0) :
    faithfulTo false (1 / Real.sqrt ((ratOf (f32 x) : ℚ) : ℝ)) (frsqF x) := by
  obtain ⟨⟨Q, E, s⟩, hQ⟩ : ∃ q, divMag 256 1 0 m e = q := ⟨_, rfl⟩
  obtain ⟨⟨r, j, t⟩, hr⟩ : ∃ q, sqrtMag 64 Q E = q := ⟨_, rfl⟩
  obtain ⟨hbits, hexact⟩ := frsq_exactly e hm hQ hr
  have hlen := lt_bitLen_of_two_pow_le hbits
  have hr0 : r ≠ 0 := ((Nat.two_pow_pos 64).trans_le hbits).ne'
  have hpick : frsqF x = pickFaithful 1 x false (r, j, t || s) := by
    simp only [frsqF, fdecode_toNat, hx, if_neg hm, Bool.false_eq_true, if_false, hQ, hr]
  rw [hpick, hx, ratOf_num]
  rcases hexact with hexact | ⟨hst, hexact⟩
  · exact pickFaithful_faithfulTo 1 x false hr0 hexact fun _ => hlen.trans' (by decide)
  · have hhalf := bitLen_half (hlen.trans' (by decide))
    have hlen' : 25 ≤ bitLen (r / 2) := by omega
    have hpick' : pickFaithful 1 x false (r, j, true) = pickFaithful 1 x false (r / 2, j + 1, true) := by
      simp only [pickFaithful, roundIeee_sticky_half fF32 _ false j (hlen.trans' (by decide))]
    rw [hst, hpick']
    exact pickFaithful_faithfulTo 1 x false (by rintro h; rw [h] at hlen'; exact absurd hlen' (by decide)) hexact fun _ => hlen'

end Sys2Proof.Proofs
end

section
/-! PROOFS. Approximated functions (O20): exact results, powers and logarithms of two (R121, R122). -/

namespace Sys2Proof.Proofs
open Sys2Proof Sys2Proof.Machine Sys2Proof.Safety Sys2Proof.Laws

/-! ### Numbers that F32 holds exactly -/

/-- The significand and the exponent of an F32 number. -/
theorem f32_num_bounds {x : Word} {n : Bool} {m : Nat} {e : Int} (hx : f32 x = .num n m e) :
    m < 2 ^ 24 ∧ -149 ≤ e ∧ e ≤ 104 := by
  rw [f32_eq] at hx
  split_ifs at hx with h1 h2 <;> injection hx <;> omega

/-- A number of at most 24 bits at or above the last place of the subnormal numbers, below 2^128, has an F32 code. -/
theorem exists_code_of_num {m : Nat} {e : Int} (hm : m < 2 ^ 24) (he : -149 ≤ e) (hlt : (m : ℝ) * (2 : ℝ) ^ e < (2 : ℝ) ^ (128 : Int)) :
    ∃ c ≤ maxCode fF32, magOf fF32 c = m * (2 : ℝ) ^ e := by
  rcases Nat.eq_zero_or_pos m with rfl | h0
  · exact ⟨0, Nat.zero_le _, by simp⟩
  have hlen := bitLen_le_of_lt hm
  obtain ⟨-, hinex⟩ := roundMag_spec isIeee_F32 .rne false h0.ne' (exactly_false.mpr (rfl : (m : ℝ) * (2 : ℝ) ^ e = _)) nofun
  have hexact : (roundMag fF32 .rne false m e false).inexact = false := by
    simp only [roundMag, roundAt]
    rw [if_pos (by simp only [fF32]; omega)]
  have hval := not_not.mp (mt hinex.mpr (by rw [hexact]; decide))
  exact ⟨_, le_maxCode_of_magOf_lt (hval.trans_lt hlt), hval⟩

/-- Such a number rounds to itself. -/
theorem roundIeee_num (md : RMode) (n : Bool) {m : Nat} {e : Int} (h0 : m ≠ 0) (hm : m < 2 ^ 24) (he : -149 ≤ e)
    (hlt : (m : ℝ) * (2 : ℝ) ^ e < (2 : ℝ) ^ (128 : Int)) : ∃ c ≤ maxCode fF32,
      roundIeee fF32 md n m e false = (c + signCode fF32 n, 0) ∧ ratOf (fdecode fF32 (c + signCode fF32 n)) = ratOf (.num n m e) := by
  obtain ⟨c, hc, hval⟩ := exists_code_of_num hm he hlt
  refine ⟨c, hc, roundIeee_exact isIeee_F32 md n h0 hc hval, ?_⟩
  obtain ⟨-, -, hrat⟩ := fdecode_signCode isIeee_F32 n hc
  rw [hval, ← ratOf_num] at hrat
  exact_mod_cast hrat

/-- A word of such a number. -/
theorem word_of_roundIeee_num (md : RMode) (n : Bool) {m : Nat} {e : Int} (h0 : m ≠ 0) (hm : m < 2 ^ 24) (he : -149 ≤ e)
    (hlt : (m : ℝ) * (2 : ℝ) ^ e < (2 : ℝ) ^ (128 : Int)) : (roundIeee fF32 md n m e false).2 = 0 ∧
      ratOf (f32 (BitVec.ofNat 32 (roundIeee fF32 md n m e false).1)) = ratOf (.num n m e) := by
  obtain ⟨c, hc, hr, hrat⟩ := roundIeee_num md n h0 hm he hlt
  have hsucc := maxCode_succ isIeee_F32
  rw [hr, f32, (toNat_ofNat_code n (show c ≤ infCode fF32 by omega)).1]
  exact ⟨rfl, hrat⟩

/-! ### Results within two units in the last place (R121) -/

theorem nearRat_bounds {y : Near} (hn : y.n ≠ 0) : (2 : ℝ) ^ y.expo ≤ y.n * (2 : ℝ) ^ y.e ∧ y.n * (2 : ℝ) ^ y.e < (2 : ℝ) ^ (y.expo + 1) := by
  obtain ⟨h1, h2⟩ := exactly_bounds hn (exactly_false.mpr (rfl : (y.n : ℝ) * (2 : ℝ) ^ y.e = _))
  exact ⟨h1, by rwa [Near.expo, sub_add_cancel]⟩

theorem abs_nearRat_bounds {y : Near} (hn : y.n ≠ 0) :
    (2 : ℚ) ^ y.expo ≤ |nearRat y| ∧ |nearRat y| < (2 : ℚ) ^ (y.expo + 1) := by
  have habs : |((nearRat y : ℚ) : ℝ)| = y.n * (2 : ℝ) ^ y.e := by rw [nearRat, ratOf_num, abs_signed (by positivity)]
  rw [← Rat.cast_le (K := ℝ), ← Rat.cast_lt (K := ℝ)]
  push_cast
  rw [habs]
  exact nearRat_bounds hn

theorem pickApprox_twoUlp (fn : Nat) (x : Word) {y : Near} (hn : y.n ≠ 0)
    (hlt : (y.n : ℝ) * (2 : ℝ) ^ y.e + (2 : ℝ) ^ (105 : Int) < (2 : ℝ) ^ (128 : Int)) :
    inBound (nearRat y) (twoUlp y) (pickApprox fn x false y (twoUlp y)) := by
  have hexpo : y.expo < 128 := by
    refine (zpow_lt_zpow_iff_right₀ (by norm_num : (1 : ℝ) < 2)).mp ((nearRat_bounds hn).1.trans_lt (lt_trans ?_ hlt))
    exact lt_add_of_pos_right _ (by positivity)
  have hulp : (2 : ℝ) ^ twoUlp y ≤ (2 : ℝ) ^ (105 : Int) := zpow_le_zpow_right₀ (by norm_num) (by rw [twoUlp]; omega)
  exact pickApprox_inBound fn x hn (by rw [twoUlp, Near.expo]; omega) (by linarith)

/-! ### The operand in fixed point -/

/-- A finite operand times 2^160, an integer. -/
def fixed (m : Nat) (e : Int) : Nat := m * 2 ^ (e + 160).toNat

theorem fixed_eq (m : Nat) {e : Int} (he : -149 ≤ e) : (fixed m e : ℚ) = m * (2 : ℚ) ^ e * 2 ^ 160 := by
  have h := mul_two_pow_toNat m (show (-160 : Int) ≤ e by omega)
  rw [sub_neg_eq_add] at h
  rw [fixed, ← h]
  push_cast
  rw [mul_assoc _ _ ((2 : ℚ) ^ 160), show (2 : ℚ) ^ (-160 : Int) * 2 ^ 160 = 1 by norm_num, mul_one]

theorem floor_div_two_pow (A : Int) (p : Nat) : ⌊(A : ℚ) / 2 ^ p⌋ = A / 2 ^ p := by
  exact_mod_cast Rat.floor_intCast_div_natCast A (2 ^ p)

/-! ### FEXP2 (R122) -/

theorem expSeries_mono {s x x' : Nat} (hx : x ≤ x') (n : Nat) : ∀ {t t' : Nat} (k : Nat), t ≤ t' →
    expSeries s x t k n ≤ expSeries s x' t' k n := by
  induction n with
  | zero => exact fun _ _ => le_rfl
  | succ n ih =>
    intro t t' k ht
    exact Nat.add_le_add ht (ih _ (Nat.div_le_div_right (Nat.div_le_div_right (Nat.mul_le_mul ht hx))))

theorem exp2Frac_mono {f g : Nat} (h : f ≤ g) : exp2Frac f ≤ exp2Frac g :=
  expSeries_mono (Nat.div_le_div_right (Nat.mul_le_mul_right _ h)) 48 1 le_rfl

theorem le_exp2Frac (f : Nat) : 2 ^ 128 ≤ exp2Frac f := Nat.le_add_right ..

/-- The series stays below 2; for the fractions of operands of at least 127 by enough that the result rounds to a finite code. -/
theorem exp2Frac_lt {f : Nat} : (f < 2 ^ 128 → exp2Frac f < 2 ^ 129) ∧ (f ≤ 2 ^ 128 - 2 ^ 111 → exp2Frac f < 2 ^ 129 - 2 ^ 107) := by
  have h1 : exp2Frac (2 ^ 128 - 1) < 2 ^ 129 := by decide +kernel
  have h2 : exp2Frac (2 ^ 128 - 2 ^ 111) < 2 ^ 129 - 2 ^ 107 := by decide +kernel
  exact ⟨fun h => (exp2Frac_mono (by omega)).trans_lt h1, fun h => (exp2Frac_mono h).trans_lt h2⟩

theorem twoUlp_exp2 {N : Nat} {k : Int} (hlo : 2 ^ 128 ≤ N) (hhi : N < 2 ^ 129) :
    twoUlp ⟨false, N, k - 128⟩ = max k (-126) - 22 := by
  have hlen : bitLen N = 129 := le_antisymm (bitLen_le_of_lt hhi) (lt_bitLen_of_two_pow_le hlo)
  simp only [twoUlp, Near.expo, hlen]; omega

/-- A power 2^k, k whole, times a number from 1 to 2: within the bound. -/
theorem exp2_inBound (x : Word) {k : Int} {N : Nat} (hk : k ≤ 127) (hlo : 2 ^ 128 ≤ N) (hhi : N < 2 ^ 129)
    (htop : k = 127 → N < 2 ^ 129 - 2 ^ 107) :
    inBound (N * (2 : ℚ) ^ (k - 128)) (max k (-126) - 22) (pickApprox 2 x false ⟨false, N, k - 128⟩ (max k (-126) - 22)) := by
  have hrat : nearRat ⟨false, N, k - 128⟩ = N * (2 : ℚ) ^ (k - 128) := by simp [nearRat, ratOf]
  rw [← twoUlp_exp2 hlo hhi, ← hrat]
  refine pickApprox_twoUlp 2 x ((Nat.two_pow_pos 128).trans_le hlo).ne' ?_
  dsimp only
  rcases hk.lt_or_eq with h | rfl
  · have h1 : (2 : ℝ) ^ (k - 128) ≤ (2 : ℝ) ^ (-2 : Int) := zpow_le_zpow_right₀ (by norm_num) (by omega)
    have h2 : (N : ℝ) ≤ 2 ^ 129 := by exact_mod_cast hhi.le
    calc (N : ℝ) * (2 : ℝ) ^ (k - 128) + (2 : ℝ) ^ (105 : Int) ≤ 2 ^ 129 * (2 : ℝ) ^ (-2 : Int) + (2 : ℝ) ^ (105 : Int) := by gcongr
      _ < (2 : ℝ) ^ (128 : Int) := by norm_num
  · have h2 : (N : ℝ) ≤ 2 ^ 129 - 2 ^ 107 := by
      have := htop rfl
      rw [le_sub_iff_add_le]
      exact_mod_cast (show N + 2 ^ 107 ≤ 2 ^ 129 by omega)
    calc (N : ℝ) * (2 : ℝ) ^ ((127 : Int) - 128) + (2 : ℝ) ^ (105 : Int) ≤ (2 ^ 129 - 2 ^ 107) * (2 : ℝ) ^ ((127 : Int) - 128) + (2 : ℝ) ^ (105 : Int) := by gcongr
      _ < (2 : ℝ) ^ (128 : Int) := by norm_num

/-- A finite operand times 2^160, with its sign. -/
def fixedInt (n : Bool) (m : Nat) (e : Int) : Int := if n then -(fixed m e : Int) else fixed m e

theorem fixedInt_eq (n : Bool) (m : Nat) {e : Int} (he : -149 ≤ e) : (fixedInt n m e : ℚ) = ratOf (.num n m e) * 2 ^ 160 := by
  have h := fixed_eq m he
  cases n <;> simp [fixedInt, ratOf, h]

/-- What FEXP2 writes for a finite operand, by the operand in fixed point. -/
theorem fexp2F_num {x : Word} {n : Bool} {m : Nat} {e : Int} (hx : f32 x = .num n m e) :
    let A := fixedInt n m e
    let k := A / 2 ^ 160
    (128 * 2 ^ 160 ≤ A → fexp2F x = (0x7F800000, excOF ||| excNX)) ∧ (A < -150 * 2 ^ 160 → fexp2F x = (0, excUF ||| excNX)) ∧
    (A < 128 * 2 ^ 160 → -150 * 2 ^ 160 ≤ A →
      (A % 2 ^ 160 = 0 → fexp2F x = if (roundIeee fF32 .rne false 1 k false).2 = 0 then
          (BitVec.ofNat 32 (roundIeee fF32 .rne false 1 k false).1, 0)
        else pickApprox 2 x false ⟨false, 2 ^ 128, k - 128⟩ (twoUlp ⟨false, 1, k⟩)) ∧
      (A % 2 ^ 160 ≠ 0 → fexp2F x = pickApprox 2 x false ⟨false, exp2Frac ((A % 2 ^ 160).toNat / 2 ^ 32), k - 128⟩
        (twoUlp ⟨false, exp2Frac ((A % 2 ^ 160).toNat / 2 ^ 32), k - 128⟩))) := by
  have hA : (if n then -((m * 2 ^ (e + 160).toNat : Nat) : Int) else (m * 2 ^ (e + 160).toNat : Nat)) = fixedInt n m e := by rw [fixedInt, fixed]
  have hpos : 0 ≤ fixedInt n m e % 2 ^ 160 := Int.emod_nonneg _ (by norm_num)
  simp only [fexp2F, fdecode_toNat, hx, hA]
  refine ⟨fun h => by rw [if_pos h], fun h => by rw [if_neg (by omega), if_pos h], fun h1 h2 => ⟨fun h => ?_, fun h => ?_⟩⟩
  · rw [if_neg (by omega), if_neg (by omega), h, Int.toNat_zero, if_pos rfl]
  · rw [if_neg (by omega), if_neg (by omega), if_neg (by omega)]

/-- An operand of at least 127 has no bits below 2^-17. -/
theorem fraction_of_top {n : Bool} {m : Nat} {e : Int} (hm : m < 2 ^ 24) (h : fixedInt n m e / 2 ^ 160 = 127) :
    (fixedInt n m e % 2 ^ 160).toNat / 2 ^ 32 ≤ 2 ^ 128 - 2 ^ 111 := by
  have hA : fixedInt n m e = fixed m e := by
    cases n
    · rfl
    · simp only [fixedInt, if_true] at h; omega
  rw [hA] at h ⊢
  have hlow : 2 ^ 166 < 2 ^ ((e + 160).toNat + 24) := by
    calc 2 ^ 166 < fixed m e := by omega
      _ ≤ 2 ^ 24 * 2 ^ (e + 160).toNat := Nat.mul_le_mul_right _ hm.le
      _ = 2 ^ ((e + 160).toNat + 24) := by rw [← pow_add, Nat.add_comm]
  have hexp := (Nat.pow_lt_pow_iff_right (by decide)).mp hlow
  obtain ⟨j, hj⟩ : ∃ j, (e + 160).toNat = j + 143 := ⟨(e + 160).toNat - 143, by omega⟩
  have hdvd : fixed m e = m * 2 ^ j * 2 ^ 143 := by rw [fixed, hj, pow_add, mul_assoc]
  rw [hdvd]
  omega

/-- FEXP2 of a number other than zero. -/
theorem fexp2F_spec {x : Word} {n : Bool} {m : Nat} {e : Int} (hx : f32 x = .num n m e) :
    let a := ratOf (f32 x)
    (128 ≤ a → fexp2F x = (0x7F800000, excOF ||| excNX)) ∧ (a < -150 → fexp2F x = (0, excUF ||| excNX)) ∧
    (∀ k : Int, a = k → -149 ≤ k → k < 128 → (fexp2F x).2 = 0 ∧ ratOf (f32 (fexp2F x).1) = (2 : ℚ) ^ k) ∧
    (-150 ≤ a → a < 128 → (∀ k : Int, -149 ≤ k → a ≠ k) →
      inBound (exp2Frac ((⌊(a - ⌊a⌋) * 2 ^ 160⌋).toNat / 2 ^ 32) * (2 : ℚ) ^ (⌊a⌋ - 128)) (max ⌊a⌋ (-126) - 22) (fexp2F x)) := by
  obtain ⟨hm, he, -⟩ := f32_num_bounds hx
  have hA := fixedInt_eq n m he
  obtain ⟨hbig, hsmall, hmid⟩ := fexp2F_num hx
  have htop := fraction_of_top (n := n) (e := e) hm
  rw [hx]
  dsimp only at hbig hsmall hmid ⊢
  generalize ratOf (.num n m e) = a at *
  generalize fixedInt n m e = A at *
  have hdiv := Int.mul_ediv_add_emod A (2 ^ 160)
  have hle : ∀ k : Int, (k : ℚ) ≤ a ↔ k * 2 ^ 160 ≤ A := fun k => by
    rw [← mul_le_mul_iff_left₀ (show (0 : ℚ) < 2 ^ 160 by norm_num), ← hA]; exact_mod_cast Iff.rfl
  have hlt : ∀ k : Int, a < k ↔ A < k * 2 ^ 160 := fun k => by rw [← not_le, hle, not_le]
  have heq : ∀ k : Int, a = k ↔ A = k * 2 ^ 160 := fun k => by
    rw [← mul_left_inj' (show (2 : ℚ) ^ 160 ≠ 0 by norm_num), ← hA]; exact_mod_cast Iff.rfl
  refine ⟨fun h => hbig ((hle 128).mp h), fun h => hsmall ((hlt (-150)).mp h), fun k hk h1 h2 => ?_, fun h1 h2 h3 => ?_⟩
  · have hk' := (heq k).mp hk
    have hfloor : A / 2 ^ 160 = k := by omega
    have hwhole := (hmid (by omega) (by omega)).1 (by omega)
    obtain ⟨hexc, hval⟩ := word_of_roundIeee_num .rne false (m := 1) (e := k) one_ne_zero (by decide) h1
      (by rw [Nat.cast_one, one_mul]; exact zpow_lt_zpow_right₀ (by norm_num) h2)
    rw [hfloor, if_pos hexc] at hwhole
    rw [hwhole]
    exact ⟨rfl, hval.trans (by simp [ratOf])⟩
  · have hfloor : ⌊a⌋ = A / 2 ^ 160 := by
      rw [← floor_div_two_pow A 160, hA, mul_div_cancel_right₀ _ (by norm_num)]
    have hfrac : ⌊(a - ⌊a⌋) * 2 ^ 160⌋ = A % 2 ^ 160 := by
      have hrem : ((A % 2 ^ 160 : Int) : ℚ) = A - (A / 2 ^ 160 : Int) * 2 ^ 160 := by
        rw [eq_sub_iff_add_eq', mul_comm]; exact_mod_cast hdiv
      rw [hfloor, sub_mul, ← hA, ← hrem, Int.floor_intCast]
    obtain ⟨hwhole, hpart⟩ := hmid ((hlt 128).mp h2) ((hle (-150)).mp h1)
    rw [hfrac, hfloor]
    by_cases h0 : A % 2 ^ 160 = 0
    · have hk : A / 2 ^ 160 = -150 := by
        have h4 := (hle (-150)).mp h1
        have h5 : ¬ -149 ≤ A / 2 ^ 160 := fun h => h3 _ h ((heq _).mpr (by omega))
        omega
      have hround : (roundIeee fF32 .rne false 1 (-150) false).2 ≠ 0 := by decide
      have hone : exp2Frac ((0 : Int).toNat / 2 ^ 32) = 2 ^ 128 := by decide +kernel
      rw [hwhole h0, h0, hk, if_neg hround, hone]
      exact exp2_inBound x (by decide) le_rfl (by decide) (by decide)
    · have hfr : (A % 2 ^ 160).toNat / 2 ^ 32 < 2 ^ 128 := by omega
      have hk : A / 2 ^ 160 ≤ 127 := by have := (hlt 128).mp h2; omega
      have hlo := le_exp2Frac ((A % 2 ^ 160).toNat / 2 ^ 32)
      have hhi := exp2Frac_lt.1 hfr
      rw [hpart h0, twoUlp_exp2 hlo hhi]
      exact exp2_inBound x hk hlo hhi fun h => exp2Frac_lt.2 (htop h)

end Sys2Proof.Proofs
end

section
/-! PROOFS. Approximated functions (O20): logarithms of two (R122). -/

namespace Sys2Proof.Proofs
open Sys2Proof Sys2Proof.Machine Sys2Proof.Safety Sys2Proof.Laws

/-! ### FLOG2 (R122) -/

theorem log2Bits_bounds (n : Nat) : ∀ x acc : Nat, acc * 2 ^ n ≤ log2Bits x acc n ∧ log2Bits x acc n < (acc + 1) * 2 ^ n := by
  induction n with
  | zero => exact fun x acc => by simp [log2Bits]
  | succ n ih =>
    intro x acc
    have hpow : ∀ a : Nat, a * 2 ^ (n + 1) = 2 * a * 2 ^ n := fun a => by ring
    simp only [log2Bits, hpow]
    split
    · obtain ⟨h1, h2⟩ := ih (x * x / 2 ^ 128 / 2) (2 * acc + 1)
      exact ⟨h1.trans' (Nat.mul_le_mul_right _ (by omega)), h2.trans_le (Nat.mul_le_mul_right _ (by omega))⟩
    · obtain ⟨h1, h2⟩ := ih (x * x / 2 ^ 128) (2 * acc)
      exact ⟨h1, h2.trans_le (Nat.mul_le_mul_right _ (by omega))⟩

/-- While no digit is 1, what exceeds 1 doubles at least at each squaring. -/
theorem lt_of_log2Bits_eq_zero (n : Nat) : ∀ d < 2 ^ 128, log2Bits (2 ^ 128 + d) 0 n = 0 → d * 2 ^ n < 2 ^ 128 := by
  induction n with
  | zero => exact fun d hd _ => by rwa [pow_zero, mul_one]
  | succ n ih =>
    intro d hd h
    have hsq : (2 ^ 128 + d) * (2 ^ 128 + d) / 2 ^ 128 = 2 ^ 128 + (2 * d + d * d / 2 ^ 128) := by
      rw [show (2 ^ 128 + d) * (2 ^ 128 + d) = d * d + 2 ^ 128 * (2 ^ 128 + 2 * d) by ring, Nat.add_mul_div_left _ _ (by positivity)]
      omega
    rw [log2Bits, hsq] at h
    split at h
    case isTrue =>
      have h1 := (log2Bits_bounds n ((2 ^ 128 + (2 * d + d * d / 2 ^ 128)) / 2) (2 * 0 + 1)).1
      have := Nat.two_pow_pos n
      omega
    case isFalse hlt =>
      calc d * 2 ^ (n + 1) = 2 * d * 2 ^ n := by ring
        _ ≤ (2 * d + d * d / 2 ^ 128) * 2 ^ n := Nat.mul_le_mul_right _ (Nat.le_add_right ..)
        _ < 2 ^ 128 := ih _ (by omega) h

/-- A positive operand as a power of two times a mantissa of 128 fraction bits. -/
theorem mantissa_spec {m : Nat} (h0 : m ≠ 0) (hm : m < 2 ^ 24) (e : Int) :
    2 ^ 128 ≤ m * 2 ^ (129 - bitLen m) ∧ m * 2 ^ (129 - bitLen m) < 2 ^ 129 ∧
    (m : ℚ) * (2 : ℚ) ^ e = (m * 2 ^ (129 - bitLen m) : Nat) * (2 : ℚ) ^ (e + bitLen m - 129) := by
  obtain ⟨l, hl, hlo, hhi⟩ := bitLen_spec h0
  have hl24 : l + 1 ≤ 24 := hl ▸ bitLen_le_of_lt hm
  rw [hl]
  refine ⟨?_, ?_, ?_⟩
  · calc 2 ^ 128 = 2 ^ l * 2 ^ (129 - (l + 1)) := by rw [← pow_add]; congr 1; omega
      _ ≤ m * 2 ^ (129 - (l + 1)) := Nat.mul_le_mul_right _ hlo
  · calc m * 2 ^ (129 - (l + 1)) < 2 ^ (l + 1) * 2 ^ (129 - (l + 1)) := Nat.mul_lt_mul_of_pos_right hhi (by positivity)
      _ = 2 ^ 129 := by rw [← pow_add]; congr 1; omega
  · push_cast
    rw [mul_assoc, ← zpow_natCast, ← zpow_add₀ (by norm_num)]
    congr 2
    omega

/-- A logarithm k + 0.b1 b2 ... times 2^64, by its digits. -/
def logFixed (k : Int) (g : Nat) : Int := k * 2 ^ 64 + log2Bits g 0 64

theorem logFixed_bounds (k : Int) (g : Nat) : k * 2 ^ 64 ≤ logFixed k g ∧ logFixed k g < (k + 1) * 2 ^ 64 := by
  obtain ⟨-, h⟩ := log2Bits_bounds 64 g 0
  rw [logFixed]
  omega

/-- The logarithm of no number but 1 comes out as 0. -/
theorem logFixed_ne_zero {k : Int} {d : Nat} (hlo : 2 ^ 105 ≤ d) (hhi : d < 2 ^ 128) : logFixed k (2 ^ 128 + d) ≠ 0 := by
  intro h
  obtain ⟨-, hlt⟩ := log2Bits_bounds 64 (2 ^ 128 + d) 0
  rw [logFixed] at h
  have := lt_of_log2Bits_eq_zero 64 d hhi (by omega)
  omega

/-- What FLOG2 writes for a positive number. -/
theorem flog2F_num {x : Word} {m : Nat} {e : Int} (hx : f32 x = .num false m e) (h0 : m ≠ 0) :
    let k := e + bitLen m - 1
    let g := m * 2 ^ (129 - bitLen m)
    let y : Near := ⟨decide (logFixed k g < 0), (logFixed k g).natAbs, -64⟩
    (g = 2 ^ 128 → flog2F x = if k = 0 then (0, 0)
      else (BitVec.ofNat 32 (roundIeee fF32 .rne (decide (k < 0)) k.natAbs 0 false).1, 0)) ∧
    (g ≠ 2 ^ 128 → flog2F x =
      pickApprox 3 x false y (if 0x3F000000 ≤ x.toNat ∧ x.toNat ≤ 0x40000000 then -22 else twoUlp y)) := by
  simp only [flog2F, fdecode_toNat, hx, if_neg h0, Bool.false_eq_true, if_false, logFixed]
  exact ⟨fun h => if_pos h, fun h => if_neg h⟩

/-- The operand is a power of two just where its mantissa is 1. -/
theorem eq_two_zpow_iff {m : Nat} (h0 : m ≠ 0) (hm : m < 2 ^ 24) (e k : Int) : (m : ℚ) * (2 : ℚ) ^ e = (2 : ℚ) ^ k ↔
    m * 2 ^ (129 - bitLen m) = 2 ^ 128 ∧ k = e + bitLen m - 1 := by
  obtain ⟨hlo, hhi, hval⟩ := mantissa_spec h0 hm e
  generalize m * 2 ^ (129 - bitLen m) = g at *
  rw [hval]
  constructor
  · intro h
    have hg : (g : ℚ) = (2 : ℚ) ^ (k - (e + bitLen m - 129)) := by
      rw [zpow_sub₀ (by norm_num), ← h]; field_simp
    have h1 : (2 : ℚ) ^ (128 : Int) ≤ (2 : ℚ) ^ (k - (e + bitLen m - 129)) := by rw [← hg]; exact_mod_cast hlo
    have h2 : (2 : ℚ) ^ (k - (e + bitLen m - 129)) < (2 : ℚ) ^ (129 : Int) := by rw [← hg]; exact_mod_cast hhi
    have h3 := (zpow_le_zpow_iff_right₀ (by norm_num)).mp h1
    have h4 := (zpow_lt_zpow_iff_right₀ (by norm_num)).mp h2
    obtain rfl : k = e + bitLen m - 1 := by omega
    rw [show e + bitLen m - 1 - (e + bitLen m - 129) = 128 by ring] at hg
    exact ⟨by exact_mod_cast hg, rfl⟩
  · rintro ⟨rfl, rfl⟩
    rw [Nat.cast_pow, Nat.cast_ofNat, ← zpow_natCast, ← zpow_add₀ (by norm_num)]
    congr 1
    push_cast
    ring

/-- FLOG2 of a power of two. -/
theorem flog2F_exact {x : Word} {m : Nat} {e k : Int} (hx : f32 x = .num false m e) (h0 : m ≠ 0)
    (hk : ratOf (f32 x) = (2 : ℚ) ^ k) : (flog2F x).2 = 0 ∧ ratOf (f32 (flog2F x).1) = k := by
  obtain ⟨hm, he, he'⟩ := f32_num_bounds hx
  have hlen := bitLen_le_of_lt hm
  have hlen1 : 1 ≤ bitLen m := lt_bitLen_of_two_pow_le (p := 0) (by omega)
  rw [hx] at hk
  obtain ⟨hg, rfl⟩ := (eq_two_zpow_iff h0 hm e k).mp hk
  rw [(flog2F_num hx h0).1 hg]
  split
  case isTrue hz => exact ⟨rfl, by rw [hz]; decide +kernel⟩
  case isFalse hz =>
    have habs : (e + bitLen m - 1).natAbs < 2 ^ 24 := by omega
    obtain ⟨-, hval⟩ := word_of_roundIeee_num .rne (decide (e + bitLen m - 1 < 0)) (m := (e + bitLen m - 1).natAbs) (e := 0)
      (by omega) habs (by decide) (by
        rw [zpow_zero, mul_one]
        calc ((e + bitLen m - 1).natAbs : ℝ) ≤ (2 ^ 24 : Nat) := by exact_mod_cast habs.le
          _ < (2 : ℝ) ^ (128 : Int) := by norm_num)
    exact ⟨rfl, by rw [hval, ratOf_num_int, zpow_zero, mul_one]⟩

/-- The codes from 0.5 to 2. -/
theorem code_of_half_to_two {x : Word} {m : Nat} {e : Int} (hx : f32 x = .num false m e) :
    (0x3F000000 ≤ x.toNat ↔ 1 / 2 ≤ ratOf (f32 x)) ∧ (x.toNat ≤ 0x40000000 ↔ ratOf (f32 x) ≤ 2) := by
  have hmono := strictMono_magOf fF32
  obtain ⟨-, hval, -⟩ := fdecode_eq_num isIeee_F32 (k := x.toNat) hx
  have hbits := toNat_eq_add_signCode x
  rw [← sign_of_f32_eq_num hx] at hbits
  have hx' : x.toNat % 2 ^ (fF32.ew + fF32.fw) = x.toNat := hbits.symm
  have ha : ((ratOf (f32 x) : ℚ) : ℝ) = magOf fF32 x.toNat := by rw [hx, ratOf_num, ← hval, hx']; rfl
  have hhalf : magOf fF32 0x3F000000 = ((1 / 2 : ℚ) : ℝ) := by norm_num [magOf, fF32]
  have htwo : magOf fF32 0x40000000 = ((2 : ℚ) : ℝ) := by norm_num [magOf, fF32]
  rw [← hmono.le_iff_le, ← hmono.le_iff_le, ← ha, hhalf, htwo, Rat.cast_le, Rat.cast_le]
  exact ⟨Iff.rfl, Iff.rfl⟩

/-- The logarithm of a mantissa above 1 does not come out as 0: the mantissa has at most 24 bits. -/
theorem logFixed_mantissa_ne_zero {m : Nat} (h0 : m ≠ 0) (hm : m < 2 ^ 24) (hg : m * 2 ^ (129 - bitLen m) ≠ 2 ^ 128) (k : Int) :
    logFixed k (m * 2 ^ (129 - bitLen m)) ≠ 0 := by
  obtain ⟨hlo, hhi, -⟩ := mantissa_spec h0 hm 0
  have hlen := bitLen_le_of_lt hm
  obtain ⟨j, hj⟩ : ∃ j, 129 - bitLen m = j + 105 := ⟨24 - bitLen m, by omega⟩
  have hmul : m * 2 ^ (129 - bitLen m) = m * 2 ^ j * 2 ^ 105 := by rw [hj, pow_add, mul_assoc]
  obtain ⟨d, hd⟩ := Nat.exists_eq_add_of_le hlo
  rw [hd] at hmul hhi hg ⊢
  exact logFixed_ne_zero (by omega) (by omega)

/-- A number that is no power of two lies strictly between the powers of two that its exponent gives. -/
theorem between_powers {m : Nat} (h0 : m ≠ 0) (hm : m < 2 ^ 24) (e : Int) (hg : m * 2 ^ (129 - bitLen m) ≠ 2 ^ 128) :
    (2 : ℚ) ^ (e + bitLen m - 1) < m * (2 : ℚ) ^ e ∧ m * (2 : ℚ) ^ e < (2 : ℚ) ^ (e + bitLen m) := by
  obtain ⟨hlo, hhi, hval⟩ := mantissa_spec h0 hm e
  have hu : (0 : ℚ) < (2 : ℚ) ^ (e + bitLen m - 129) := by positivity
  have hpow : ∀ (q : Int) (n : Nat), q = e + bitLen m - 129 + n →
      (2 : ℚ) ^ q = (2 ^ n : Nat) * (2 : ℚ) ^ (e + bitLen m - 129) := fun q n h => by
    rw [h, zpow_add₀ (by norm_num), zpow_natCast, mul_comm]; push_cast; rfl
  rw [hval, hpow _ 128 (by push_cast; ring), hpow (e + bitLen m) 129 (by push_cast; ring)]
  exact ⟨by gcongr; exact lt_of_le_of_ne hlo hg.symm, by gcongr⟩

/-- FLOG2 of a positive number that is no power of two. -/
theorem flog2F_inexact {x : Word} {m : Nat} {e : Int} (hx : f32 x = .num false m e) (h0 : m ≠ 0)
    (hk : ∀ k : Int, ratOf (f32 x) ≠ (2 : ℚ) ^ k) :
    let a := ratOf (f32 x)
    let y := (logFixed (e + bitLen m - 1) (m * 2 ^ (129 - bitLen m)) : ℚ) / 2 ^ 64
    (1 / 2 ≤ a → a ≤ 2 → inBound y (-22) (flog2F x)) ∧
    (a < 1 / 2 ∨ 2 < a → ∃ j : Int, (2 : ℚ) ^ j ≤ |y| ∧ |y| < 2 ^ (j + 1) ∧ inBound y (max j (-126) - 22) (flog2F x)) := by
  obtain ⟨hm, he, he'⟩ := f32_num_bounds hx
  have hlen := bitLen_le_of_lt hm
  obtain ⟨hhalf, htwo⟩ := code_of_half_to_two hx
  have hnum := (flog2F_num hx h0).2
  rw [hx] at hk hhalf htwo ⊢
  have hg : m * 2 ^ (129 - bitLen m) ≠ 2 ^ 128 := fun h => hk _ ((eq_two_zpow_iff h0 hm e _).mpr ⟨h, rfl⟩)
  obtain ⟨hlo, hhi⟩ := between_powers h0 hm e hg
  obtain ⟨hvlo, hvhi⟩ := logFixed_bounds (e + bitLen m - 1) (m * 2 ^ (129 - bitLen m))
  have hv0 := logFixed_mantissa_ne_zero h0 hm hg (e + bitLen m - 1)
  replace hnum := hnum hg
  generalize logFixed (e + bitLen m - 1) (m * 2 ^ (129 - bitLen m)) = v at *
  set y : Near := ⟨decide (v < 0), v.natAbs, -64⟩ with hy
  have hn : y.n ≠ 0 := by simpa [hy] using hv0
  have hrat : nearRat y = v / 2 ^ 64 := by
    rw [nearRat, ratOf_num_int, zpow_neg, ← div_eq_mul_inv]; norm_cast
  have ha : ratOf (.num false m e) = m * (2 : ℚ) ^ e := rfl
  rw [← hrat, hnum, ha]
  rw [ha] at hhalf htwo
  have hsize : ∀ p : Nat, v.natAbs ≤ 2 ^ p → (y.n : ℝ) * (2 : ℝ) ^ y.e ≤ (2 : ℝ) ^ ((p : Int) - 64) := fun p hp => by
    have h1 : (v.natAbs : ℝ) ≤ 2 ^ p := by exact_mod_cast hp
    rw [sub_eq_add_neg, zpow_add₀ (by norm_num), zpow_natCast]
    exact mul_le_mul_of_nonneg_right h1 (by positivity)
  refine ⟨fun h1 h2 => ?_, fun h => ?_⟩
  · have hk0 : e + bitLen m - 1 < 1 := (zpow_lt_zpow_iff_right₀ (by norm_num : (1 : ℚ) < 2)).mp (hlo.trans_le (by simpa using h2))
    have hk1 : -1 < e + bitLen m :=
      (zpow_lt_zpow_iff_right₀ (by norm_num : (1 : ℚ) < 2)).mp (lt_of_le_of_lt (by norm_num; linarith) hhi)
    have habs : v.natAbs ≤ 2 ^ 64 := by omega
    rw [if_pos ⟨hhalf.mpr h1, htwo.mpr h2⟩]
    refine pickApprox_inBound 3 x hn ?_ ?_
    · have := bitLen_le_of_lt (show v.natAbs < 2 ^ 65 by omega)
      change max (-64 + (bitLen v.natAbs : Int) - 24) (-149) ≤ -22
      omega
    · have := hsize 64 habs
      norm_num at this ⊢
      linarith
  · rw [if_neg fun hc => by rcases h with h | h; exacts [not_le.mpr h (hhalf.mp hc.1), not_le.mpr h (htwo.mp hc.2)]]
    have habs : v.natAbs ≤ 2 ^ 72 := by omega
    obtain ⟨h1, h2⟩ := abs_nearRat_bounds hn
    refine ⟨y.expo, h1, h2, pickApprox_twoUlp 3 x hn ?_⟩
    have := hsize 72 habs
    norm_num at this ⊢
    linarith

end Sys2Proof.Proofs
end

section
/-! PROOFS. Approximated functions (O20): sines and cosines (R122). -/

namespace Sys2Proof.Proofs
open Sys2Proof Sys2Proof.Machine Sys2Proof.Safety Sys2Proof.Laws

/-! ### The sine series (R122) -/

/-- Each term of the series is at most 5/12 of the one before, for an angle of at most pi / 2. -/
theorem next_term_le {x2 t k : Nat} (hx2 : 2 * x2 ≤ 5 * 2 ^ 160) (hk : 2 ≤ k) : 12 * (t * x2 / 2 ^ 160 / (k * (k + 1))) ≤ 5 * t := by
  have hmul : t * x2 / 2 ^ 160 * 2 ^ 160 ≤ t * x2 := Nat.div_mul_le_self ..
  have hbound : t * (2 * x2) ≤ t * (5 * 2 ^ 160) := Nat.mul_le_mul_left t hx2
  have hsix : 2 * (2 + 1) ≤ k * (k + 1) := Nat.mul_le_mul hk (by omega)
  have hdiv : t * x2 / 2 ^ 160 / (k * (k + 1)) ≤ t * x2 / 2 ^ 160 / 6 := Nat.div_le_div_left hsix (by decide)
  rw [show t * (2 * x2) = 2 * (t * x2) by ring] at hbound
  omega

theorem abs_sinSeries_le {x2 : Nat} (hx2 : 2 * x2 ≤ 5 * 2 ^ 160) (n : Nat) : ∀ {t k : Nat} (sub : Bool), 2 ≤ k →
    |sinSeries x2 t k sub n| ≤ 2 * t := by
  induction n with
  | zero => intro t k sub _; simp [sinSeries]
  | succ n ih =>
    intro t k sub hk
    have hterm := next_term_le (t := t) hx2 hk
    have hrest := abs_le.mp (ih (t := t * x2 / 2 ^ 160 / (k * (k + 1))) (k := k + 2) (!sub) (by omega))
    rw [sinSeries, abs_le]
    generalize sinSeries x2 (t * x2 / 2 ^ 160 / (k * (k + 1))) (k + 2) (!sub) n = rest at *
    split <;> omega

/-- The sine of an angle above 0 and up to pi / 2 comes out above 0 and below 4. -/
theorem sinPi_bounds {t : Nat} (h0 : 0 < t) (ht : t ≤ 2 ^ 159) : 0 < sinPi t ∧ sinPi t < 2 ^ 162 := by
  have hpi : piFix = 4591442807048218921384805199743311128454155024418 := rfl
  have hx : 1 ≤ t * piFix / 2 ^ 160 ∧ t * piFix / 2 ^ 160 ≤ piFix / 2 := by rw [hpi]; omega
  rw [sinPi]
  generalize t * piFix / 2 ^ 160 = x at *
  have hsq : x * x ≤ (piFix / 2) * (piFix / 2) := Nat.mul_le_mul hx.2 hx.2
  have hx2 : 2 * (x * x / 2 ^ 160) ≤ 5 * 2 ^ 160 := by rw [hpi] at hsq; omega
  have hterm := next_term_le (t := x) hx2 (le_refl 2)
  have hrest := abs_le.mp (abs_sinSeries_le hx2 29 (t := x * (x * x / 2 ^ 160) / 2 ^ 160 / (2 * (2 + 1))) (k := 2 + 2) true (by decide))
  rw [sinSeries, Bool.not_false]
  generalize sinSeries (x * x / 2 ^ 160) (x * (x * x / 2 ^ 160) / 2 ^ 160 / (2 * (2 + 1))) (2 + 2) true 29 = rest at *
  simp only [Bool.false_eq_true, if_false]
  omega

/-- A sine written inside the bound. -/
theorem sinPi_inBound (fn : Nat) (x : Word) (down : Bool) {t : Nat} (h0 : 0 < t) (ht : t ≤ 2 ^ 159) :
    inBound ((if down then -1 else 1) * sinPi t / 2 ^ 160) (-22) (pickApprox fn x false ⟨down, sinPi t, -160⟩ (-22)) := by
  obtain ⟨hpos, hlt⟩ := sinPi_bounds h0 ht
  have hlen := bitLen_le_of_lt hlt
  have hrat : nearRat ⟨down, sinPi t, -160⟩ = (if down then -1 else 1) * sinPi t / 2 ^ 160 := by
    rw [nearRat, ratOf, zpow_neg, ← div_eq_mul_inv]
    cases down <;> simp [neg_div]
  rw [← hrat]
  refine pickApprox_inBound fn x hpos.ne' (by dsimp only; omega) ?_
  have hN : (sinPi t : ℝ) ≤ 2 ^ 162 := by exact_mod_cast hlt.le
  calc (sinPi t : ℝ) * (2 : ℝ) ^ (-160 : Int) + (2 : ℝ) ^ (-22 : Int) ≤ 2 ^ 162 * (2 : ℝ) ^ (-160 : Int) + (2 : ℝ) ^ (-22 : Int) := by
        gcongr
    _ < (2 : ℝ) ^ (128 : Int) := by norm_num

/-! ### FSIN and FCOS (R122) -/

/-- What FSIN and FCOS write, by T / 2^160, the angle whose sine is taken: the operand, or a half more for a cosine. -/
theorem sinCosF_eq (fn : Nat) (x : Word) (cosine flip : Bool) (m : Nat) (e : Int) :
    let T := fixed m e + (if cosine then 2 ^ 159 else 0)
    let down := decide (2 ^ 160 ≤ T % 2 ^ 161)
    let t := T % 2 ^ 160
    (t = 0 → sinCosF fn x cosine flip m e = (if flip && !cosine then 0x80000000 else 0, 0)) ∧
    (t = 2 ^ 159 → sinCosF fn x cosine flip m e = (if down != flip then 0xBF800000 else 0x3F800000, 0)) ∧
    (t ≠ 0 → t ≠ 2 ^ 159 → sinCosF fn x cosine flip m e =
      pickApprox fn x flip ⟨down, sinPi (if 2 ^ 159 < t then 2 ^ 160 - t else t), -160⟩ (-22)) := by
  have hmod : ∀ T : Nat, T % 2 ^ 161 % 2 ^ 160 = T % 2 ^ 160 := fun T => Nat.mod_mod_of_dvd T (by decide)
  simp only [sinCosF, hmod, fixed]
  refine ⟨fun h => if_pos h, fun h => ?_, fun h1 h2 => ?_⟩
  · exact (if_neg (by omega)).trans (if_pos h)
  · exact (if_neg h1).trans (if_neg h2)

/-- The sine of pi t by the series: the sign of the half turn, and the angle brought to a quarter turn. -/
def sinOfTurn (t : ℚ) : ℚ :=
  let u := t - 2 * ⌊t / 2⌋
  let w := if u < 1 then u else u - 1
  (if u < 1 then (1 : ℚ) else -1) * sinPi (⌊(if w < 1 / 2 then w else 1 - w) * 2 ^ 160⌋).toNat / 2 ^ 160

theorem floor_fixed (N : Nat) : (⌊(N : ℚ) / 2 ^ 160 * 2 ^ 160⌋).toNat = N := by
  rw [div_mul_cancel₀ _ (by norm_num), Int.floor_natCast, Int.toNat_natCast]

/-- A turn of whole double turns, a half one or none, and a part of a half one. -/
theorem sinOfTurn_eq (q : Int) (down : Bool) {w : ℚ} (h0 : 0 ≤ w) (h1 : w < 1) :
    sinOfTurn (2 * q + (if down then 1 else 0) + w) = (if down then -1 else 1) *
      sinPi (⌊(if w < 1 / 2 then w else 1 - w) * 2 ^ 160⌋).toNat / 2 ^ 160 := by
  have hfloor : ⌊(2 * q + (if down then 1 else 0) + w) / 2⌋ = q :=
    Int.floor_eq_iff.mpr (by cases down <;> constructor <;> simp <;> linarith)
  have hu : 2 * (q : ℚ) + (if down then 1 else 0) + w - 2 * q = (if down then 1 else 0) + w := by ring
  simp only [sinOfTurn, hfloor, hu]
  cases down
  · simp [h1]
  · simp [not_lt.mpr h0]

theorem quarter_fixed {t : Nat} (ht : t < 2 ^ 160) :
    (⌊(if (t : ℚ) / 2 ^ 160 < 1 / 2 then (t : ℚ) / 2 ^ 160 else 1 - (t : ℚ) / 2 ^ 160) * 2 ^ 160⌋).toNat =
      if 2 ^ 159 < t then 2 ^ 160 - t else t := by
  have hhalf : (t : ℚ) / 2 ^ 160 < 1 / 2 ↔ t < 2 ^ 159 := by
    rw [div_lt_iff₀ (by norm_num), show (1 / 2 : ℚ) * 2 ^ 160 = (2 ^ 159 : Nat) by norm_num, Nat.cast_lt]
  have hsub : 1 - (t : ℚ) / 2 ^ 160 = (2 ^ 160 - t : Nat) / 2 ^ 160 := by rw [Nat.cast_sub ht.le]; push_cast; ring
  simp only [hhalf, hsub]
  split
  case isTrue h => rw [floor_fixed, if_neg (by omega)]
  case isFalse h => rw [floor_fixed]; split <;> omega

theorem sinOfTurn_fixed (T : Nat) : sinOfTurn (T / 2 ^ 160) = (if decide (2 ^ 160 ≤ T % 2 ^ 161) then -1 else 1) *
    sinPi (if 2 ^ 159 < T % 2 ^ 160 then 2 ^ 160 - T % 2 ^ 160 else T % 2 ^ 160) / 2 ^ 160 := by
  have ht : T % 2 ^ 160 < 2 ^ 160 := Nat.mod_lt _ (by norm_num)
  have hT : (T : ℚ) / 2 ^ 160 = 2 * ((T / 2 ^ 161 : Nat) : Int) + (if decide (2 ^ 160 ≤ T % 2 ^ 161) then 1 else 0) +
      (T % 2 ^ 160 : Nat) / 2 ^ 160 := by
    have hsplit : T = 2 ^ 161 * (T / 2 ^ 161) + 2 ^ 160 * (if decide (2 ^ 160 ≤ T % 2 ^ 161) then 1 else 0) + T % 2 ^ 160 := by
      simp only [decide_eq_true_eq]; split <;> omega
    rw [Int.cast_natCast, div_eq_iff (by norm_num)]
    conv_lhs => rw [hsplit]
    push_cast
    ring
  rw [hT, sinOfTurn_eq _ _ (by positivity) ((div_lt_one (by norm_num)).mpr (by exact_mod_cast ht)), quarter_fixed ht]

/-- The sign bit of a word. -/
theorem and_sign_bit (x : Word) : x &&& 0x80000000 = if x.toNat.testBit 31 then 0x80000000 else 0 := BitVec.and_twoPow x 31

theorem sign_bit_of_num {x : Word} {n : Bool} {m : Nat} {e : Int} (hx : f32 x = .num n m e) :
    x &&& 0x80000000 = if n then 0x80000000 else 0 := by rw [and_sign_bit, sign_of_f32_eq_num hx]

theorem sign_bit_of_inf {x : Word} {n : Bool} (hx : f32 x = .inf n) : x &&& 0x80000000 = if n then 0x80000000 else 0 := by
  rw [f32_eq] at hx
  split_ifs at hx
  injection hx with hn
  rw [and_sign_bit, hn]

theorem fsinF_num {x : Word} {n : Bool} {m : Nat} {e : Int} (hx : f32 x = .num n m e) :
    fsinF x = sinCosF 4 (x &&& 0x7FFFFFFF) false n m e := by simp only [fsinF, fdecode_toNat, hx]

theorem fcosF_num {x : Word} {n : Bool} {m : Nat} {e : Int} (hx : f32 x = .num n m e) :
    fcosF x = sinCosF 5 (x &&& 0x7FFFFFFF) true false m e := by simp only [fcosF, fdecode_toNat, hx]

/-- The magnitude of an operand in fixed point. -/
theorem abs_f32_num {x : Word} {n : Bool} {m : Nat} {e : Int} (hx : f32 x = .num n m e) :
    |ratOf (f32 x)| = (fixed m e : ℚ) / 2 ^ 160 := by
  obtain ⟨-, he, -⟩ := f32_num_bounds hx
  have habs : |ratOf (.num n m e)| = m * (2 : ℚ) ^ e := by
    cases n <;> simp [ratOf, abs_mul, abs_of_pos (show (0 : ℚ) < (2 : ℚ) ^ e by positivity)]
  rw [hx, habs, fixed_eq m he, mul_div_cancel_right₀ _ (by norm_num)]

/-- An operand that is whole, or a half more, in fixed point. -/
theorem fixed_eq_iff (F k : Nat) : ((F : ℚ) / 2 ^ 160 = k ↔ F = k * 2 ^ 160) ∧
    ((F : ℚ) / 2 ^ 160 = k + 1 / 2 ↔ F = k * 2 ^ 160 + 2 ^ 159) := by
  have hhalf : ((k : ℚ) + 1 / 2) * 2 ^ 160 = (k * 2 ^ 160 + 2 ^ 159 : Nat) := by push_cast; ring
  rw [div_eq_iff (by norm_num), div_eq_iff (by norm_num), hhalf, Nat.cast_inj]
  exact ⟨by exact_mod_cast Iff.rfl, Iff.rfl⟩

/-- FSIN and FCOS of a whole number. -/
theorem sinCos_whole {x : Word} {n : Bool} {m k : Nat} {e : Int} (hx : f32 x = .num n m e) (hk : |ratOf (f32 x)| = k) :
    fsinF x = (x &&& 0x80000000, 0) ∧ fcosF x = (if k % 2 = 0 then 0x3F800000 else 0xBF800000, 0) := by
  rw [abs_f32_num hx] at hk
  have hF := (fixed_eq_iff _ k).1.mp hk
  rw [fsinF_num hx, fcosF_num hx, sign_bit_of_num hx]
  constructor
  · rw [(sinCosF_eq 4 _ false n m e).1 (by simp only [hF, Bool.false_eq_true, if_false]; omega)]
    simp
  · rw [(sinCosF_eq 5 _ true false m e).2.1 (by simp only [hF, if_true]; omega)]
    have hdown : 2 ^ 160 ≤ (k * 2 ^ 160 + 2 ^ 159) % 2 ^ 161 ↔ ¬ k % 2 = 0 := by omega
    simp only [hF, if_true, hdown, Bool.bne_false, decide_eq_true_eq, ite_not]

/-- FSIN and FCOS of half an odd number. -/
theorem sinCos_half {x : Word} {n : Bool} {m k : Nat} {e : Int} (hx : f32 x = .num n m e) (hk : |ratOf (f32 x)| = k + 1 / 2) :
    fcosF x = (0, 0) ∧ fsinF x = ((if k % 2 = 0 then 0x3F800000 else 0xBF800000) ^^^ (x &&& 0x80000000), 0) := by
  rw [abs_f32_num hx] at hk
  have hF := (fixed_eq_iff _ k).2.mp hk
  rw [fsinF_num hx, fcosF_num hx, sign_bit_of_num hx]
  constructor
  · rw [(sinCosF_eq 5 _ true false m e).1 (by simp only [hF, if_true]; omega)]
    rfl
  · rw [(sinCosF_eq 4 _ false n m e).2.1 (by simp only [hF, Bool.false_eq_true, if_false]; omega)]
    have hdown : 2 ^ 160 ≤ (k * 2 ^ 160 + 2 ^ 159 + 0) % 2 ^ 161 ↔ ¬ k % 2 = 0 := by omega
    simp only [hF, Bool.false_eq_true, if_false, hdown]
    cases n <;> by_cases h : k % 2 = 0 <;> simp [h]

/-- FSIN of a positive number and FCOS of any, where they are neither whole nor a half more. -/
theorem sinCos_inBound {x : Word} {n : Bool} {m : Nat} {e : Int} (hx : f32 x = .num n m e)
    (hk : ∀ k : Nat, |ratOf (f32 x)| ≠ k ∧ |ratOf (f32 x)| ≠ k + 1 / 2) :
    (n = false → inBound (sinOfTurn |ratOf (f32 x)|) (-22) (fsinF x)) ∧
    inBound (sinOfTurn (|ratOf (f32 x)| + 1 / 2)) (-22) (fcosF x) := by
  rw [abs_f32_num hx] at hk ⊢
  have h0 : fixed m e % 2 ^ 160 ≠ 0 := fun h => (hk (fixed m e / 2 ^ 160)).1 ((fixed_eq_iff _ _).1.mpr (by omega))
  have h1 : fixed m e % 2 ^ 160 ≠ 2 ^ 159 := fun h => (hk (fixed m e / 2 ^ 160)).2 ((fixed_eq_iff _ _).2.mpr (by omega))
  refine ⟨fun hn => ?_, ?_⟩
  · subst hn
    rw [fsinF_num hx, (sinCosF_eq 4 _ false false m e).2.2 h0 h1, sinOfTurn_fixed]
    exact sinPi_inBound 4 _ _ (by split <;> omega) (by split <;> omega)
  · have hsum : (fixed m e : ℚ) / 2 ^ 160 + 1 / 2 = (fixed m e + 2 ^ 159 : Nat) / 2 ^ 160 := by push_cast; ring
    rw [fcosF_num hx, (sinCosF_eq 5 _ true false m e).2.2 (by simp only [if_true]; omega) (by simp only [if_true]; omega), hsum,
      sinOfTurn_fixed]
    exact sinPi_inBound 5 _ _ (by split <;> omega) (by split <;> omega)

/-- Numbers of 2^23 and above are whole. -/
theorem whole_of_large {x : Word} {n : Bool} {m : Nat} {e : Int} (hx : f32 x = .num n m e) (h : 2 ^ 23 ≤ |ratOf (f32 x)|) :
    ∃ k : Nat, |ratOf (f32 x)| = k := by
  obtain ⟨hm, he, -⟩ := f32_num_bounds hx
  rw [abs_f32_num hx] at h ⊢
  rw [le_div_iff₀ (by norm_num)] at h
  have hF : 2 ^ 183 ≤ fixed m e := by
    have : ((2 ^ 183 : Nat) : ℚ) ≤ fixed m e := by push_cast; linarith
    exact_mod_cast this
  have hlt : fixed m e < 2 ^ ((e + 160).toNat + 24) := by
    rw [fixed, pow_add, Nat.mul_comm]; exact Nat.mul_lt_mul_of_pos_left hm (by positivity)
  have hexp := (Nat.pow_lt_pow_iff_right (by decide)).mp (hF.trans_lt hlt)
  obtain ⟨j, hj⟩ : ∃ j, (e + 160).toNat = j + 160 := ⟨(e + 160).toNat - 160, by omega⟩
  exact ⟨m * 2 ^ j, (fixed_eq_iff _ _).1.mpr (by rw [fixed, hj, pow_add, mul_assoc])⟩

/-! ### Symmetry (R122) -/

theorem pickApprox_flip (fn : Nat) (x : Word) (flip : Bool) (y : Near) (b : Int) :
    pickApprox fn x (!flip) y b = ((pickApprox fn x flip y b).1 ^^^ 0x80000000, (pickApprox fn x flip y b).2) := by
  cases flip <;> simp [pickApprox]

theorem sinCosF_flip (fn : Nat) (x : Word) (flip : Bool) (m : Nat) (e : Int) : sinCosF fn x false (!flip) m e =
    ((sinCosF fn x false flip m e).1 ^^^ 0x80000000, (sinCosF fn x false flip m e).2) := by
  obtain ⟨hw, hh, hp⟩ := sinCosF_eq fn x false flip m e
  obtain ⟨hw', hh', hp'⟩ := sinCosF_eq fn x false (!flip) m e
  by_cases h0 : (fixed m e + (if false = true then 2 ^ 159 else 0)) % 2 ^ 160 = 0
  · rw [hw h0, hw' h0]; cases flip <;> rfl
  by_cases h1 : (fixed m e + (if false = true then 2 ^ 159 else 0)) % 2 ^ 160 = 2 ^ 159
  · rw [hh h1, hh' h1]
    generalize decide (2 ^ 160 ≤ (fixed m e + (if false = true then 2 ^ 159 else 0)) % 2 ^ 161) = down
    cases flip <;> cases down <;> rfl
  · rw [hp h0 h1, hp' h0 h1, pickApprox_flip]

/-- The word with the other sign stands for the opposite number. -/
theorem f32_flip {x : Word} {n : Bool} {m : Nat} {e : Int} (hx : f32 x = .num n m e) :
    f32 (x ^^^ 0x80000000) = .num (!n) m e := by
  have hxor : (x ^^^ 0x80000000).toNat = x.toNat ^^^ 2 ^ 31 := BitVec.toNat_xor ..
  have hmod : ∀ p ≤ 31, (x ^^^ 0x80000000).toNat % 2 ^ p = x.toNat % 2 ^ p := fun p hp => by
    rw [hxor, Nat.xor_mod_two_pow, Nat.mod_eq_zero_of_dvd (pow_dvd_pow 2 hp), Nat.xor_zero]
  have hsign : (x ^^^ 0x80000000).toNat.testBit 31 = !x.toNat.testBit 31 := by
    rw [hxor, Nat.testBit_xor, Nat.testBit_two_pow_self, Bool.xor_true]
  rw [f32_eq] at hx ⊢
  rw [hmod 31 le_rfl, hmod 23 (by decide), hsign]
  split_ifs at hx ⊢ with h1 h2 <;> injection hx with hn hm he <;> rw [hn, hm, he]

/-- FSIN is odd and FCOS even. -/
theorem sinCos_symmetric {x : Word} {n : Bool} {m : Nat} {e : Int} (hx : f32 x = .num n m e) :
    fsinF (x ^^^ 0x80000000) = ((fsinF x).1 ^^^ 0x80000000, (fsinF x).2) ∧ fcosF (x ^^^ 0x80000000) = fcosF x := by
  have habs : (x ^^^ 0x80000000) &&& 0x7FFFFFFF = x &&& 0x7FFFFFFF := by
    apply BitVec.eq_of_toNat_eq
    rw [BitVec.toNat_and, BitVec.toNat_xor, Nat.and_xor_distrib_right]
    exact Nat.xor_zero _
  rw [fsinF_num (f32_flip hx), fsinF_num hx, fcosF_num (f32_flip hx), fcosF_num hx, habs, sinCosF_flip]
  exact ⟨rfl, rfl⟩

/-! ### Special operands (R122) -/

theorem approx_nan {x : Word} (h : isNan (f32 x) = true) : ∀ g ∈ [frcpF, frsqF, fexp2F, flog2F, fsinF, fcosF],
    g x = (0x7FC00000, if isSig (f32 x) then excNV else 0) := by
  cases hx : f32 x with
  | nan s =>
    have hexc : sigExc [.nan s] = if isSig (.nan s) then excNV else 0 := by simp [sigExc]
    simp [frcpF, frsqF, fexp2F, flog2F, fsinF, fcosF, fdecode_toNat, hx, hexc, canonNan]
  | inf n => rw [hx] at h; cases h
  | num n m e => rw [hx] at h; cases h

end Sys2Proof.Proofs
end

section
/-! PROOFS. Approximated functions (O20): special operands, and the whole (R121, R122). -/

namespace Sys2Proof.Proofs
open Sys2Proof Sys2Proof.Machine Sys2Proof.Safety Sys2Proof.Laws

theorem approx_inf {x : Word} (h : isInf (f32 x) = true) :
    let sign := x &&& 0x80000000
    let neg := sign != 0
    let nan : Word × Exc := (0x7FC00000, excNV)
    frcpF x = (sign, 0) ∧ frsqF x = (if neg then nan else (0, 0)) ∧ fexp2F x = (if neg then 0 else 0x7F800000, 0) ∧
      flog2F x = (if neg then nan else (0x7F800000, 0)) ∧ fsinF x = nan ∧ fcosF x = nan := by
  cases hx : f32 x with
  | nan s => rw [hx] at h; cases h
  | num n m e => rw [hx] at h; cases h
  | inf n =>
    simp only [frcpF, frsqF, fexp2F, flog2F, fsinF, fcosF, fdecode_toNat, hx, sign_bit_of_inf hx]
    cases n <;> decide

/-- FEXP2 of a zero is 1. -/
theorem fexp2F_zero {x : Word} {n : Bool} {e : Int} (hx : f32 x = .num n 0 e) : fexp2F x = (0x3F800000, 0) := by
  have hA : fixedInt n 0 e = 0 := by simp [fixedInt, fixed]
  have h := ((fexp2F_num hx).2.2 (by rw [hA]; decide) (by rw [hA]; decide)).1 (by rw [hA]; rfl)
  have hround : roundIeee fF32 .rne false 1 (0 / 2 ^ 160) false = (0x3F800000, 0) := by decide
  rw [h, hA, hround]
  rfl

theorem approx_zero {x : Word} (h : isZero (f32 x) = true) :
    let sign := x &&& 0x80000000
    frcpF x = (sign ||| 0x7F800000, excDZ) ∧ frsqF x = (sign ||| 0x7F800000, excDZ) ∧ fexp2F x = (0x3F800000, 0) ∧
      flog2F x = (0xFF800000, excDZ) ∧ fsinF x = (sign, 0) ∧ fcosF x = (0x3F800000, 0) := by
  cases hx : f32 x with
  | nan s => rw [hx] at h; cases h
  | inf n => rw [hx] at h; cases h
  | num n m e =>
    rw [hx] at h
    obtain rfl : m = 0 := by simpa [isZero] using h
    obtain ⟨hsin, hcos⟩ := sinCos_whole hx (k := 0) (by rw [hx]; simp [ratOf])
    have hrecip : frcpF x = ((x &&& 0x80000000) ||| 0x7F800000, excDZ) ∧ frsqF x = ((x &&& 0x80000000) ||| 0x7F800000, excDZ) := by
      simp only [frcpF, frsqF, fdecode_toNat, hx, sign_bit_of_num hx, if_true]
      cases n <;> decide
    exact ⟨hrecip.1, hrecip.2, fexp2F_zero hx, by rw [flog2F, fdecode_toNat, hx]; rfl, hsin, hcos⟩

/-- FRSQ and FLOG2 of a negative operand. -/
theorem approx_negative {x : Word} (hneg : (x &&& 0x80000000 != 0) = true) (hnan : isNan (f32 x) = false)
    (hzero : isZero (f32 x) = false) : frsqF x = (0x7FC00000, excNV) ∧ flog2F x = (0x7FC00000, excNV) := by
  cases hx : f32 x with
  | nan s => rw [hx] at hnan; cases hnan
  | inf n =>
    obtain ⟨-, hrsq, -, hlog, -⟩ := approx_inf (x := x) (by rw [hx]; rfl)
    exact ⟨hrsq.trans (if_pos hneg), hlog.trans (if_pos hneg)⟩
  | num n m e =>
    have hm : m ≠ 0 := by rw [hx] at hzero; simpa [isZero] using hzero
    have hn : n = true := by rw [sign_bit_of_num hx] at hneg; cases n <;> simp_all
    rw [frsqF, flog2F, fdecode_toNat, hx]
    simp [hm, hn, canonNan]

/-! ### O20 -/

/-- Settles O20: how the instructions complete; special operands; then, of numbers, each function by its own lemma. -/
theorem floatApproximations : Obligations.float_approximations := by
  unfold Obligations.float_approximations
  refine fun f q => ⟨frcpF, frsqF, fexp2F, flog2F, fsinF, fcosF, fun h => exec_of_perLaneFp h rfl, fun h => exec_of_perLaneFp h rfl,
    fun h => exec_of_perLaneFp h rfl, fun h => exec_of_perLaneFp h rfl, fun h => exec_of_perLaneFp h rfl,
    fun h => exec_of_perLaneFp h rfl, fun x => ⟨approx_nan, approx_zero, approx_inf, approx_negative, fun hnan hinf => ?_⟩,
    fun x n m e hx hm => ?_⟩
  · cases hx : f32 x with
    | nan s => rw [hx] at hnan; cases hnan
    | inf n => rw [hx] at hinf; cases hinf
    | num n m e =>
      obtain ⟨hsin, hcos⟩ := sinCos_symmetric hx
      rw [hsin, hcos]
      exact ⟨rfl, rfl, rfl, rfl⟩
  · obtain ⟨hbig, hsmall, hwhole, hpart⟩ := fexp2F_spec hx
    refine ⟨frcpF_faithful hx hm, ?_, hbig, hsmall, hwhole, hpart, ?_, fun k => sinCos_whole hx, fun k => sinCos_half hx,
      whole_of_large hx, sinCos_inBound hx⟩
    · rintro rfl; exact frsqF_faithful hx hm
    · rintro rfl
      refine ⟨fun k => flog2F_exact hx hm, fun hk => ⟨_, ?_, flog2F_inexact hx hm hk⟩⟩
      rw [logFixed]; push_cast; rfl

end Sys2Proof.Proofs
end

section
/-! PROOFS. Rounding to the formats of R36 to R40, F8N and F4 among them: nearest codes, overflow and exceptions (R47). -/

namespace Sys2Proof.Proofs
open Sys2Proof Sys2Proof.Machine Sys2Proof.Safety Sys2Proof.Laws

/-! ### Formats and their finite codes (R36 to R40) -/

/-- What rounding needs of a format: an odd largest code, the magnitudes around it, and which codes are finite. -/
structure IsRanged (f : Fmt) : Prop where
  fw    : 1 ≤ f.fw
  odd   : maxCode f % 2 = 1
  lt    : maxCode f < 2 ^ (f.ew + f.fw)
  top   : magOf f (maxCode f + 1) = (2 : ℝ) ^ (topExpo f + 1)
  max   : magOf f (maxCode f) = ((2 : ℝ) ^ (f.fw + 1) - 1) * (2 : ℝ) ^ (topExpo f - f.fw)
  codes : ∀ k, finiteCode f k → k % 2 ^ (f.ew + f.fw) ≤ maxCode f ∧
    fdecode f k = finiteVal f (k.testBit (f.ew + f.fw)) (k % 2 ^ (f.ew + f.fw))
  finite : ∀ n, ∀ c ≤ maxCode f, (f.kind = .ieee ∨ c ≠ 0 ∨ n = false) → finiteCode f (c + signCode f n)

theorem IsIeee.isRanged {f : Fmt} (hf : IsIeee f) : IsRanged f where
  fw := hf.fw
  odd := maxCode_odd hf
  lt := lt_two_pow_of_le_maxCode hf le_rfl
  top := by rw [maxCode_succ hf]; exact magOf_infCode hf
  max := magOf_maxCode hf
  codes k hk := by
    have hle := (finiteCode_iff hf).mp hk
    exact ⟨hle, by rw [fdecode_ieee hf, if_pos hle]⟩
  finite n c hc _ := (fdecode_signCode hf n hc).1

/-- The codes of F8N and F4: one NaN, or none, and numbers. -/
theorem fdecode_bare {f : Fmt} (hf : f.kind ≠ .ieee) (k : Nat) : fdecode f k =
    if f.kind = .f8n ∧ k % 256 = 0x80 then .nan false else finiteVal f (k.testBit (f.ew + f.fw)) (k % 2 ^ (f.ew + f.fw)) := by
  have hpow : 2 ^ (f.ew + f.fw) = 2 ^ f.fw * 2 ^ f.ew := by ring
  have he : k / 2 ^ f.fw % 2 ^ f.ew = k % 2 ^ (f.ew + f.fw) / 2 ^ f.fw := by rw [hpow, Nat.mod_mul_right_div_self]
  have hm : k % 2 ^ f.fw = k % 2 ^ (f.ew + f.fw) % 2 ^ f.fw := by rw [hpow, Nat.mod_mul_right_mod]
  simp only [fdecode, he]
  rw [hm]
  cases hk : f.kind with
  | ieee => exact absurd hk hf
  | f8n => simp only [true_and]; rfl
  | f4 => simp only [reduceCtorEq, false_and, if_false]; rfl

theorem isNan_finiteVal (f : Fmt) (n : Bool) (c : Nat) : isNan (finiteVal f n c) = false ∧ isInf (finiteVal f n c) = false := by
  unfold finiteVal; split <;> exact ⟨rfl, rfl⟩

theorem finiteCode_bare {f : Fmt} (hf : f.kind ≠ .ieee) (k : Nat) : finiteCode f k ↔ ¬ (f.kind = .f8n ∧ k % 256 = 0x80) := by
  rw [finiteCode, fdecode_bare hf]
  split
  case isTrue h => exact iff_of_false (fun hk => nomatch hk.1) (not_not.mpr h)
  case isFalse h => exact iff_of_true (isNan_finiteVal ..) h

/-- A format without infinities: its codes below the sign go up to the largest number. -/
theorem codes_of_bare {f : Fmt} (hf : f.kind ≠ .ieee) (k : Nat) (hk : finiteCode f k) : k % 2 ^ (f.ew + f.fw) ≤ maxCode f ∧
    fdecode f k = finiteVal f (k.testBit (f.ew + f.fw)) (k % 2 ^ (f.ew + f.fw)) := by
  have hmax : maxCode f = 2 ^ (f.ew + f.fw) - 1 := by
    cases h : f.kind with
    | ieee => exact absurd h hf
    | f8n => simp only [maxCode, h]
    | f4 => simp only [maxCode, h]
  have hlt := Nat.mod_lt k (Nat.two_pow_pos (f.ew + f.fw))
  exact ⟨by omega, by rw [fdecode_bare hf, if_neg ((finiteCode_bare hf k).mp hk)]⟩

theorem isRanged_F8N : IsRanged fF8N where
  fw := by decide
  odd := by decide
  lt := by decide
  top := by rw [show topExpo fF8N = 8 by decide]; norm_num [magOf, maxCode, fF8N]
  max := by rw [show topExpo fF8N = 8 by decide]; norm_num [magOf, maxCode, fF8N]
  codes := codes_of_bare (by decide)
  finite n c hc h := by
    have hc' : c ≤ 127 := hc
    rw [finiteCode_bare (by decide)]
    rintro ⟨-, hk⟩
    cases n
    · simp only [signCode, Bool.false_eq_true, if_false] at hk; omega
    · simp only [signCode, if_true, show fF8N.ew + fF8N.fw = 7 from rfl] at hk
      rcases h with h | h | h
      · exact absurd h (by decide)
      · omega
      · cases h

theorem isRanged_F4 : IsRanged fF4 where
  fw := by decide
  odd := by decide
  lt := by decide
  top := by rw [show topExpo fF4 = 2 by decide]; norm_num [magOf, maxCode, fF4]
  max := by rw [show topExpo fF4 = 2 by decide]; norm_num [magOf, maxCode, fF4]
  codes := codes_of_bare (by decide)
  finite n c _ _ := (finiteCode_bare (by decide) _).mpr fun h => absurd h.1 (by decide)

/-- The value of a finite code: its magnitude with its sign. -/
theorem IsRanged.value {f : Fmt} (hf : IsRanged f) {n : Bool} {c : Nat} (hc : c ≤ maxCode f)
    (hfin : finiteCode f (c + signCode f n)) :
    signOf (fdecode f (c + signCode f n)) = n ∧ ((ratOf (fdecode f (c + signCode f n)) : ℚ) : ℝ) = signed n (magOf f c) := by
  obtain ⟨hbit, hmod⟩ := signCode_lt f n (hc.trans_lt hf.lt)
  obtain ⟨-, hdec⟩ := hf.codes _ hfin
  rw [hdec, hbit, hmod]
  exact finiteVal_spec f n c

/-- Every finite code stands for a magnitude of the format with a sign. -/
theorem IsRanged.exists_value {f : Fmt} (hf : IsRanged f) {k : Nat} (hk : finiteCode f k) :
    ∃ n c, ((ratOf (fdecode f k) : ℚ) : ℝ) = signed n (magOf f c) :=
  ⟨_, _, by rw [(hf.codes k hk).2]; exact (finiteVal_spec f _ _).2⟩

/-! ### Nearest codes and overflow (R43, R47) -/

/-- To nearest or toward zero: the code taken lies past the largest finite one just where the number overflows. -/
theorem IsRanged.lt_iff_overflows {f : Fmt} (hf : IsRanged f) {md : RMode} (hmd : md = .rne ∨ md = .rz) {neg : Bool} {v : ℝ} {c : Nat}
    (hv : 0 ≤ v) (h : nearestMag f md neg v c) : maxCode f < c ↔ overflows f md neg (signed neg v) := by
  have hmono := strictMono_magOf f
  have hsucc := hmono (Nat.lt_succ_self (maxCode f))
  have hmid : ((2 : ℝ) ^ (f.fw + 2) - 1) * (2 : ℝ) ^ (topExpo f - f.fw - 1) = (magOf f (maxCode f + 1) + magOf f (maxCode f)) / 2 := by
    obtain ⟨D, hD⟩ : ∃ D, topExpo f = D + f.fw + 1 := ⟨topExpo f - f.fw - 1, by ring⟩
    rw [hf.top, hf.max, hD, show D + f.fw + 1 - f.fw - 1 = D by ring, show D + f.fw + 1 - f.fw = D + 1 by ring,
      show D + f.fw + 1 + 1 = D + ((f.fw + 2 : Nat) : Int) by push_cast; ring, zpow_add₀ (by norm_num), zpow_add_one₀ (by norm_num),
      zpow_natCast]
    ring
  rw [overflows, abs_signed hv, hmid, ← hf.top]
  rcases hmd with rfl | rfl
  · have hnear := h.1 rfl
    have hiff : maxCode f < c ↔ (magOf f (maxCode f + 1) + magOf f (maxCode f)) / 2 ≤ v := by
      constructor
      · intro hc
        have := (abs_sub_le_iff_midpoint (hmono hc)).1.mp (hnear (maxCode f)).1
        have := hmono.monotone (show maxCode f + 1 ≤ c from hc)
        linarith
      · intro hle
        by_contra hc
        have hcM := hmono.monotone (not_lt.mp hc)
        have hlt := hcM.trans_lt hsucc
        have h1 := (abs_sub_le_iff_midpoint hlt).2.mp (hnear (maxCode f + 1)).1
        have htie := (hnear (maxCode f + 1)).1.antisymm ((abs_sub_le_iff_midpoint hlt).1.mpr (by linarith))
        have heven := (hnear (maxCode f + 1)).2 htie hlt.ne'
        have hceq : c = maxCode f := hmono.injective (by linarith)
        have := hf.odd
        omega
    simp [hiff]
  · obtain ⟨hle, hgreatest⟩ := h.2.2 (by decide) (by simp [awayFrom])
    have hiff : maxCode f < c ↔ magOf f (maxCode f + 1) ≤ v :=
      ⟨fun hc => (hmono.monotone (Nat.succ_le_of_lt hc)).trans hle, fun h => hmono.le_iff_le.mp (hgreatest _ h)⟩
    simp [hiff, awayFrom]

/-- To nearest or toward zero: a finite code of the value that the mode takes for the magnitude, with the sign, is the code taken. -/
theorem IsRanged.nearestCode_of_nearestMag {f : Fmt} (hf : IsRanged f) {md : RMode} (hmd : md = .rne ∨ md = .rz) {neg : Bool} {v : ℝ}
    {c r : Nat} (hv : 0 < v) (h : nearestMag f md neg v c) (hfin : finiteCode f r) (hpar : c % 2 = 0 → r % 2 = 0)
    (hval : ((ratOf (fdecode f r) : ℚ) : ℝ) = signed neg (magOf f c)) : nearestCode f md (signed neg v) r := by
  refine ⟨hfin, fun k hk => ?_⟩
  obtain ⟨n, k', hkval⟩ := hf.exists_value hk
  simp only [hval, hkval]
  rcases hmd with rfl | rfl
  · obtain ⟨hle, htie⟩ := nearest_signed (neg := neg) (n := n) (k := k') hv (h.1 rfl)
    exact ⟨fun _ => ⟨hle, fun he hne => hpar (htie he hne)⟩, nofun, nofun, nofun⟩
  · obtain ⟨hle, hgreatest⟩ := h.2.2 (by decide) (by simp [awayFrom])
    have hc0 := magOf_nonneg f c
    refine ⟨nofun, fun _ => ?_, nofun, nofun⟩
    rw [abs_signed hc0, abs_signed hv.le, abs_signed (magOf_nonneg f k'), signed_mul_signed]
    exact ⟨hle, by positivity, fun hkv _ => hgreatest _ hkv⟩

/-- The magnitudes of a format are those of an IEEE format with its fraction and bias: what a mode takes for a number, and whether
its value is another, is the same in both. -/
theorem IsRanged.roundMag_spec {f : Fmt} (hf : IsRanged f) (md : RMode) (neg : Bool) {v : ℝ} {m : Nat} {e : Int} (hm : m ≠ 0)
    (hv : v = m * (2 : ℝ) ^ e) : nearestMag f md neg v (roundMag f md neg m e false).code ∧
      ((roundMag f md neg m e false).inexact = true ↔ magOf f (roundMag f md neg m e false).code ≠ v) :=
  Proofs.roundMag_spec (f := ⟨2, f.fw, f.bias, .ieee⟩) ⟨rfl, hf.fw, le_rfl⟩ md neg hm (exactly_false.mpr hv) nofun

theorem signed_zero (n : Bool) : signed n 0 = 0 := by cases n <;> simp [signed]

/-- A number that overflows a narrow format (R47). -/
theorem toNarrow_of_lt {f : Fmt} (md : RMode) (sat n : Bool) {m : Nat} {e : Int} (hm : m ≠ 0)
    (h : maxCode f < (roundMag f md n m e false).code) : toNarrow f md sat (.num n m e) =
      (if sat = true ∨ md = .rz ∨ f.kind = .f4 then maxCode f + signCode f n
        else if f.kind = .f8n then 0x80 else infCode f + signCode f n, excOF ||| excNX) := by
  have hhuge : (roundMag f md n m e false).huge = true := decide_eq_true h
  cases hk : f.kind <;> cases sat <;> simp [toNarrow, hk, hm, hhuge]

/-- A number that a narrow format holds, rounded: a zero without infinities has no sign. -/
theorem toNarrow_of_le {f : Fmt} (md : RMode) (sat n : Bool) {m : Nat} {e : Int} (hm : m ≠ 0)
    (h : (roundMag f md n m e false).code ≤ maxCode f) : toNarrow f md sat (.num n m e) =
      (if (roundMag f md n m e false).code = 0 ∧ f.kind ≠ .ieee then 0 else (roundMag f md n m e false).code + signCode f n,
        if (roundMag f md n m e false).inexact then (if (roundMag f md n m e false).tiny then excUF ||| excNX else excNX) else 0) := by
  have hhuge : (roundMag f md n m e false).huge = false := decide_eq_false (not_lt.mpr h)
  cases hk : f.kind <;> simp [toNarrow, hk, hm, hhuge]

/-- The code of a number that a narrow format holds. -/
theorem IsRanged.code_spec {f : Fmt} (hf : IsRanged f) (n : Bool) {c : Nat} (hc : c ≤ maxCode f) :
    let r := if c = 0 ∧ f.kind ≠ .ieee then 0 else c + signCode f n
    finiteCode f r ∧ (c % 2 = 0 → r % 2 = 0) ∧ ((ratOf (fdecode f r) : ℚ) : ℝ) = signed n (magOf f c) ∧
      (f.kind ≠ .ieee → c = 0 → r = 0) ∧ (f.kind = .ieee → signOf (fdecode f r) = n) := by
  have hzero : signCode f false = 0 := rfl
  dsimp only
  split
  case isTrue h =>
    obtain ⟨rfl, hk⟩ := h
    have hfin := hf.finite false 0 hc (.inr (.inr rfl))
    obtain ⟨-, hval⟩ := hf.value hc hfin
    rw [hzero, Nat.add_zero] at hfin hval
    exact ⟨hfin, id, by rw [hval, magOf_zero, signed_zero, signed_zero], fun _ _ => rfl, fun h => absurd h hk⟩
  case isFalse h =>
    have hfin := hf.finite n c hc (by tauto)
    obtain ⟨hsign, hval⟩ := hf.value hc hfin
    have heven : signCode f n % 2 = 0 := by
      cases n
      · rfl
      · rw [signCode, if_pos rfl, ← Nat.sub_add_cancel hf.fw, ← Nat.add_assoc, pow_succ, Nat.mul_mod_left]
    exact ⟨hfin, fun h => by omega, hval, fun h1 h2 => absurd ⟨h2, h1⟩ h, fun _ => hsign⟩

/-- A number, not zero, to a narrow format (R47). -/
theorem toNarrow_num {f : Fmt} (hf : IsRanged f) {md : RMode} (hmd : md = .rne ∨ md = .rz) (sat n : Bool) {m : Nat} (e : Int)
    (hm : m ≠ 0) :
    let x := ((ratOf (.num n m e) : ℚ) : ℝ)
    let r := toNarrow f md sat (.num n m e)
    (overflows f md n x → r.2 = excOF ||| excNX ∧ r.1 = if sat = true ∨ md = .rz ∨ f.kind = .f4 then maxCode f + signCode f n
      else if f.kind = .f8n then 0x80 else infCode f + signCode f n) ∧
    (¬ overflows f md n x → nearestCode f md x r.1 ∧ roundExc f md n x r ∧
      (f.kind ≠ .ieee → ratOf (fdecode f r.1) = 0 → r.1 = 0) ∧ (f.kind = .ieee → signOf (fdecode f r.1) = n)) := by
  have hv0 : 0 < (m : ℝ) * (2 : ℝ) ^ e := by positivity
  obtain ⟨hnear, hinex⟩ := hf.roundMag_spec md n hm rfl
  have htiny := tiny_iff_tinyAfter (f := f) md n hm (exactly_false.mpr (rfl : (m : ℝ) * (2 : ℝ) ^ e = _)) nofun
  have hlt := hf.lt_iff_overflows hmd hv0.le hnear
  dsimp only
  rw [ratOf_num]
  refine ⟨fun ho => ?_, fun ho => ?_⟩
  · rw [toNarrow_of_lt md sat n hm (hlt.mpr ho)]
    exact ⟨rfl, rfl⟩
  · have hc := not_lt.mp (mt hlt.mp ho)
    obtain ⟨hfin, hpar, hval, hzero, hsign⟩ := hf.code_spec n hc
    rw [toNarrow_of_le md sat n hm hc]
    refine ⟨hf.nearestCode_of_nearestMag hmd hv0 hnear hfin hpar hval, ?_, fun hk h0 => hzero hk ?_, hsign⟩
    · simp only [roundExc, hval, signed_inj, ← htiny]
      refine ⟨fun hs => ?_, fun hs ht => ?_, fun hs ht => ?_⟩
      · rw [if_neg (mt hinex.mp (not_not.mpr hs))]
      · rw [if_pos (hinex.mpr hs), if_pos ht]
      · rw [if_pos (hinex.mpr hs), if_neg ht]
    · rw [h0, Rat.cast_zero, ← signed_zero n, signed_inj, ← magOf_zero f] at hval
      exact (strictMono_magOf f).injective hval.symm

end Sys2Proof.Proofs
end

section
/-! PROOFS. Conversions between formats (O21): to F32, to a narrow format, to an integer (R47, R48, R125, R126). -/

namespace Sys2Proof.Proofs
open Sys2Proof Sys2Proof.Machine Sys2Proof.Safety Sys2Proof.Laws

/-! ### The value converted, and where it goes (R124 to R126) -/

/-- The value of an element of a source format. -/
def sourceVal (src x : Nat) : FVal := if src ≤ 5 then fdecode (fmtOf src) x else intVal (intDecode src x)

theorem packVal_intVal (f : Fmt) (md : RMode) (k : Int) : (if k = 0 then (0, 0) else packVal f md (intVal k)) = packVal f md (intVal k) := by
  split
  case isTrue h => subst h; rfl
  case isFalse => rfl

theorem convert_eq (src dst : Nat) (md : RMode) (sat : Bool) (x : Nat) : convert src dst md sat x =
    if dst = 0 then packVal fF32 md (sourceVal src x)
    else if dst ≤ 5 then toNarrow (fmtOf dst) md sat (sourceVal src x)
    else if src ≤ 5 then toInt dst md (sourceVal src x)
    else (intCode (fmtWidth dst) (satInt (intDecode src x) (intLo dst) (intHi dst)), 0) := by
  simp only [convert, isFloatCode, sourceVal, decide_eq_true_eq, packVal_intVal]
  split <;> rfl

theorem convert_to_F32 (src : Nat) (md : RMode) (sat : Bool) (x : Nat) :
    convert src 0 md sat x = packVal fF32 md (sourceVal src x) := by rw [convert_eq, if_pos rfl]

theorem convert_to_narrow (src : Nat) {dst : Nat} (h1 : 1 ≤ dst) (h5 : dst ≤ 5) (md : RMode) (sat : Bool) (x : Nat) :
    convert src dst md sat x = toNarrow (fmtOf dst) md sat (sourceVal src x) := by
  rw [convert_eq, if_neg (show ¬ dst = 0 by omega), if_pos h5]

theorem convert_to_integer (src : Nat) {dst : Nat} (h5 : 5 < dst) (md : RMode) (sat : Bool) (x : Nat) : convert src dst md sat x =
    if src ≤ 5 then toInt dst md (sourceVal src x)
    else (intCode (fmtWidth dst) (satInt (intDecode src x) (intLo dst) (intHi dst)), 0) := by
  rw [convert_eq, if_neg (show ¬ dst = 0 by omega), if_neg (show ¬ dst ≤ 5 by omega)]

theorem ratOf_intVal (k : Int) : ratOf (intVal k) = k := by
  rw [intVal, ratOf_num_int, zpow_zero, mul_one]

/-! ### To F32 (R125) -/

/-- The significand and the exponent of a number of a format. -/
theorem fdecode_num_bounds {f : Fmt} (hew : 2 ≤ f.ew) {k m : Nat} {n : Bool} {e : Int} (h : fdecode f k = .num n m e) :
    m < 2 ^ (f.fw + 1) ∧ 1 - (f.bias : Int) - f.fw ≤ e ∧
      e < (2 ^ f.ew : Nat) - (if f.kind = .ieee then 1 else 0) - f.bias - f.fw := by
  have hm : k % 2 ^ f.fw < 2 ^ f.fw := Nat.mod_lt _ (Nat.two_pow_pos _)
  have he : k / 2 ^ f.fw % 2 ^ f.ew < 2 ^ f.ew := Nat.mod_lt _ (Nat.two_pow_pos _)
  have hpow : 2 ^ (f.fw + 1) = 2 ^ f.fw + 2 ^ f.fw := by ring
  have hew4 : 2 ^ 2 ≤ 2 ^ f.ew := Nat.pow_le_pow_right (by decide) hew
  have hfin : (if k / 2 ^ f.fw % 2 ^ f.ew = 0 then FVal.num (k.testBit (f.ew + f.fw)) (k % 2 ^ f.fw) (1 - (f.bias : Int) - f.fw)
      else .num (k.testBit (f.ew + f.fw)) (2 ^ f.fw + k % 2 ^ f.fw) ((k / 2 ^ f.fw % 2 ^ f.ew : Nat) - f.bias - f.fw)) = .num n m e ∧
      (f.kind = .ieee → k / 2 ^ f.fw % 2 ^ f.ew ≠ 2 ^ f.ew - 1) := by
    unfold fdecode at h
    cases hk : f.kind with
    | ieee =>
      simp only [hk] at h
      split at h
      case isTrue => split at h <;> cases h
      case isFalse hE => exact ⟨h, fun _ => hE⟩
    | f8n =>
      simp only [hk] at h
      split at h
      case isTrue => cases h
      case isFalse => exact ⟨h, nofun⟩
    | f4 =>
      simp only [hk] at h
      exact ⟨h, nofun⟩
  obtain ⟨hnum, htop⟩ := hfin
  split at hnum
  case isTrue hE =>
    injection hnum
    rw [hE] at htop he
    exact ⟨by omega, by omega, by split <;> omega⟩
  case isFalse hE =>
    injection hnum
    refine ⟨by omega, by omega, ?_⟩
    split
    case isTrue hk => have := htop hk; omega
    case isFalse => omega

/-- The formats narrower than F32 lie in its range. -/
theorem narrow_fmt_bounds : ∀ src ≤ 5, src ≠ 0 → 2 ≤ (fmtOf src).ew ∧ (fmtOf src).fw + 1 ≤ 24 ∧
    -149 ≤ 1 - ((fmtOf src).bias : Int) - (fmtOf src).fw ∧
    ((2 ^ (fmtOf src).ew : Nat) : Int) - (if (fmtOf src).kind = .ieee then 1 else 0) - (fmtOf src).bias ≤ 128 := by decide

/-- A number of a format narrower than F32, in F32's range. -/
theorem narrow_num_bounds {src x m : Nat} {n : Bool} {e : Int} (h0 : src ≠ 0) (h5 : src ≤ 5) (h : fdecode (fmtOf src) x = .num n m e) :
    m < 2 ^ 24 ∧ -149 ≤ e ∧ (m : ℝ) * (2 : ℝ) ^ e < (2 : ℝ) ^ (128 : Int) := by
  obtain ⟨hew, hfw, hbias, htop⟩ := narrow_fmt_bounds src h5 h0
  obtain ⟨hm, he, hlt⟩ := fdecode_num_bounds hew h
  refine ⟨hm.trans_le (Nat.pow_le_pow_right (by decide) hfw), hbias.trans he, ?_⟩
  have hmR : (m : ℝ) < 2 ^ ((fmtOf src).fw + 1) := by exact_mod_cast hm
  calc (m : ℝ) * (2 : ℝ) ^ e < 2 ^ ((fmtOf src).fw + 1) * (2 : ℝ) ^ e := by gcongr
    _ = (2 : ℝ) ^ (((fmtOf src).fw + 1 : Nat) + e) := two_pow_mul_zpow ..
    _ ≤ (2 : ℝ) ^ (128 : Int) := zpow_le_zpow_right₀ (by norm_num) (by push_cast; omega)

/-- A number in F32's range goes to F32 exactly. -/
theorem packVal_exact (md : RMode) {n : Bool} {m : Nat} {e : Int} (hm : m < 2 ^ 24) (he : -149 ≤ e)
    (hlt : (m : ℝ) * (2 : ℝ) ^ e < (2 : ℝ) ^ (128 : Int)) :
    let r := packVal fF32 md (.num n m e)
    finiteCode fF32 r.1 ∧ signOf (fdecode fF32 r.1) = n ∧ ratOf (fdecode fF32 r.1) = ratOf (.num n m e) ∧ r.2 = 0 := by
  obtain ⟨c, hc, hval, hr⟩ : ∃ c ≤ maxCode fF32, magOf fF32 c = m * (2 : ℝ) ^ e ∧ packVal fF32 md (.num n m e) = (c + signCode fF32 n, 0) := by
    obtain ⟨c, hc, hval⟩ := exists_code_of_num hm he hlt
    by_cases h0 : m = 0
    · exact ⟨0, Nat.zero_le _, by simp [h0], by rw [packVal, if_pos h0, Nat.zero_add]⟩
    · exact ⟨c, hc, hval, by rw [packVal, if_neg h0]; exact roundIeee_exact isIeee_F32 md n h0 hc hval⟩
  obtain ⟨hfin, hsign, hrat⟩ := fdecode_signCode isIeee_F32 n hc
  rw [hval, ← ratOf_num] at hrat
  rw [hr]
  exact ⟨hfin, hsign, by exact_mod_cast hrat, rfl⟩

/-! ### To an integer (R48) -/

/-- A number rounded to an integer: the one that the mode takes, and whether it is another number. -/
theorem roundInt_spec (md : RMode) (n : Bool) (m : Nat) (e : Int) :
    integerFor md (ratOf (.num n m e)) (roundInt md n m e).1 ∧
    ((roundInt md n m e).2 = true ↔ ((roundInt md n m e).1 : ℚ) ≠ ratOf (.num n m e)) := by
  obtain ⟨hround, hinex⟩ := roundAt_spec md n (q := 0) (exactly_false.mpr (rfl : (m : ℝ) * (2 : ℝ) ^ e = _)) nofun
  rw [zpow_zero, div_one] at hround hinex
  have hx : ratOf (.num n m e) = if n then -((m : ℚ) * (2 : ℚ) ^ e) else m * (2 : ℚ) ^ e := by cases n <;> simp [ratOf]
  have hval : ((roundAt md n m e false 0).1 : ℝ) = m * (2 : ℝ) ^ e ↔ ((roundInt md n m e).1 : ℚ) = ratOf (.num n m e) := by
    rw [show ((roundAt md n m e false 0).1 : ℝ) = m * (2 : ℝ) ^ e ↔ ((roundAt md n m e false 0).1 : ℚ) = m * (2 : ℚ) ^ e by
      rw [← Rat.cast_inj (α := ℝ)]; push_cast; exact Iff.rfl, hx]
    cases n <;> simp [roundInt]
  constructor
  · rw [hx]
    exact integerFor_of_roundsTo (by positivity) (by push_cast; exact hround)
  · rw [ne_eq, ← hval]
    refine hinex.trans ⟨fun h => h _, fun h k hk => h ?_⟩
    rw [← hk] at hround ⊢
    exact congrArg _ (eq_of_roundsTo hround)

theorem intLo_le_intHi (dst : Nat) : intLo dst ≤ intHi dst := by
  have h1 : (1 : Int) ≤ (2 ^ (fmtWidth dst - 1) : Nat) := by exact_mod_cast Nat.one_le_two_pow
  have h2 : (1 : Int) ≤ (2 ^ fmtWidth dst : Nat) := by exact_mod_cast Nat.one_le_two_pow
  rw [intLo, intHi]
  split <;> omega

/-- A number rounded and clamped (R48). -/
theorem toInt_num (dst : Nat) (md : RMode) (n : Bool) (m : Nat) (e : Int) : ∃ i : Int, integerFor md (ratOf (.num n m e)) i ∧
    toInt dst md (.num n m e) = (intCode (fmtWidth dst) (clampTo (intLo dst) (intHi dst) i),
      if i < intLo dst ∨ intHi dst < i then excNV else if (i : ℚ) = ratOf (.num n m e) then 0 else excNX) := by
  obtain ⟨hint, hinex⟩ := roundInt_spec md n m e
  refine ⟨(roundInt md n m e).1, hint, ?_⟩
  have hle := intLo_le_intHi dst
  simp only [toInt]
  generalize (roundInt md n m e).1 = i at *
  have hexc : (if (roundInt md n m e).2 = true then excNX else 0) = if (i : ℚ) = ratOf (.num n m e) then 0 else excNX := by
    by_cases hi : (i : ℚ) = ratOf (.num n m e)
    · rw [if_pos hi, if_neg (mt hinex.mp (not_not.mpr hi))]
    · rw [if_neg hi, if_pos (hinex.mpr hi)]
  rw [hexc]
  split
  case isTrue h => rw [if_pos (.inl h), clampTo, max_eq_left (by omega)]
  case isFalse h =>
    split
    case isTrue h' => rw [if_pos (.inr h'), clampTo, min_eq_left h'.le, max_eq_right hle]
    case isFalse h' => rw [if_neg (not_or.mpr ⟨h, h'⟩), clampTo, min_eq_right (by omega), max_eq_right (by omega)]

theorem intLo_intHi_eq (dst : Nat) : intLo dst = (if isSignedCode dst then -(2 ^ (fmtWidth dst - 1)) else 0) ∧
    intHi dst = if isSignedCode dst then 2 ^ (fmtWidth dst - 1) - 1 else 2 ^ fmtWidth dst - 1 := by
  simp [intLo, intHi]

theorem intCode_eq (w : Nat) (i : Int) : intCode w i = (i % 2 ^ w).toNat := by simp [intCode]

/-- The codes of the ends of an integer format's range. -/
theorem intCode_ends : ∀ dst < 14, 5 < dst → ∀ n : Bool, intCode (fmtWidth dst) (if n then intLo dst else intHi dst) =
    if n then (if isSignedCode dst then 2 ^ (fmtWidth dst - 1) else 0)
    else if isSignedCode dst then 2 ^ (fmtWidth dst - 1) - 1 else 2 ^ fmtWidth dst - 1 := by decide

theorem integerFor_intCast (k : Int) : integerFor .rz (k : ℚ) k := by
  refine ⟨nofun, nofun, fun _ => ?_, nofun⟩
  simp

/-! ### Conversions of numbers, infinities and NaNs -/

theorem isRanged_fmtOf {dst : Nat} (h1 : 1 ≤ dst) (h5 : dst ≤ 5) : IsRanged (fmtOf dst) := by
  interval_cases dst
  · exact (isIeee_of_mem (by decide)).isRanged
  · exact (isIeee_of_mem (by decide)).isRanged
  · exact isRanged_F8N
  · exact IsIeee.isRanged ⟨rfl, by decide, by decide⟩
  · exact isRanged_F4

theorem kind_fmtOf : ∀ dst ≤ 5, ((fmtOf dst).kind = .f8n ↔ dst = 3) ∧ ((fmtOf dst).kind = .f4 ↔ dst = 5) ∧
    ((fmtOf dst).kind ≠ .ieee ↔ dst = 3 ∨ dst = 5) := by decide

/-- An integer to F32 (R125). -/
theorem packVal_integer (md : RMode) {k : Int} {n : Bool} {m : Nat} {e : Int} (hk : intVal k = .num n m e) :
    (m = 0 → packVal fF32 md (.num n m e) = (0, 0)) ∧
    (m ≠ 0 → roundedTo fF32 md n ((ratOf (.num n m e) : ℚ) : ℝ) (packVal fF32 md (.num n m e))) := by
  refine ⟨fun hm => ?_, fun hm => ?_⟩
  · injection hk with hn hk
    obtain rfl : k = 0 := by omega
    rw [packVal, if_pos hm, ← hn]
    rfl
  · rw [← finish_exact]
    exact finish_roundedTo isIeee_F32 md n e hm

/-- A number to a format narrower than F32 (R47). -/
theorem toNarrow_fmtOf {dst : Nat} (h1 : 1 ≤ dst) (h5 : dst ≤ 5) {md : RMode} (hmd : md = .rne ∨ md = .rz) (sat n : Bool) (m : Nat) (e : Int) :
    let f := fmtOf dst
    let bare := dst = 3 ∨ dst = 5
    let v := FVal.num n m e
    let r := toNarrow f md sat v
    (m = 0 → r = (if bare then 0 else signCode f n, 0)) ∧
    (m ≠ 0 → overflows f md n ((ratOf v : ℚ) : ℝ) → r.2 = excOF ||| excNX ∧
      r.1 = if sat = true ∨ md = .rz ∨ dst = 5 then maxCode f + signCode f n
        else if dst = 3 then 0x80 else infCode f + signCode f n) ∧
    (m ≠ 0 → ¬ overflows f md n ((ratOf v : ℚ) : ℝ) → nearestCode f md ((ratOf v : ℚ) : ℝ) r.1 ∧
      roundExc f md n ((ratOf v : ℚ) : ℝ) r ∧ (bare → ratOf (fdecode f r.1) = 0 → r.1 = 0) ∧
      (¬ bare → signOf (fdecode f r.1) = n)) := by
  obtain ⟨h8, h4, hbare⟩ := kind_fmtOf dst h5
  have hspec := fun hm : m ≠ 0 => toNarrow_num (isRanged_fmtOf h1 h5) hmd sat n e hm
  simp only [h8, h4, hbare] at hspec
  refine ⟨fun hm => ?_, fun hm ho => (hspec hm).1 ho, fun hm ho => ?_⟩
  · interval_cases dst <;> simp [toNarrow, fmtOf, fF16, fB16, fF8N, fF8W, fF4, hm]
  · obtain ⟨hnear, hexc, hzero, hsign⟩ := (hspec hm).2 ho
    exact ⟨hnear, hexc, hzero, fun hb => hsign (not_not.mp (mt hbare.mp hb))⟩

/-- A number to an integer format (R48). -/
theorem convert_integer {src dst : Nat} (md : RMode) (sat : Bool) (x : Nat) (h5 : 5 < dst) {n : Bool} {m : Nat} {e : Int}
    (hv : sourceVal src x = .num n m e) :
    let r := convert src dst md sat x
    let w := fmtWidth dst
    let lo : Int := if isSignedCode dst then -(2 ^ (w - 1)) else 0
    let hi : Int := if isSignedCode dst then 2 ^ (w - 1) - 1 else 2 ^ w - 1
    ∃ i : Int, integerFor (if src ≤ 5 then md else .rz) (ratOf (.num n m e)) i ∧ r.1 = (clampTo lo hi i % 2 ^ w).toNat ∧
      r.2 = if 5 < src then 0 else if i < lo ∨ hi < i then excNV else if (i : ℚ) = ratOf (.num n m e) then 0 else excNX := by
  obtain ⟨hlo, hhi⟩ := intLo_intHi_eq dst
  dsimp only
  rw [← hlo, ← hhi, convert_to_integer src h5]
  by_cases hsrc : src ≤ 5
  · rw [if_pos hsrc, if_pos hsrc, hv]
    obtain ⟨i, hint, hr⟩ := toInt_num dst md n m e
    rw [hr]
    exact ⟨i, hint, intCode_eq .., by rw [if_neg (show ¬ 5 < src by omega)]⟩
  · rw [if_neg hsrc, if_neg hsrc]
    rw [sourceVal, if_neg hsrc] at hv
    rw [← hv, ratOf_intVal]
    exact ⟨intDecode src x, integerFor_intCast _, by rw [satInt_eq_clampTo _ (intLo_le_intHi dst), intCode_eq],
      (if_pos (not_le.mp hsrc)).symm⟩

/-- Infinities (R47, R48). -/
theorem convert_inf {src dst : Nat} (md : RMode) (sat : Bool) {x : Nat} (hdst : dst < 14) {n : Bool} (hv : sourceVal src x = .inf n) :
    let r := convert src dst md sat x
    let f := fmtOf dst
    (dst = 0 ∨ dst = 1 ∨ dst = 2 ∨ dst = 4 → r = (infCode f + signCode f n, 0)) ∧
    (dst = 3 → r = (if sat then maxCode f + signCode f n else 0x80, excNV)) ∧
    (dst = 5 → r = (maxCode f + signCode f n, excNV)) ∧
    (5 < dst → r.2 = excNV ∧ r.1 = if n then (if isSignedCode dst then 2 ^ (fmtWidth dst - 1) else 0)
      else if isSignedCode dst then 2 ^ (fmtWidth dst - 1) - 1 else 2 ^ fmtWidth dst - 1) := by
  have hsrc : src ≤ 5 := by
    by_contra h
    rw [sourceVal, if_neg h] at hv
    cases hv
  dsimp only
  refine ⟨?_, ?_, ?_, fun h5 => ?_⟩
  · rintro (rfl | rfl | rfl | rfl) <;> rw [convert_eq, hv] <;> rfl
  · rintro rfl; rw [convert_eq, hv]; rfl
  · rintro rfl; rw [convert_eq, hv]; rfl
  · rw [convert_to_integer src h5, if_pos hsrc, hv, ← intCode_ends dst hdst h5 n]
    exact ⟨rfl, rfl⟩

/-- NaNs (R47, R48). -/
theorem convert_nan {src dst : Nat} (md : RMode) (sat : Bool) {x : Nat} {s : Bool} (hv : sourceVal src x = .nan s) :
    let r := convert src dst md sat x
    let f := fmtOf dst
    (dst = 0 ∨ dst = 1 ∨ dst = 2 ∨ dst = 4 → r = (nanCode f, if s then excNV else 0)) ∧
    (dst = 3 → r = (0x80, if s then excNV else 0)) ∧ (dst = 5 → r = (0, excNV)) ∧ (5 < dst → r = (0, excNV)) := by
  have hsrc : src ≤ 5 := by
    by_contra h
    rw [sourceVal, if_neg h] at hv
    cases hv
  dsimp only
  refine ⟨?_, ?_, ?_, fun h5 => ?_⟩
  · rintro (rfl | rfl | rfl | rfl) <;> rw [convert_eq, hv] <;> rfl
  · rintro rfl; rw [convert_eq, hv]; rfl
  · rintro rfl; rw [convert_eq, hv]; rfl
  · rw [convert_to_integer src h5, if_pos hsrc, hv]
    rfl

end Sys2Proof.Proofs
end

section
/-! PROOFS. Packed arithmetic, packed ternary and the conversion instructions (O21) (R123, R126 to R132). -/

namespace Sys2Proof.Proofs
open Sys2Proof Sys2Proof.Machine Sys2Proof.Safety Sys2Proof.Laws

/-! ### Two elements of a word (R35, R123) -/

theorem half_eq (a : Word) (k : Nat) : half a k = (a.extractLsb' (16 * k) 16).toNat := by
  rw [half, BitVec.extractLsb'_toNat, Nat.shiftRight_eq_div_pow]

theorem pack2_eq {r0 : Nat × Exc} (r1 : Nat × Exc) (h : r0.1 < 2 ^ 16) :
    pack2 r0 r1 = ([BitVec.ofNat 16 r1.1 ++ BitVec.ofNat 16 r0.1], r0.2 ||| r1.2) := by
  have hword : BitVec.ofNat 32 (r0.1 + 65536 * r1.1) = BitVec.ofNat 16 r1.1 ++ BitVec.ofNat 16 r0.1 := by
    apply BitVec.eq_of_toNat_eq
    rw [BitVec.toNat_append, ← Nat.shiftLeft_add_eq_or_of_lt (BitVec.isLt _), Nat.shiftLeft_eq]
    simp only [BitVec.toNat_ofNat]
    omega
  rw [pack2, hword]

/-- A rounded result is a code of its format. -/
theorem packVal_lt {f : Fmt} (hf : IsIeee f) (md : RMode) (v : FVal) : (packVal f md v).1 < 2 ^ (f.ew + f.fw + 1) := by
  have hsign : ∀ n c, c < 2 ^ (f.ew + f.fw) → c + signCode f n < 2 ^ (f.ew + f.fw + 1) := fun n c hc => by
    rw [pow_succ]
    cases n <;> simp only [signCode, if_true, if_false, Bool.false_eq_true] <;> omega
  have hmax := lt_two_pow_of_le_maxCode hf le_rfl
  have hinf := lt_of_le_infCode hf le_rfl
  cases v with
  | nan s =>
    obtain ⟨T, hT, hcode, -⟩ := exists_topField hf
    have hhalf : 2 ^ (f.fw - 1) ≤ 2 ^ f.fw := Nat.pow_le_pow_right (by decide) (by omega)
    have hpow : 2 ^ (f.ew + f.fw + 1) = 2 * ((T + 2) * 2 ^ f.fw + 2 ^ f.fw) := by rw [pow_succ, pow_add, hT]; ring
    have hpos := Nat.two_pow_pos f.fw
    simp only [packVal, nanCode, hf.kind, hcode]
    omega
  | inf n => exact hsign n _ hinf
  | num n m e =>
    rw [packVal]
    split
    · simpa using hsign n 0 (Nat.two_pow_pos _)
    · rcases Nat.lt_or_ge (maxCode f) (roundMag f md n m e false).code with hc | hc
      · rw [roundIeee_of_lt hc]; dsimp only; split; exacts [hsign n _ hmax, hsign n _ hinf]
      · rw [roundIeee_of_le hc]; exact hsign n _ (hc.trans_lt hmax)

theorem pFmt_width (f : Fields) : IsIeee (pFmt f) ∧ (pFmt f).ew + (pFmt f).fw + 1 = 16 ∧ nanCode (pFmt f) < 2 ^ 16 := by
  rw [pFmt]
  split
  · exact ⟨isIeee_of_mem (by simp), rfl, by decide⟩
  · exact ⟨isIeee_of_mem (by simp), rfl, by decide⟩

theorem finish_pFmt_lt (f : Fields) (md : RMode) (v : FVal × Exc) : (finish (pFmt f) md v).1 < 2 ^ 16 := by
  obtain ⟨hieee, hwidth, -⟩ := pFmt_width f
  exact hwidth ▸ packVal_lt hieee md v.1

theorem fminmax_lt (f : Fields) (isMax useNan : Bool) {x y : Nat} (hx : x < 2 ^ 16) (hy : y < 2 ^ 16) :
    (fminmax (pFmt f) isMax useNan x y).1 < 2 ^ 16 := by
  obtain ⟨-, -, hnan⟩ := pFmt_width f
  rw [fminmax]
  repeat' split
  all_goals assumption

theorem half_lt (a : Word) (k : Nat) : half a k < 2 ^ 16 := Nat.mod_lt _ (by decide)

/-! ### Digits of a number -/

/-- A number written by its digits: it has no more of them, and each is read back. -/
theorem foldr_digits {α : Type} (b : Nat) (d : α → Nat) (hd : ∀ a, d a < b) (l : List α) :
    l.foldr (fun a acc => d a + b * acc) 0 < b ^ l.length ∧
    ∀ i (hi : i < l.length), l.foldr (fun a acc => d a + b * acc) 0 / b ^ i % b = d l[i] := by
  induction l with
  | nil => exact ⟨by simp, fun i hi => absurd hi (Nat.not_lt_zero i)⟩
  | cons a l ih =>
    obtain ⟨hlt, hdigit⟩ := ih
    have hb : 0 < b := (Nat.zero_le _).trans_lt (hd a)
    simp only [List.foldr_cons]
    generalize l.foldr (fun a acc => d a + b * acc) 0 = acc at *
    have ha := hd a
    refine ⟨?_, fun i hi => ?_⟩
    · rw [List.length_cons, pow_succ']
      calc d a + b * acc < b * (acc + 1) := by rw [Nat.mul_add]; omega
        _ ≤ b * b ^ l.length := Nat.mul_le_mul_left b hlt
    · cases i with
      | zero => rw [pow_zero, Nat.div_one, Nat.add_mul_mod_self_left, Nat.mod_eq_of_lt ha]; rfl
      | succ i =>
        rw [pow_succ', ← Nat.div_div_eq_div_mul, Nat.add_mul_div_left _ _ hb, Nat.div_eq_of_lt ha, Nat.zero_add]
        exact hdigit i (by simpa using hi)

theorem foldr_range_digits {b N : Nat} (d : Nat → Nat) (hd : ∀ i, d i < b) :
    (List.range N).foldr (fun i acc => d i + b * acc) 0 < b ^ N ∧
    ∀ i < N, (List.range N).foldr (fun i acc => d i + b * acc) 0 / b ^ i % b = d i := by
  obtain ⟨hlt, hdigit⟩ := foldr_digits b d hd (List.range N)
  rw [List.length_range] at hlt
  exact ⟨hlt, fun i hi => by rw [hdigit i (by simpa using hi), List.getElem_range]⟩

/-! ### Packed ternary (R130, R131) -/

theorem elemOf_byte (a : Word) (k : Nat) : elemOf a 8 k = (a.extractLsb' (8 * k) 8).toNat := by
  rw [elemOf, BitVec.extractLsb'_toNat, Nat.shiftRight_eq_div_pow]

theorem elemOf_byte_pow (a : Word) (k : Nat) : elemOf a 8 k = a.toNat / 256 ^ k % 256 := by
  rw [elemOf, pow_mul]
  rfl

/-- A byte as the format S8 reads it. -/
theorem intDecode_S8 (v : BitVec 8) : intDecode 10 v.toNat = v.toInt := by
  rw [BitVec.toInt_eq_msb_cond, BitVec.msb_eq_getLsbD_last]
  rfl

theorem s8Elem_eq (run : Nat → Word) (n : Nat) : s8Elem run n = ((run (n / 4)).extractLsb' (8 * (n % 4)) 8).toInt := by
  rw [s8Elem, elemOf_byte, intDecode_S8]

/-- The digit of an element against a threshold (R130). -/
def tritOf (run : Nat → Word) (t : Word) (n : Nat) : Nat := if t.toInt < s8Elem run n then 1 else if s8Elem run n < -t.toInt then 2 else 0

/-- Byte j of a packed word: five digits. -/
def tritByte (run : Nat → Word) (t : Word) (j : Nat) : Nat := (List.range 5).foldr (fun i acc => tritOf run t (5 * j + i) + 3 * acc) 0

theorem terpkWord_eq (run : Nat → Word) (t : Word) :
    terpkWord run t = BitVec.ofNat 32 ((List.range 4).foldr (fun j acc => tritByte run t j + 256 * acc) 0) := rfl

theorem tritOf_lt (run : Nat → Word) (t : Word) (n : Nat) : tritOf run t n < 3 := by
  rw [tritOf]; split_ifs <;> decide

/-- Digit n of what TERPK writes. -/
theorem terpkWord_digit (run : Nat → Word) (t : Word) {n : Nat} (hn : n < 20) :
    (terpkWord run t).toNat / 256 ^ (n / 5) % 256 / 3 ^ (n % 5) % 3 = tritOf run t n := by
  have hbyte := fun j => foldr_range_digits (N := 5) (fun i => tritOf run t (5 * j + i)) fun i => tritOf_lt run t _
  obtain ⟨hlt, hdigit⟩ := foldr_range_digits (b := 256) (N := 4) (tritByte run t) fun j => (hbyte j).1.trans (by decide)
  rw [terpkWord_eq, BitVec.toNat_ofNat, Nat.mod_eq_of_lt (hlt.trans_le (by decide)), hdigit _ (by omega)]
  exact ((hbyte (n / 5)).2 _ (Nat.mod_lt n (by decide))).trans (by rw [Nat.div_add_mod])

/-- Element n of what TERUNPK unpacks, as a byte: the digit's value, or 0 of an invalid byte. -/
def terElem (a : Word) (n : Nat) : Nat := intCode 8 (terVal (terDigit (elemOf a 8 (n / 5)) (n % 5)))

theorem terElem_spec (a : Word) (n : Nat) : terElem a n < 256 ∧ (BitVec.ofNat 8 (terElem a n)).toInt =
    terVal (terDigit (elemOf a 8 (n / 5)) (n % 5)) := by
  rw [terElem]
  generalize terDigit (elemOf a 8 (n / 5)) (n % 5) = d
  rw [terVal]
  split_ifs <;> decide

theorem terunpkRun_eq (a : Word) : terunpkRun a =
    ((List.range 5).map (fun k => BitVec.ofNat 32 ((List.range 4).foldr (fun i acc => terElem a (4 * k + i) + 256 * acc) 0)),
      if (List.range 4).any (fun j => decide (243 ≤ elemOf a 8 j)) then excNV else 0) := rfl

/-- Element n of the run that TERUNPK writes. -/
theorem terunpkRun_elem (a : Word) {n : Nat} (hn : n < 20) :
    (((terunpkRun a).1.getD (n / 4) 0).extractLsb' (8 * (n % 4)) 8).toInt = terVal (terDigit (elemOf a 8 (n / 5)) (n % 5)) := by
  obtain ⟨hlt, hdigit⟩ := foldr_range_digits (b := 256) (N := 4) (fun i => terElem a (4 * (n / 4) + i)) fun i => (terElem_spec a _).1
  have hword : (terunpkRun a).1.getD (n / 4) 0 =
      BitVec.ofNat 32 ((List.range 4).foldr (fun i acc => terElem a (4 * (n / 4) + i) + 256 * acc) 0) := by
    rw [terunpkRun_eq, List.getD_eq_getElem _ _ (by simp; omega), List.getElem_map, List.getElem_range]
  have hbyte : (((terunpkRun a).1.getD (n / 4) 0).extractLsb' (8 * (n % 4)) 8) = BitVec.ofNat 8 (terElem a n) := by
    apply BitVec.eq_of_toNat_eq
    rw [← elemOf_byte, elemOf_byte_pow, hword, BitVec.toNat_ofNat, Nat.mod_eq_of_lt (hlt.trans_le (by decide)),
      hdigit _ (Nat.mod_lt n (by decide)), Nat.div_add_mod, BitVec.toNat_ofNat, Nat.mod_eq_of_lt (terElem_spec a n).1]
  rw [hbyte, (terElem_spec a n).2]

theorem terunpkRun_exc (a : Word) : ((∃ j, j < 4 ∧ 243 ≤ a.toNat / 256 ^ j % 256) → (terunpkRun a).2 = excNV) ∧
    ((∀ j, j < 4 → a.toNat / 256 ^ j % 256 < 243) → (terunpkRun a).2 = 0) := by
  have hany : (List.range 4).any (fun j => decide (243 ≤ elemOf a 8 j)) = true ↔ ∃ j, j < 4 ∧ 243 ≤ a.toNat / 256 ^ j % 256 := by
    simp only [List.any_eq_true, List.mem_range, decide_eq_true_eq, elemOf_byte_pow]
  rw [terunpkRun_eq]
  refine ⟨fun h => if_pos (hany.mpr h), fun h => if_neg fun hc => ?_⟩
  obtain ⟨j, hj, hbad⟩ := hany.mp hc
  exact absurd (h j hj) (not_lt.mpr hbad)

/-! ### The instructions complete -/

theorem orExc_eq_zero {es : List Exc} (h : ∀ e ∈ es, e = 0) : orExc es = 0 := by
  induction es with
  | nil => rfl
  | cons e es ih =>
    rw [orExc, List.foldl_cons, h e List.mem_cons_self, show (0 ||| 0 : Exc) = 0 from rfl]
    exact ih fun d hd => h d (List.mem_cons_of_mem e hd)

theorem exc_of_mem_fpPends {s : State} {c : Nat} {f : Fields} {ms : Members} {lat : Option Nat} {n : Nat}
    {val : State → Nat → Nat → List Word × Exc} (h : ∀ t x l, (val t x l).2 = 0) : ∀ p ∈ fpPends s c f ms lat n val, p.2.exc = 0 := by
  intro p hp
  obtain ⟨m, -, rfl⟩ := List.mem_map.mp hp
  refine orExc_eq_zero fun e he => ?_
  obtain ⟨r, hr, rfl⟩ := List.mem_map.mp he
  obtain ⟨l, -, rfl⟩ := List.mem_map.mp hr
  exact h ..

/-- Results without exceptions hold no member (R28). -/
theorem postFp_of_no_exception (s : State) (c : Nat) (pc next : Dword) (ms : Members) {ps : List (Member × Pend)}
    (h : ∀ p ∈ ps, p.2.exc = 0) : (postFp s c pc next ms ps).2 = false := by
  have hnone : enabledOf s c ps = 0 := by
    refine orExc_eq_zero fun e he => ?_
    obtain ⟨p, hp, rfl⟩ := List.mem_map.mp he
    rw [h p hp]
    exact BitVec.zero_and
  rw [postFp, hnone]
  rfl

/-- TERPK raises nothing: its members go on. -/
theorem exec_terpk {f : Fields} {q : Issue} (h : Ready 0x104 f q) : exec (.terpk f) q.s =
    .next (q.onward f (postFp q.s1 q.core q.e.pc (nextPc q.e.pc f) (q.members f)
       (fpPends q.s1 q.core f (q.members f) (some 6) 1 (fun t x l =>
         ([terpkWord (fun k => runA t q.core x f k (srcLane f (widthOf t q.core x) false l)) (opC t q.core x f l)], 0)))).1) := by
  have hc : q.s1.cur.1 = q.core := by rw [cur_of_ready h]; rfl
  refine (issue_of_ready (performTerpk f) h).trans ?_
  rw [performTerpk, perLaneFp, hc, postFp_of_no_exception _ _ _ _ _ (exc_of_mem_fpPends fun _ _ _ => rfl)]
  rfl

theorem extendTo_eq (dst r : Nat) : extendTo dst r =
    if dst ≤ 5 ∨ isSignedCode dst = false then BitVec.ofNat 32 r else BitVec.ofInt 32 (intDecode dst r) := by
  simp only [extendTo, isFloatCode, Bool.or_eq_true, decide_eq_true_eq, Bool.not_eq_true']

/-- Two rounded elements of a word. -/
theorem pack2_finish (f : Fields) (md : RMode) (v0 v1 : FVal × Exc) : pack2 (finish (pFmt f) md v0) (finish (pFmt f) md v1) =
    ([BitVec.ofNat 16 (finish (pFmt f) md v1).1 ++ BitVec.ofNat 16 (finish (pFmt f) md v0).1],
      (finish (pFmt f) md v0).2 ||| (finish (pFmt f) md v1).2) :=
  pack2_eq _ (finish_pFmt_lt f md v0)

theorem pack2_pminmax (f : Fields) (mx : Bool) (a b : Word) : pack2 (pminmaxElem f mx a b 0) (pminmaxElem f mx a b 1) =
    ([BitVec.ofNat 16 (pminmaxElem f mx a b 1).1 ++ BitVec.ofNat 16 (pminmaxElem f mx a b 0).1],
      (pminmaxElem f mx a b 0).2 ||| (pminmaxElem f mx a b 1).2) :=
  pack2_eq _ (fminmax_lt f mx _ (half_lt a 0) (half_lt b 0))

theorem exec_packed {f : Fields} {q : Issue} :
    (Ready 0x0A0 f q → exec (.padd2 f) q.s = .next (q.computesFp f (some 6) 1 (fun o =>
      pack2 (paddElem f o.a o.b 0) (paddElem f o.a o.b 1)))) ∧
    (Ready 0x0A1 f q → exec (.pmul2 f) q.s = .next (q.computesFp f (some 6) 1 (fun o =>
      pack2 (pmulElem f o.a o.b 0) (pmulElem f o.a o.b 1)))) ∧
    (Ready 0x0A2 f q → exec (.pfma2 f) q.s = .next (q.computesFp f (some 6) 1 (fun o =>
      pack2 (pfmaElem f o.a o.b o.c 0) (pfmaElem f o.a o.b o.c 1)))) ∧
    (Ready 0x0A3 f q → exec (.pmin2 f) q.s = .next (q.computesFp f (some 6) 1 (fun o =>
      pack2 (pminmaxElem f false o.a o.b 0) (pminmaxElem f false o.a o.b 1)))) ∧
    (Ready 0x0A4 f q → exec (.pmax2 f) q.s = .next (q.computesFp f (some 6) 1 (fun o =>
      pack2 (pminmaxElem f true o.a o.b 0) (pminmaxElem f true o.a o.b 1)))) ∧
    (Ready 0x0A5 f q → exec (.pdot2 f) q.s = .next (q.computesFp f (some 6) 1 (fun o => one32 (pdotWord f o.a o.b o.c)))) :=
  ⟨fun h => exec_of_perLaneFp h rfl, fun h => exec_of_perLaneFp h rfl, fun h => exec_of_perLaneFp h rfl,
    fun h => exec_of_perLaneFp h rfl, fun h => exec_of_perLaneFp h rfl, fun h => exec_of_perLaneFp h rfl⟩

theorem exec_conversions {f : Fields} {q : Issue} :
    (Ready 0x100 f q → exec (.cvt f) q.s = .next (q.computesFp f (some 6) 1 (fun o => cvtWord f o.a))) ∧
    (Ready 0x101 f q → exec (.cvtpk f) q.s = .next (q.computesFp f (some 6) 1 (fun o => cvtpkWord f o.a o.b))) ∧
    (Ready 0x102 f q → exec (.cvtn f) q.s = .next (q.computesFp f (some 6) 1 (fun o => cvtnWord f o.aa o.bb o.c))) ∧
    (Ready 0x103 f q → exec (.cvtw f) q.s = .next (q.computesFp f (some 6) 2 (fun o => cvtwPair f o.a))) ∧
    (Ready 0x105 f q → exec (.terunpk f) q.s = .next (q.computesFp f (some 6) 5 (fun o => terunpkRun o.a))) ∧
    (Ready 0x106 f q → exec (.scacc f) q.s = .next (q.computesFp f (some 6) 1 (fun o => one32 (scaccWord f o.a o.b o.c)))) :=
  ⟨fun h => exec_of_perLaneFp h rfl, fun h => exec_of_perLaneFp h rfl, fun h => exec_of_perLaneFp h rfl,
    fun h => exec_of_perLaneFp h rfl, fun h => exec_of_perLaneFp h rfl, fun h => exec_of_perLaneFp h rfl⟩

/-- Settles O21, in three parts: the packed instructions; the conversion instructions and what packed ternary holds; conversions
between formats, by where the value goes. -/
theorem packedAndConversions : Obligations.packed_and_conversions := by
  unfold Obligations.packed_and_conversions
  refine ⟨fun f q => ?_, fun f q => ?_, fun src dst md sat x hsrc hdst hne => ?_⟩
  · obtain ⟨hadd, hmul, hfma, hmin, hmax, hdot⟩ := exec_packed (f := f) (q := q)
    refine ⟨fun h => ?_, fun h => ?_, fun h => ?_, fun h => ?_, fun h => ?_, fun h => ?_⟩
    · rw [hadd h]; simp only [paddElem, pack2_finish, pVal, half_eq]; rfl
    · rw [hmul h]; simp only [pmulElem, pack2_finish, pVal, half_eq]; rfl
    · rw [hfma h]; simp only [pfmaElem, pack2_finish, pVal, half_eq]; rfl
    · rw [hmin h]; simp only [pack2_pminmax]; simp only [pminmaxElem, half_eq]; rfl
    · rw [hmax h]; simp only [pack2_pminmax]; simp only [pminmaxElem, half_eq]; rfl
    · rw [hdot h]; simp only [pdotWord, one32, pVal, half_eq]; rfl
  · obtain ⟨hcvt, hcvtpk, hcvtn, hcvtw, hterunpk, hscacc⟩ := exec_conversions (f := f) (q := q)
    refine ⟨terpkWord, terunpkRun, fun h => ?_, fun h => hcvtpk h, fun h => ?_, fun h => hcvtw h, exec_terpk,
      hterunpk, fun h => hscacc h, fun run t n hn => ?_, fun a n hn => ?_, terunpkRun_exc⟩
    · rw [hcvt h]
      simp only [cvtWord, extendTo_eq]
      rfl
    · rw [hcvtn h]
      have hzero : ∀ e : Exc, 0 ||| e = e := fun e => BitVec.zero_or
      simp only [cvtnWord, List.foldr_cons, List.foldr_nil, List.map_cons, List.map_nil, orExc, List.foldl_cons, List.foldl_nil,
        hzero, Nat.mul_zero, Nat.add_zero]
      rfl
    · rw [← s8Elem_eq]; exact terpkWord_digit run t hn
    · rw [← elemOf_byte_pow]; exact terunpkRun_elem a hn
  · have hv : sourceVal src x = if src ≤ 5 then fdecode (fmtOf src) x else intVal (intDecode src x) := rfl
    dsimp only
    rw [← hv]
    refine ⟨fun n m e hnum => ⟨?_, ?_, ?_, fun h5 => ?_⟩, fun n => convert_inf md sat hdst, fun s => convert_nan md sat⟩
    · rintro rfl h5
      rw [hv, if_pos h5] at hnum
      obtain ⟨hm, he, hlt⟩ := narrow_num_bounds hne h5 hnum
      rw [convert_to_F32, hv, if_pos h5, hnum]
      exact packVal_exact md hm he hlt
    · rintro rfl h5
      rw [convert_to_F32, hnum]
      exact packVal_integer md (k := intDecode src x) (by rw [← hnum, hv, if_neg (by omega)])
    · intro h1 h5 hmd
      rw [convert_to_narrow src h1 h5, hnum]
      exact toNarrow_fmtOf h1 h5 hmd sat n m e
    · rw [hnum]; exact convert_integer md sat x h5 hnum

end Sys2Proof.Proofs
end

section
/-! PROOFS. Cells of registers that are readable at once (R69, R135, R151), and when a lane executes (R15). -/

namespace Sys2Proof.Proofs
open Sys2Proof Sys2Proof.Machine Sys2Proof.Safety Sys2Proof.Laws

/-! ### A group whose cells are written -/

/-- What becomes of a group when cells of it are written at once: results that are due land first, and the write is to be handed
over (R68, R181). -/
def Writes (g h : Group) : Prop :=
  h = { g with regs := h.regs, bad := h.bad, pend := h.pend, fpflags := h.fpflags, latchA := h.latchA, latchB := h.latchB,
               dones := h.dones, dirty := h.dirty }

theorem Writes.refl (g : Group) : Writes g g := rfl

theorem Writes.trans {g h k : Group} (h1 : Writes g h) (h2 : Writes h k) : Writes g k := by
  unfold Writes at h2 ⊢
  rw [h1] at h2
  exact h2

theorem writes_of_lands {g h : Group} (hl : Lands g h) : Writes g h := by
  unfold Writes
  rw [hl]

/-- What such a group keeps. -/
theorem Writes.keeps {g h : Group} (hw : Writes g h) : h.live = g.live ∧ h.block = g.block ∧ h.allot = g.allot ∧
    h.frontier = g.frontier ∧ h.homes = g.homes ∧ h.stop = g.stop := by
  rw [hw]
  exact ⟨rfl, rfl, rfl, rfl, rfl, rfl⟩

theorem writes_setReg (g : Group) (r l : Nat) (v : Word) : Writes g (setReg g r l v) := rfl

theorem writes_clearLatch (g : Group) (rs : List Nat) : Writes g (clearLatch g rs) := rfl

/-! ### Slots that are listed -/

theorem mem_of_mem_merase {α : Type} {m : SMap α} {k : Nat} {q : Nat × α} (h : q ∈ merase m k) : q ∈ m := by
  induction m with
  | nil => exact h
  | cons p t ih =>
    rw [merase] at h
    split at h
    · exact List.mem_cons_of_mem _ (ih h)
    · exact (List.mem_cons.mp h).elim (fun e => e ▸ List.mem_cons_self) fun ht => List.mem_cons_of_mem _ (ih ht)

theorem mem_mput {α : Type} {m : SMap α} {k : Nat} {x : α} {q : Nat × α} : q ∈ mput m k x ↔ q = (k, x) ∨ q ∈ m := by
  induction m with
  | nil => simp [mput]
  | cons p t ih =>
    rw [mput]
    split
    · simp
    · simp only [List.mem_cons, ih]
      tauto

/-- What a table lists after one key is set, of any other key, it listed before. -/
theorem mem_of_mem_mset {α : Type} [DecidableEq α] {d : α} {m : SMap α} {k : Nat} {x : α} {q : Nat × α}
    (h : q ∈ mset d m k x) (hq : q.1 ≠ k) : q ∈ m := by
  unfold mset at h
  split at h
  · exact mem_of_mem_merase h
  · exact mem_of_mem_merase ((mem_mput.mp h).resolve_left fun e => hq (e ▸ rfl))

theorem mem_mget_of_ne {α : Type} {d : α} {m : SMap α} {k : Nat} (h : mget d m k ≠ d) : (k, mget d m k) ∈ m := by
  induction m with
  | nil => exact absurd rfl h
  | cons p t ih =>
    rw [mget] at h ⊢
    split
    case isTrue hk => rw [← hk]; exact List.mem_cons_self
    case isFalse hk =>
      rw [if_neg hk] at h
      exact List.mem_cons_of_mem _ (ih h)

theorem mem_slotsOf {k : Core} {y : Nat} : y ∈ slotsOf k ↔ y < handlerCtx ∧ ∃ g, (y, g) ∈ k.groups ∧ g.live = true := by
  simp only [slotsOf, List.mem_map, List.mem_filter, Bool.and_eq_true, decide_eq_true_eq]
  constructor
  · rintro ⟨⟨_, g⟩, ⟨hmem, hlive, hy⟩, rfl⟩
    exact ⟨hy, g, hmem, hlive⟩
  · rintro ⟨hy, g, hmem, hlive⟩
    exact ⟨(y, g), ⟨hmem, hlive, hy⟩, rfl⟩

/-- A group that is alive is listed. -/
theorem mem_slotsOf_of_live {k : Core} {y : Nat} (h : (k.group y).live = true) (hy : y < handlerCtx) : y ∈ slotsOf k := by
  refine mem_slotsOf.mpr ⟨hy, k.group y, mem_mget_of_ne fun hd => ?_, h⟩
  rw [Core.group, hd] at h
  cases h

/-- The slots that a core lists after a group is put at one of them. -/
theorem mem_slotsOf_withGroup {k : Core} {x y : Nat} {g : Group} (h : y ∈ slotsOf (k.withGroup x g)) :
    y ≠ x ∧ y ∈ slotsOf k ∨ y = x ∧ g.live = true ∧ x < handlerCtx := by
  obtain ⟨hy, h', hmem, hlive⟩ := mem_slotsOf.mp h
  by_cases hyx : y = x
  · subst hyx
    rw [Core.withGroup_groups, mset] at hmem
    split at hmem
    · exact absurd hmem (not_mem_merase _ _ _)
    · obtain heq | hmem := mem_mput.mp hmem
      · cases heq
        exact .inr ⟨rfl, hlive, hy⟩
      · exact absurd hmem (not_mem_merase _ _ _)
  · exact .inl ⟨hyx, mem_slotsOf.mpr ⟨hy, h', mem_of_mem_mset hmem hyx, hlive⟩⟩

/-- A group that stays as alive as it was brings no slot in. -/
theorem mem_slotsOf_of_withGroup {k : Core} {x y : Nat} {g : Group} (hg : g.live = true → (k.group x).live = true)
    (h : y ∈ slotsOf (k.withGroup x g)) : y ∈ slotsOf k := by
  obtain ⟨-, hy⟩ | ⟨rfl, hlive, hx⟩ := mem_slotsOf_withGroup h
  · exact hy
  · exact mem_slotsOf_of_live (hg hlive) hx

theorem mem_slotsOf_of_updGroup {s : State} {c x y : Nat} {h : Group → Group}
    (hg : (h (getGroup s c x)).live = true → (getGroup s c x).live = true) (hy : y ∈ slotsOf (getCore (updGroup s c x h) c)) :
    y ∈ slotsOf (getCore s c) := by
  rw [updGroup, setGroup, getCore_updCore_same] at hy
  exact mem_slotsOf_of_withGroup hg hy

/-! ### A state in which one group's cells are written -/

/-- What becomes of the state when cells of one group of core `c` are written. -/
structure StateWrites (c x : Nat) (s t : State) : Prop where
  only   : onlyCore c s t
  core   : getCore t c = { getCore s c with groups := (getCore t c).groups }
  group  : Writes (getGroup s c x) (getGroup t c x)
  others : ∀ y, y ≠ x → getGroup t c y = getGroup s c y
  slots  : ∀ y ∈ slotsOf (getCore t c), y ∈ slotsOf (getCore s c)

theorem StateWrites.refl (c x : Nat) (s : State) : StateWrites c x s s :=
  ⟨onlyCore_refl c s, rfl, Writes.refl _, fun _ _ => rfl, fun _ h => h⟩

theorem StateWrites.trans {c x : Nat} {s t u : State} (h1 : StateWrites c x s t) (h2 : StateWrites c x t u) :
    StateWrites c x s u where
  only := onlyCore_trans h1.only h2.only
  core := by
    have h := h2.core
    rw [h1.core] at h
    exact h
  group := h1.group.trans h2.group
  others y hy := (h2.others y hy).trans (h1.others y hy)
  slots y hy := h1.slots y (h2.slots y hy)

theorem stateWrites_updGroup (s : State) (c x : Nat) {h : Group → Group} (hw : Writes (getGroup s c x) (h (getGroup s c x))) :
    StateWrites c x s (updGroup s c x h) where
  only := onlyCore_updGroup s c x h
  core := by rw [updGroup, setGroup, getCore_updCore_same]; rfl
  group := by rw [getGroup_updGroup_same]; exact hw
  others y hy := by rw [getGroup_updGroup, if_neg (fun e => hy e.2)]
  slots y hy := mem_slotsOf_of_updGroup (fun hl => hw.keeps.1 ▸ hl) hy

theorem stateWrites_records (c x : Nat) (s : State) (ops : List MxOp) (wr : SMap (List Word)) :
    StateWrites c x s { s with mxOps := ops, wrote := wr } :=
  ⟨⟨rfl, fun _ _ => rfl⟩, rfl, Writes.refl _, fun _ _ => rfl, fun _ h => h⟩

theorem spoilRuns_eq (s : State) (c x : Nat) (rs : List Nat) : ∃ ops, spoilRuns s c x rs = { s with mxOps := ops } := by
  unfold spoilRuns
  dsimp only
  split
  · exact ⟨s.mxOps, rfl⟩
  · exact ⟨_, rfl⟩

theorem stateWrites_putCells (s : State) (c x : Nat) (cells : List (Nat × Nat × Word)) :
    StateWrites c x s (putCells s c x cells) := by
  obtain ⟨ops, hops⟩ := spoilRuns_eq s c x (cells.map (·.1))
  unfold putCells
  dsimp only
  rw [hops]
  refine (stateWrites_records c x s ops _).trans (stateWrites_updGroup _ c x ?_)
  have hdue := writes_of_lands (lands_landDue (now s c) (getGroup s c x))
  have hcells := List.foldlRecOn cells (motive := Writes (getGroup s c x))
    (fun g q => setReg g q.1 q.2.1 (keptValue s c x q.1 q.2.1 q.2.2))
    (hdue.trans (writes_clearLatch _ (cells.map (·.1)))) fun g hg q _ => hg.trans (writes_setReg ..)
  exact hcells.trans rfl

theorem writes_markDirty (g : Group) (rs : List Nat) : Writes g (markDirty g rs) := rfl

/-- Cells that are readable at once change one group's registers, and what a write to a register brings with it. -/
theorem stateWrites_writeCells (s : State) (c x : Nat) (cells : List (Nat × Nat × Word)) :
    StateWrites c x s (writeCells s c x cells) :=
  (stateWrites_putCells s c x cells).trans (stateWrites_updGroup _ c x (writes_markDirty _ _))

/-- A status in the executing lanes of D (R151). -/
theorem stateWrites_statusNow (s : State) (c x : Nat) (d : BitVec 10) (m : Mask) (v : Word) :
    StateWrites c x s (statusNow s c x d m v) := by
  unfold statusNow
  split
  · exact StateWrites.refl ..
  · exact stateWrites_writeCells ..

theorem cur_of_onlyCore {c : Nat} {s t : State} (h : onlyCore c s t) : t.cur = s.cur := by rw [h.1]

/-! ### Whether a lane executes -/

/-- No lane of any member executes. -/
theorem noExec_of_not_executes {q : Issue} {f : Fields} (h : ¬ q.executes f) : noExec (q.members f) = true := by
  simpa [Issue.executes] using h

end Sys2Proof.Proofs
end

section
/-! PROOFS. Entering an address, and branches, calls and returns (O22). -/

namespace Sys2Proof.Proofs
open Sys2Proof Sys2Proof.Machine Sys2Proof.Safety Sys2Proof.Laws

/-! ### The first entry of a frontier that a test picks (R134, R222) -/

theorem updFirst_append {α : Type} {p : α → Bool} (g : α → α) {pre post : List α} {x : α} (hpre : ∀ y ∈ pre, p y = false)
    (hx : p x = true) : updFirst p g (pre ++ x :: post) = pre ++ g x :: post := by
  induction pre with
  | nil => simp [updFirst, hx]
  | cons y ys ih =>
    obtain ⟨hy, hys⟩ := List.forall_mem_cons.mp hpre
    simp [updFirst, hy, ih hys]

theorem freeEntryAt_append {g : Group} {pre post : List Entry} {e : Entry} {pc : Dword} (hg : g.frontier = pre ++ e :: post)
    (hpc : e.pc = pc) (hpark : e.park = .none) (hpre : ∀ d ∈ pre, ¬ (d.pc = pc ∧ d.park = .none)) :
    freeEntryAt g pc = some e := by
  have hskip : pre.find? (fun e => e.pc == pc && !isParked e.park) = none := by simpa [isParked] using hpre
  rw [freeEntryAt, hg, List.find?_append, hskip]
  simp [hpc, hpark, isParked]

/-! ### `enter` (R134) -/

theorem enter_empty (g : Group) (pc : Dword) (p nb : Nat) : enter g pc 0 p nb = g := if_pos rfl

/-- Where no free entry stands, there is a new one. -/
theorem enter_of_none {g : Group} {pc : Dword} {m : Mask} (p nb : Nat) (hm : m ≠ 0) (hfree : freeEntryAt g pc = none) :
    enter g pc m p nb = { g with frontier := g.frontier ++ [{ pc := pc, mask := m, prio := p, notBefore := nb }] } := by
  rw [enter, if_neg hm, hfree]

/-- An entry as a merge leaves it (R222). -/
def merged (e : Entry) (m : Mask) (p nb : Nat) : Entry :=
  { e with mask := e.mask ||| m, prio := max e.prio p, settle := true, notBefore := max e.notBefore nb, wait := .none }

/-- The first free entry at the address takes the lanes. -/
theorem enter_of_append {g : Group} {pre post : List Entry} {e : Entry} {pc : Dword} {m : Mask} (p nb : Nat) (hm : m ≠ 0)
    (hg : g.frontier = pre ++ e :: post) (hpc : e.pc = pc) (hpark : e.park = .none)
    (hpre : ∀ d ∈ pre, ¬ (d.pc = pc ∧ d.park = .none)) :
    enter g pc m p nb = { g with frontier := pre ++ merged e m p nb :: post } := by
  have hskip : ∀ d ∈ pre, (d.pc == pc && !isParked d.park) = false := by simpa [isParked] using hpre
  have hhere : (e.pc == pc && !isParked e.park) = true := by simp [hpc, hpark, isParked]
  rw [enter, if_neg hm, freeEntryAt_append hg hpc hpark hpre]
  simp only [updEntry, hg, updFirst_append _ hskip hhere]
  rfl

/-- A transfer of a group's only entry to one target. -/
theorem frontier_transfer_alone {g : Group} {e : Entry} {dest next : Dword} {m r : Mask} (pt pf nb : Nat) (hg : g.frontier = [e])
    (hpark : e.park = .none) (hne : dest ≠ next) (hm : m ≠ 0) :
    (transfer g false e.pc [(dest, m)] pt (next, r) pf nb).frontier =
      { pc := dest, mask := m, prio := pt, notBefore := nb } ::
        (if r = 0 then [] else [{ pc := next, mask := r, prio := pf, notBefore := nb }]) := by
  have hissue : issuingEntry g false e.pc = some e := by simp [issuingEntry, hg, isIssuing, hpark, isParked]
  have hdrop : dropIssuing g false e.pc = { g with frontier := [] } := by simp [dropIssuing, hissue, hg]
  have hfirst := enter_of_none (g := { g with frontier := [] }) pt nb hm (pc := dest) rfl
  rw [transfer, hdrop, List.foldl_cons, List.foldl_nil, hfirst]
  dsimp only [choose]
  by_cases hr : r = 0
  · rw [hr, enter_empty, if_pos rfl]
    rfl
  · rw [enter_of_none pf nb hr (by simp [freeEntryAt, hne]), if_neg hr]
    rfl

/-! ### The instructions (R135 to R138) -/

/-- A fold over members in which each step acts in the core that `cur` names, which no step changes. -/
theorem foldl_at_cur {step : Nat → State → Member → State} (hcur : ∀ c s m, (step c s m).cur = s.cur) (ms : Members) :
    ∀ s : State, ms.foldl (fun s m => step s.cur.1 s m) s = ms.foldl (step s.cur.1) s ∧ (ms.foldl (step s.cur.1) s).cur = s.cur := by
  induction ms with
  | nil => exact fun _ => ⟨rfl, rfl⟩
  | cons m ms ih =>
    intro s
    have h := ih (step s.cur.1 s m)
    rw [hcur] at h
    exact h

/-- The link pairs of the executing lanes, and the context that `cur` names after they are written. -/
theorem writeLinks_eq (f : Fields) (pc : Dword) (ms : Members) (s : State) :
    writeLinks f pc ms s = (if f.d = 1023 then s else ms.foldl (fun t m => writeCells t s.cur.1 m.slot
      ((lanesOf m.exec).flatMap (fun l => [(f.d.toNat, l, lo32 (nextPc pc f)), (f.d.toNat + 1, l, hi32 (nextPc pc f))]))) s) ∧
    (writeLinks f pc ms s).cur = s.cur := by
  have hfold := foldl_at_cur (step := fun c s m => writeCells s c m.slot ((lanesOf m.exec).flatMap
    (fun l => [(f.d.toNat, l, lo32 (nextPc pc f)), (f.d.toNat + 1, l, hi32 (nextPc pc f))])))
    (fun c s m => cur_of_onlyCore (stateWrites_writeCells s c m.slot _).only) ms s
  unfold writeLinks
  simp only [toNat_eq_vnull]
  split
  · exact ⟨rfl, rfl⟩
  · exact ⟨hfold.1, by rw [hfold.1]; exact hfold.2⟩

/-- The lanes that BRA sends to its target, by its modifier (R136). -/
def braTaken (f : Fields) (m : Member) : Mask :=
  if f.mod = 1 then (if m.exec = 0 then 0 else m.active)
  else if f.mod = 2 then (if m.exec = m.active then m.active else 0) else m.exec

theorem performBra_eq (f : Fields) (pc : Dword) (ms : Members) (s : State) : performBra f pc ms s =
    .moved (transferAll f pc ms s (fun m => [(immTarget pc f, braTaken f m)]) (fun m => m.active &&& ~~~(braTaken f m))
      (f.a.toNat % 256) (f.b.toNat % 256)) := by
  have htaken : ∀ m : Member, (if f.mod = 1 then (if m.exec != 0 then m.active else 0)
      else if f.mod = 2 then (if m.exec == m.active then m.active else 0) else m.exec) = braTaken f m := fun m => by
    by_cases h0 : m.exec = 0 <;> simp [braTaken, h0]
  unfold performBra
  simp only [htaken]

/-- The running entry of a group is the one that issues at lane scope. -/
theorem issuingEntry_of_running {g : Group} {e : Entry} (h : runningEntry g = some e) : issuingEntry g false e.pc = some e := by
  have hfree : ∀ pc, freeEntryAt g pc = issuingEntry g false pc := fun pc => by
    have htest : isIssuing false pc = fun e => e.pc == pc && !isParked e.park := funext fun _ => by simp [isIssuing]
    rw [freeEntryAt, issuingEntry, htest]
  unfold runningEntry at h
  split at h
  · cases h
  · have hpc := List.find?_some h
    simp only [Bool.and_eq_true, beq_iff_eq] at hpc
    rw [hpc.1, ← hfree]
    exact h

/-- An instruction of lane scope that is ready acts in its own state, for its own slot alone. -/
theorem alone_of_ready {op : Nat} {f : Fields} {q : Issue} (h : Ready op f q) (hl : f.scope = .lane) : q.alone := by
  have hs := h.gathers
  rwa [if_pos hl] at hs

theorem wideOf_lane {f : Fields} (hl : f.scope = .lane) : wideOf f = false := by simp [wideOf, hl]

/-- At lane scope the entry that issues is the running one. -/
theorem issuingEntry_of_ready {op : Nat} {f : Fields} {q : Issue} (h : Ready op f q) (hl : f.scope = .lane) :
    issuingEntry (getGroup q.s1 q.core q.ctx) false q.e.pc = some q.e := by
  rw [(alone_of_ready h hl).1]
  exact issuingEntry_of_running h.running

/-- The issuing entry of an instruction of lane scope as a member. -/
def ownMember (q : Issue) (f : Fields) : Member := ⟨q.ctx, q.e.mask, execMask q.s q.core q.ctx f q.e.mask⟩

/-- At lane scope the one member is the issuing entry's. -/
theorem members_of_ready {op : Nat} {f : Fields} {q : Issue} (h : Ready op f q) (hl : f.scope = .lane) :
    q.members f = [ownMember q f] := by
  have hissue := issuingEntry_of_ready h hl
  obtain ⟨hs, hxs⟩ := alone_of_ready h hl
  rw [hs] at hissue
  simp only [Issue.members, hxs, List.map_cons, List.map_nil, memberOf, wideOf_lane hl, hs, hissue, ownMember]

/-- The targets in the A pairs of a member's executing lanes. -/
theorem regTargets_of_ready {op : Nat} {f : Fields} {q : Issue} (h : Ready op f q) : regTargets q.s1 f =
    fun m => splitTargets ((lanesOf m.exec).map (fun l => (l, (operandsOf q.s1 q.core f m.slot l).aa))) := by
  unfold regTargets
  rw [core_of_ready h]
  rfl

/-- Settles O22: each instruction is one `transferAll`, in the state in which its links stand where it has any; `enter` looks at
the first entry that is free at the address. -/
theorem branches : Obligations.branches := by
  unfold Obligations.branches
  refine ⟨fun f q => ⟨fun h => ?_, fun h => ?_, fun h => ?_, fun h => ?_, fun hl h => ?_⟩, enter_empty,
    fun g pc m p nb hm => ⟨fun hfree => ?_, fun e pre post hg hpc hpark hpre => ?_⟩,
    fun g e dest next m r pt pf nb hg hpark hne hm => frontier_transfer_alone pt pf nb hg hpark hne hm⟩
  · change issue 0x180 f (performBra f) q.s = _
    rw [issue_of_ready _ h, performBra_eq, transferAll, core_of_ready h]
    rfl
  · change issue 0x182 f (performBrx f) q.s = _
    rw [issue_of_ready _ h, performBrx, regTargets_of_ready h, transferAll, core_of_ready h]
    rfl
  · change issue 0x183 f (performCall f) q.s = _
    obtain ⟨hlinks, hcur⟩ := writeLinks_eq f q.e.pc (q.members f) q.s1
    rw [issue_of_ready _ h, performCall, transferAll, hcur, hlinks, core_of_ready h]
    rfl
  · change issue 0x184 f (performCallx f) q.s = _
    obtain ⟨hlinks, hcur⟩ := writeLinks_eq f q.e.pc (q.members f) q.s1
    rw [issue_of_ready _ h, performCallx, regTargets_of_ready h, transferAll, hcur, hlinks, core_of_ready h]
    rfl
  · change issue 0x185 f (performRet f) q.s = _
    have hprio : ((q.members f).head?.map (issuingPrio q.s1 q.core f q.e.pc)).getD 0 = q.e.prio := by
      rw [members_of_ready h hl]
      simp [ownMember, issuingPrio, hl, issuingEntry_of_ready h hl]
    simp only [issue_of_ready _ h, performRet, core_of_ready h, hprio, transferAll]
    rfl
  · rw [enter_of_none p nb hm hfree]
  · rw [enter_of_append p nb hm hg hpc hpark hpre]
    rfl

end Sys2Proof.Proofs
end

section
/-! PROOFS. EXIT, YIELD and BKPT (O23). -/

namespace Sys2Proof.Proofs
open Sys2Proof Sys2Proof.Machine Sys2Proof.Safety Sys2Proof.Laws

/-- An instruction with an effect only where a lane executes: elsewhere it goes on (R15). -/
theorem exec_of_not_executes {op : Nat} {f : Fields} {q : Issue} {i : Instr} {body : Dword → Members → State → Res}
    (hi : exec i q.s = issue op f body q.s) (hbody : ∀ pc ms s, noExec ms = true → body pc ms s = .ok s)
    (hx : ¬ q.executes f) (h : Ready op f q) : exec i q.s = .next (q.onward f q.s1) := by
  rw [hi, issue_of_ready _ h, hbody _ _ _ (noExec_of_not_executes hx)]
  rfl

/-! ### The entry of threads that end (R139) -/

/-- The entry that issues stands first among those that issue, so that erasing it takes it out there. -/
theorem frontier_of_issuing {g : Group} {wide : Bool} {pc : Dword} {e : Entry} (h : issuingEntry g wide pc = some e) :
    isIssuing wide pc e = true ∧ ∃ pre post, g.frontier = pre ++ e :: post ∧ (∀ d ∈ pre, isIssuing wide pc d = false) ∧
      g.frontier.erase e = pre ++ post := by
  obtain ⟨hissue, pre, post, hg, hpre⟩ := List.find?_eq_some_iff_append.mp h
  have hskip : ∀ d ∈ pre, isIssuing wide pc d = false := by simpa using hpre
  refine ⟨hissue, pre, post, hg, hskip, ?_⟩
  have hnot : e ∉ pre := fun hmem => by simp [hskip e hmem] at hissue
  rw [hg, List.erase_append_right _ hnot, List.erase_cons_head]

/-- The group with its issuing entry left to the lanes of `m`. -/
def narrowed (g : Group) (pc : Dword) (m : Mask) : Group :=
  { g with frontier := updFirst (isIssuing false pc) (fun e => { e with mask := m }) g.frontier }

/-- What EXIT makes of the group (R139): the entry goes, or goes on with the lanes that do not execute. -/
def exited (g : Group) (pc next : Dword) (idle : Mask) (nb : Nat) : Group :=
  if idle = 0 then choose (dropIssuing g false pc) else advance (narrowed g pc idle) false pc next nb

theorem shifts_exited (g : Group) (pc next : Dword) (idle : Mask) (nb : Nat) : Shifts g (exited g pc next idle nb) := by
  unfold exited
  split
  · exact (shifts_dropIssuing ..).trans (shifts_choose _)
  · exact (show Shifts g (narrowed g pc idle) from rfl).trans (shifts_advance ..)

section
variable {g : Group} {pc : Dword} {e : Entry} (h : issuingEntry g false pc = some e)
include h

theorem issuingEntry_narrowed (m : Mask) : issuingEntry (narrowed g pc m) false pc = some { e with mask := m } ∧
    dropIssuing (narrowed g pc m) false pc = { g with frontier := g.frontier.erase e } := by
  obtain ⟨hissue, pre, post, hg, hpre, herase⟩ := frontier_of_issuing h
  have hthis : isIssuing false pc { e with mask := m } = true := hissue
  have hfront : (narrowed g pc m).frontier = pre ++ { e with mask := m } :: post := by
    simp only [narrowed, hg, updFirst_append _ hpre hissue]
  have hfind : issuingEntry (narrowed g pc m) false pc = some { e with mask := m } := by
    rw [issuingEntry, hfront, List.find?_append, List.find?_eq_none.mpr (by simpa using hpre)]
    simp [hthis]
  have hnot : { e with mask := m } ∉ pre := fun hmem => by simp [hpre _ hmem] at hthis
  refine ⟨hfind, ?_⟩
  rw [dropIssuing, hfind, herase]
  simp only [hfront, List.erase_append_right _ hnot, List.erase_cons_head]
  rfl

theorem exited_of_all (next : Dword) (nb : Nat) :
    exited g pc next 0 nb = { g with frontier := g.frontier.erase e, running := none } := by
  simp only [exited, if_true, dropIssuing, h, choose]

theorem exited_of_none {next : Dword} {m : Mask} (nb : Nat) (hm : m ≠ 0)
    (hfree : freeEntryAt { g with frontier := g.frontier.erase e } next = none) :
    exited g pc next m nb = { g with frontier := g.frontier.erase e ++ [⟨next, m, e.prio, .none, .none, nb, false⟩]
                                     running := some next } := by
  obtain ⟨hfind, hdrop⟩ := issuingEntry_narrowed h m
  rw [exited, if_neg hm, advance, hfind]
  dsimp only
  rw [hdrop, hfree]

theorem frontier_exited_of_append {next : Dword} {m : Mask} {pre post : List Entry} {d : Entry} (nb : Nat) (hm : m ≠ 0)
    (hrest : g.frontier.erase e = pre ++ d :: post) (hpc : d.pc = next) (hpark : d.park = .none)
    (hpre : ∀ b ∈ pre, ¬ (b.pc = next ∧ b.park = .none)) :
    (exited g pc next m nb).frontier = pre ++ merged d m e.prio nb :: post := by
  obtain ⟨hfind, hdrop⟩ := issuingEntry_narrowed h m
  have hrest' : (dropIssuing (narrowed g pc m) false pc).frontier = pre ++ d :: post := by rw [hdrop, ← hrest]
  rw [exited, if_neg hm, advance, hfind]
  dsimp only
  rw [freeEntryAt_append hrest' hpc hpark hpre]
  dsimp only [choose]
  rw [enter_of_append e.prio nb hm hrest' hpc hpark hpre]

/-- Where lanes go on an entry is left. -/
theorem exited_frontier_ne_nil (next : Dword) {m : Mask} (nb : Nat) (hm : m ≠ 0) : (exited g pc next m nb).frontier ≠ [] := by
  cases hfree : freeEntryAt { g with frontier := g.frontier.erase e } next with
  | none => rw [exited_of_none h nb hm hfree]; simp
  | some d =>
    obtain ⟨hd, pre, post, hrest, hpre⟩ := List.find?_eq_some_iff_append.mp hfree
    have hd' : d.pc = next ∧ d.park = .none := by simpa [isParked] using hd
    rw [frontier_exited_of_append h nb hm hrest hd'.1 hd'.2 (by simpa [isParked, imp_iff_not_or] using hpre)]
    simp

end

/-! ### The core after EXIT -/

/-- What becomes of a core when threads of it end: homes change and where lanes stand, and nothing else. -/
structure KeepsThreads (k k' : Core) : Prop where
  rest  : k' = { k with groups := k'.groups }
  group : ∀ y, ∃ homes home, k'.group y = { k.group y with homes := homes, home := home }

theorem KeepsThreads.trans {k k1 k2 : Core} (h1 : KeepsThreads k k1) (h2 : KeepsThreads k1 k2) : KeepsThreads k k2 where
  rest := by
    have h := h2.rest
    rw [h1.rest] at h
    exact h
  group y := by
    obtain ⟨hs1, hm1, h1⟩ := h1.group y
    obtain ⟨hs2, hm2, h2⟩ := h2.group y
    exact ⟨hs2, hm2, by rw [h2, h1]⟩

theorem keepsThreads_withGroup (k : Core) (x : Nat) (homes : Mask) (home : SMap Nat) :
    KeepsThreads k (k.withGroup x { k.group x with homes := homes, home := home }) where
  rest := rfl
  group y := by
    rw [group_withGroup]
    split
    case isTrue hy => subst hy; exact ⟨_, _, rfl⟩
    case isFalse => exact ⟨_, _, rfl⟩

theorem keepsThreads_endHomes (k : Core) (x : Nat) (ls : List Nat) : KeepsThreads k (endHomes k x ls) :=
  List.foldlRecOn ls _ (motive := KeepsThreads k) ⟨rfl, fun _ => ⟨_, _, rfl⟩⟩ fun k1 h _ _ =>
    (h.trans (keepsThreads_withGroup k1 _ _ (k1.group _).home)).trans (keepsThreads_withGroup _ x (Core.group _ x).homes _)

/-- The core with its group as EXIT leaves it, before a handler whose threads have all ended is seen. -/
def exitCore (s : State) (c : Nat) (f : Fields) (pc : Dword) (m : Member) : Core :=
  let k := endHomes (getCore s c) m.slot (lanesOf m.exec)
  k.withGroup m.slot (exited (k.group m.slot) pc (nextPc pc f) m.idle (nextCycle s c m.slot f))

theorem exitMember_eq (f : Fields) (pc : Dword) (s : State) (m : Member) : exitMember f pc s m =
    updCore s s.cur.1 (fun _ => if m.slot = handlerCtx then handlerEnded (exitCore s s.cur.1 f pc m)
      else exitCore s s.cur.1 f pc m) := rfl

theorem group_handlerFault (k : Core) (y : Nat) :
    (handlerFault k).group y = if y = handlerCtx then endContext (k.group handlerCtx) else k.group y := by
  unfold handlerFault
  dsimp only
  split <;> exact group_withGroup ..

/-- The frame that the handler handled goes to the firmware slot (R279, R288). -/
theorem handlerFault_frame {k : Core} {fr : Frame} (h : k.curH = some fr) :
    (handlerFault k).curH = none ∧ fr ∈ (handlerFault k).framesF := by
  simp [handlerFault, h]

theorem frontier_handlerFault_ne {k : Core} {y : Nat} (hy : y ≠ handlerCtx) :
    ((handlerFault k).group y).frontier = (k.group y).frontier := by
  rw [group_handlerFault, if_neg hy]

/-- The core after EXIT: a handler whose threads have all ended has failed (R288). -/
theorem getCore_exitMember (f : Fields) (pc : Dword) (s : State) (m : Member) :
    getCore (exitMember f pc s m) s.cur.1 =
      if m.slot = handlerCtx ∧ ((exitCore s s.cur.1 f pc m).group m.slot).frontier = [] then handlerFault (exitCore s s.cur.1 f pc m)
      else exitCore s s.cur.1 f pc m := by
  rw [exitMember_eq, getCore_updCore_same]
  by_cases hslot : m.slot = handlerCtx
  · simp only [hslot, if_true, true_and, handlerEnded, List.isEmpty_iff]
  · simp only [hslot, if_false, false_and]

theorem exitCore_group (s : State) (c : Nat) (f : Fields) (pc : Dword) (m : Member) :
    (∃ g, g.frontier = (getGroup s c m.slot).frontier ∧ g.regs = (getGroup s c m.slot).regs ∧
      (exitCore s c f pc m).group m.slot = exited g pc (nextPc pc f) m.idle (nextCycle s c m.slot f)) ∧
    (∀ y, y ≠ m.slot → ((exitCore s c f pc m).group y).frontier = (getGroup s c y).frontier) ∧
    (exitCore s c f pc m).curH = (getCore s c).curH := by
  have hkeep := keepsThreads_endHomes (getCore s c) m.slot (lanesOf m.exec)
  refine ⟨⟨_, ?_, ?_, group_withGroup_same ..⟩, fun y hy => ?_, ?_⟩
  · obtain ⟨homes, home, h⟩ := hkeep.group m.slot
    rw [h]; rfl
  · obtain ⟨homes, home, h⟩ := hkeep.group m.slot
    rw [h]; rfl
  · obtain ⟨homes, home, h⟩ := hkeep.group y
    rw [exitCore, group_withGroup, if_neg hy, h]; rfl
  · change (endHomes _ _ _).curH = _
    rw [hkeep.rest]

/-- EXIT's own member at lane scope. -/
theorem exec_exit_of_executes {f : Fields} {q : Issue} (hx : q.executes f) (hl : f.scope = .lane) (h : Ready 0x186 f q) :
    exec (.exit f) q.s = .next (q.moved f (exitMember f q.e.pc q.s (ownMember q f))) := by
  have hsome : (q.members f).all (fun m => m.exec == 0) = false := hx
  change issue 0x186 f (performExit f) q.s = _
  rw [issue_of_ready _ h, performExit, hsome, members_of_ready h hl, (alone_of_ready h hl).1]
  rfl

/-- The registers of a group and the frontiers of the others stay, whatever EXIT comes to. -/
theorem exitMember_keeps (f : Fields) (pc : Dword) (s : State) (m : Member) :
    (getGroup (exitMember f pc s m) s.cur.1 m.slot).regs = (getGroup s s.cur.1 m.slot).regs ∧
    ∀ y, y ≠ m.slot → (getGroup (exitMember f pc s m) s.cur.1 y).frontier = (getGroup s s.cur.1 y).frontier := by
  obtain ⟨⟨g, -, hregs, hgroup⟩, hothers, -⟩ := exitCore_group s s.cur.1 f pc m
  have hexited : ((exitCore s s.cur.1 f pc m).group m.slot).regs = (getGroup s s.cur.1 m.slot).regs := by
    rw [hgroup, (shifts_exited ..).keeps.2.1, hregs]
  simp only [getGroup, getCore_exitMember]
  split
  case isTrue hfault =>
    refine ⟨?_, fun y hy => ?_⟩
    · rw [group_handlerFault, if_pos hfault.1, ← hfault.1]
      exact hexited
    · rw [frontier_handlerFault_ne (hfault.1 ▸ hy)]
      exact hothers y hy
  case isFalse => exact ⟨hexited, hothers⟩

/-- Where the group does not end in the handler slot, its group is the one that EXIT leaves. -/
theorem getGroup_exitMember {f : Fields} {pc : Dword} {s : State} {m : Member} {g : Group}
    (hgroup : (exitCore s s.cur.1 f pc m).group m.slot = g) (hgoes : m.slot = handlerCtx → g.frontier ≠ []) :
    getGroup (exitMember f pc s m) s.cur.1 m.slot = g := by
  rw [getGroup, getCore_exitMember, if_neg (fun hf => hgoes hf.1 (hgroup ▸ hf.2)), hgroup]

/-- Where the handler's last threads end it has failed (R288). -/
theorem exitMember_of_handler {f : Fields} {pc : Dword} {s : State} {m : Member} (hslot : m.slot = handlerCtx)
    (hnil : ((exitCore s s.cur.1 f pc m).group m.slot).frontier = []) :
    getGroup (exitMember f pc s m) s.cur.1 m.slot = endContext ((exitCore s s.cur.1 f pc m).group handlerCtx) ∧
    ∀ fr, (getCore s s.cur.1).curH = some fr → (getCore (exitMember f pc s m) s.cur.1).curH = none ∧
      fr ∈ (getCore (exitMember f pc s m) s.cur.1).framesF := by
  have hcore := getCore_exitMember f pc s m
  rw [if_pos ⟨hslot, hnil⟩] at hcore
  rw [getGroup, hcore, group_handlerFault, if_pos hslot]
  exact ⟨rfl, fun fr hfr => handlerFault_frame ((exitCore_group ..).2.2.trans hfr)⟩

/-- Settles O23: the entry that issues leaves the frontier, and where lanes go on it stands again, narrowed to them; the handler's
last threads ending is `handlerFault`. -/
theorem exitYieldBreakpoint : Obligations.exit_yield_breakpoint := by
  unfold Obligations.exit_yield_breakpoint
  intro f q next
  refine ⟨fun hx => ⟨exec_of_not_executes rfl (fun _ _ _ hno => if_pos hno) hx,
    exec_of_not_executes rfl (fun _ _ _ hno => if_pos hno) hx, exec_of_not_executes rfl (fun _ _ _ hno => if_pos hno) hx⟩,
    fun hx => ⟨fun h hl => ⟨_, exec_exit_of_executes hx hl h, ?_⟩, fun h => ?_, fun h => ?_⟩⟩
  · intro k m g rest h' nb
    obtain ⟨⟨g1, hfront, -, hgroup⟩, -, -⟩ := exitCore_group q.s q.s.cur.1 f q.e.pc (ownMember q f)
    have hissue : issuingEntry g1 false q.e.pc = some q.e := by
      rw [issuingEntry, hfront]
      exact issuingEntry_of_running h.running
    have hrest : g1.frontier.erase q.e = rest := by rw [hfront]; rfl
    rw [show (ownMember q f).idle = m from rfl] at hgroup
    refine ⟨fun hm hgoes => ?_, fun hm hhandler hnil => ?_, fun hm hfree => ?_,
      fun hm d pre post hd hpc hpark hpre => ?_, exitMember_keeps ..⟩
    · rw [hm, exited_of_all hissue, hrest] at hgroup
      rw [show h' = _ from getGroup_exitMember hgroup hgoes]
      exact ⟨rfl, rfl⟩
    · rw [hm, exited_of_all hissue, hrest, hnil] at hgroup
      obtain ⟨hend, hframe⟩ := exitMember_of_handler (f := f) (pc := q.e.pc) (s := q.s) (m := ownMember q f) hhandler
        (by rw [hgroup])
      rw [show h' = _ from hend]
      exact ⟨rfl, rfl, hframe⟩
    · rw [exited_of_none hissue _ hm (by rw [hrest]; exact hfree), hrest] at hgroup
      rw [show h' = _ from getGroup_exitMember hgroup (fun _ => by simp)]
      exact ⟨rfl, rfl⟩
    · rw [show h' = _ from getGroup_exitMember hgroup (fun _ => exited_frontier_ne_nil hissue _ _ hm)]
      exact frontier_exited_of_append hissue _ hm (hrest.trans hd) hpc hpark hpre
  · have hsome : (q.members f).all (fun m => m.exec == 0) = false := hx
    change issue 0x187 f (performYield f) q.s = _
    rw [issue_of_ready _ h, performYield, hsome, core_of_ready h]
    rfl
  · have hsome : (q.members f).all (fun m => m.exec == 0) = false := hx
    change issue 0x188 f (performBkpt f) q.s = _
    rw [issue_of_ready _ h, performBkpt, hsome]
    rfl

end Sys2Proof.Proofs
end

section
/-! PROOFS. REGROUP, RGHOME and their ends (O24). -/

namespace Sys2Proof.Proofs
open Sys2Proof Sys2Proof.Machine Sys2Proof.Safety Sys2Proof.Laws

/-! ### The gather and its check (R145, R150) -/

/-- REGROUP and RGHOME where every group of the role has the registers. -/
theorem settled_startRegroup_of_enough {q : Issue} {f : Fields} {home : Bool} {n : Nat} (hcur : q.s1.cur.1 = q.core)
    (henough : ∀ x ∈ (q.members f).map (·.slot), n ≤ ((getCore q.s1 q.core).group x).allotment) :
    settled q f (startRegroup home n f q.e.pc (q.members f) q.s1) = q.parked f false .hold (updCore q.s1 q.core (fun k =>
      { k with regroups := k.regroups ++ [⟨(k.group (((q.members f).map (·.slot)).headD 0)).block,
        (k.group (((q.members f).map (·.slot)).headD 0)).role, home, n, f, nextPc q.e.pc f, (q.members f).map (·.slot),
        now q.s1 q.core, none, false⟩] })) := by
  have hshort : regroupShort (getCore q.s1 q.core) n ((q.members f).map (·.slot)) = none := by
    simpa [regroupShort] using henough
  have hhead : ((q.members f).head?.map (·.slot)).getD 0 = ((q.members f).map (·.slot)).headD 0 := by
    rw [List.headD_eq_head?_getD, List.head?_map]
  unfold startRegroup
  dsimp only
  rw [hcur, hshort, hhead]
  rfl

/-- And where some group has too few: RB, raised at one that has. -/
theorem settled_startRegroup_of_short {q : Issue} {f : Fields} {home : Bool} {n : Nat} (hcur : q.s1.cur.1 = q.core)
    (hshort : ∃ x ∈ (q.members f).map (·.slot), ((getCore q.s1 q.core).group x).allotment < n) :
    ∃ y ∈ (q.members f).map (·.slot), ((getCore q.s1 q.core).group y).allotment < n ∧
      settled q f (startRegroup home n f q.e.pc (q.members f) q.s1) = q.trapped f false
        { cls := 2, info := BitVec.ofNat 32 ((getCore q.s1 q.core).group y).allotment, pc := q.e.pc,
          slots := (q.members f).map (·.slot), origin := y } q.s1 := by
  obtain ⟨y, hy⟩ : ∃ y, regroupShort (getCore q.s1 q.core) n ((q.members f).map (·.slot)) = some y := by
    rw [← Option.isSome_iff_exists]
    simpa [regroupShort] using hshort
  refine ⟨y, List.mem_of_find?_eq_some hy, by simpa using List.find?_some hy, ?_⟩
  unfold startRegroup
  dsimp only
  rw [hcur, hy]
  rfl

/-! ### Registers that move (R145, R147) -/

theorem regAt_foldl_setReg {l l' : Nat} (hl : l < 64) (hl' : l' < 64) (val : Nat → Word) (j : Nat) (rs : List Nat) : ∀ g : Group,
    regAt (rs.foldl (fun g r => setReg g r l (val r)) g) j l' = if l' = l ∧ j ∈ rs then val j else regAt g j l' := by
  induction rs with
  | nil => simp
  | cons r rs ih =>
    intro g
    rw [List.foldl_cons, ih]
    simp only [regAt_setReg, cellKey_inj hl' hl, List.mem_cons]
    by_cases hr : j = r
    · subst hr; by_cases hll : l' = l <;> simp [hll]
    · simp [hr]

/-- Whether a thread of a plan is placed where it stands. -/
def stays (p : Thread × Nat × Nat) : Prop := p.1.slot = p.2.1 ∧ p.1.lane = p.2.2

theorem moveRegs_of_stays {p : Thread × Nat × Nat} (h : stays p) (s : State) (old : Core) (n : Nat) (g : Group) :
    moveRegs s old n g p = g := if_pos h

/-- A thread that moves brings its registers below n. -/
theorem regAt_moveRegs_same {p : Thread × Nat × Nat} (h : ¬ stays p) (s : State) (old : Core) {n j : Nat} {g : Group}
    (hl : p.2.2 < 64) (hj : j < n) (hg : j < g.allotment) :
    regAt (moveRegs s old n g p) j p.2.2 = regAt (old.group p.1.slot) j p.1.lane := by
  unfold stays at h
  rw [moveRegs, if_neg h, regAt_foldl_setReg hl hl, if_pos ⟨rfl, List.mem_range.mpr hg⟩, if_pos hj]

theorem regAt_moveRegs_ne {p : Thread × Nat × Nat} (s : State) (old : Core) (n j : Nat) (g : Group) {l : Nat}
    (hl : p.2.2 < 64) (hl' : l < 64) (hne : l ≠ p.2.2) : regAt (moveRegs s old n g p) j l = regAt g j l := by
  unfold moveRegs
  split
  · rfl
  · rw [regAt_foldl_setReg hl hl', if_neg (fun e => hne e.1)]

theorem writes_moveRegs (s : State) (old : Core) (n : Nat) (g : Group) (p : Thread × Nat × Nat) :
    Writes g (moveRegs s old n g p) := by
  unfold moveRegs
  split
  · exact Writes.refl _
  · exact List.foldlRecOn _ _ (motive := Writes g) (Writes.refl _) fun h hw r _ => hw.trans (writes_setReg ..)

theorem allotment_moveRegs (s : State) (old : Core) (n : Nat) (g : Group) (p : Thread × Nat × Nat) :
    (moveRegs s old n g p).allotment = g.allotment := by
  obtain ⟨-, -, hallot, -⟩ := (writes_moveRegs s old n g p).keeps
  rw [Group.allotment, hallot]
  rfl

/-- Register j stands at the new place of a thread as it stood at the old one, in a group of the allotment that slot x had. -/
def Brought (old : Core) (x j : Nat) (p : Thread × Nat × Nat) (g : Group) : Prop :=
  g.allotment = (old.group x).allotment ∧ regAt g j p.2.2 = regAt (old.group p.1.slot) j p.1.lane

/-- It stays so while threads move to other lanes. -/
theorem Brought.moveRegs {old : Core} {x j n : Nat} {p q : Thread × Nat × Nat} {g : Group} (h : Brought old x j p g) (s : State)
    (hl : p.2.2 < 64) (hlq : q.2.2 < 64) (hsame : q.2.2 = p.2.2 → q = p) (hj : j < n) (hx : j < (old.group x).allotment) :
    Brought old x j p (moveRegs s old n g q) := by
  obtain ⟨hg, hreg⟩ := h
  refine ⟨(allotment_moveRegs ..).trans hg, ?_⟩
  by_cases hlane : q.2.2 = p.2.2
  · obtain rfl := hsame hlane
    by_cases hstay : stays q
    · rw [moveRegs_of_stays hstay, hreg]
    · exact regAt_moveRegs_same hstay s old hl hj (hg ▸ hx)
  · rw [regAt_moveRegs_ne s old n j g hlq hl (Ne.symm hlane), hreg]

/-- After the moves of one group's threads, each to a lane of its own, a register of a thread is what it was. -/
theorem brought_foldl_moveRegs (s : State) (old : Core) {n j x : Nat} {mine : List (Thread × Nat × Nat)} {p : Thread × Nat × Nat}
    (hp : p ∈ mine) (hx : ∀ q ∈ mine, q.2.1 = x) (hmine : ∀ q ∈ mine, q.2.2 < 64 ∧ (q.2 = p.2 → q = p)) (hj : j < n)
    (hg : j < (old.group x).allotment) : Brought old x j p (mine.foldl (moveRegs s old n) (old.group x)) := by
  have hl := (hmine p hp).1
  have hsame : ∀ q ∈ mine, q.2.2 = p.2.2 → q = p := fun q hq hlane =>
    (hmine q hq).2 (Prod.ext ((hx q hq).trans (hx p hp).symm) hlane)
  have hkeep : ∀ q ∈ mine, ∀ g, Brought old x j p g → Brought old x j p (moveRegs s old n g q) := fun q hq g h =>
    h.moveRegs s hl (hmine q hq).1 (hsame q hq) hj hg
  obtain ⟨pre, post, rfl⟩ := List.append_of_mem hp
  rw [List.foldl_append, List.foldl_cons]
  refine List.foldlRecOn post _ (motive := Brought old x j p) ?_ fun g h q hq =>
    hkeep q (List.mem_append_right _ (List.mem_cons_of_mem _ hq)) g h
  by_cases hstay : stays p
  · have hfirst : Brought old x j p (old.group x) := ⟨rfl, by rw [hstay.1, hstay.2, hx p hp]⟩
    exact hkeep p hp _ (List.foldlRecOn pre _ (motive := Brought old x j p) hfirst fun g h q hq =>
      hkeep q (List.mem_append_left _ hq) g h)
  · have hpre : (pre.foldl (moveRegs s old n) (old.group x)).allotment = (old.group x).allotment :=
      List.foldlRecOn pre _ (motive := fun g : Group => g.allotment = (old.group x).allotment) rfl fun _ h _ _ =>
        (allotment_moveRegs ..).trans h
    exact ⟨(allotment_moveRegs ..).trans hpre, regAt_moveRegs_same hstay s old hl hj (hpre ▸ hg)⟩

/-! ### The commit -/

/-- Slots that each take a group of their own. -/
theorem group_foldl_withGroup (new : Nat → Group) (xs : List Nat) (y : Nat) : ∀ k : Core,
    (xs.foldl (fun k x => k.withGroup x (new x)) k).group y = if y ∈ xs then new y else k.group y := by
  induction xs with
  | nil => simp
  | cons x xs ih =>
    intro k
    rw [List.foldl_cons, ih, group_withGroup]
    by_cases hy : y = x <;> simp [hy]

theorem regs_committed (s : State) (old : Core) (o : RegroupOp) (prio nb : Nat) (known : SMap Nat)
    (plan : List (Thread × Nat × Nat)) (x : Nat) : (committed s old o prio nb known plan x).regs =
      ((plan.filter (fun p => p.2.1 == x)).foldl (moveRegs s old o.n) (old.group x)).regs := by
  unfold committed afterHold
  dsimp only
  split <;> rfl

/-- The state in which the threads have moved by the plan, before their status is written (R145 steps 5 to 7). -/
def regrouped (s : State) (c : Nat) (o : RegroupOp) (plan : List (Thread × Nat × Nat)) : State :=
  let k := getCore s c
  updCore s c (fun _ => o.slots.foldl (fun q x => q.withGroup x
    (committed s k o (arrivedPrio k o) (arrivedNext k o) (jointSeen k c s.serial o.slots) plan x))
    ((changedSlots o plan).foldl (fun k1 x => swapShadow k1 x o.n (k.group (o.slots.headD 0)).width) (dropRegroup k o)))

theorem regAt_regrouped {s : State} {c : Nat} {o : RegroupOp} {plan : List (Thread × Nat × Nat)} {p : Thread × Nat × Nat}
    (hp : p ∈ plan) (hslot : p.2.1 ∈ o.slots) (hplan : ∀ q ∈ plan, q.2.2 < 64 ∧ (q.2 = p.2 → q = p)) {j : Nat} (hj : j < o.n)
    (hg : j < ((getCore s c).group p.2.1).allotment) :
    regAt (getGroup (regrouped s c o plan) c p.2.1) j p.2.2 = regAt ((getCore s c).group p.1.slot) j p.1.lane := by
  rw [getGroup, regrouped, getCore_updCore_same, group_foldl_withGroup, if_pos hslot, regAt, regs_committed]
  have hmine : p ∈ plan.filter (fun q => q.2.1 == p.2.1) := List.mem_filter.mpr ⟨hp, beq_self_eq_true _⟩
  exact (brought_foldl_moveRegs s (getCore s c) hmine (fun q hq => beq_iff_eq.mp (List.mem_filter.mp hq).2)
    (fun q hq => hplan q (List.mem_filter.mp hq).1) hj hg).2

/-! Its ends in their order (R145, R146, R148). -/

theorem commitRegroup_of_no_plan {s : State} {c : Nat} {o : RegroupOp} (hplan : planOf (getCore s c) o = none) :
    commitRegroup s c o = endUnmoved s c o 1 := by
  unfold commitRegroup
  dsimp only
  rw [hplan]

/-- The units that a plan stages. -/
def stagedUnits (k : Core) (o : RegroupOp) (plan : List (Thread × Nat × Nat)) : Nat :=
  (changedSlots o plan).length * unitsOf o.n (k.group (o.slots.headD 0)).width

section
variable {s : State} {c : Nat} {o : RegroupOp} {plan : List (Thread × Nat × Nat)} (hplan : planOf (getCore s c) o = some plan)
include hplan

theorem commitRegroup_of_few_units (h : freeUnits (getCore s c) < stagedUnits (getCore s c) o plan) :
    commitRegroup s c o = endUnmoved s c o 3 := by
  unfold commitRegroup
  dsimp only
  rw [hplan]
  exact if_pos h

theorem commitRegroup_of_struck {x l : Nat} (h : stagedUnits (getCore s c) o plan ≤ freeUnits (getCore s c))
    (hstruck : regroupStruck (getCore s c) o (changedSlots o plan) = some (x, l)) :
    commitRegroup s c o = raiseTrap (endUnmoved s c o 2) c
      (struckReq s x l (o.next - BitVec.ofNat 64 (lenBytes o.f.len)) [x]) := by
  unfold commitRegroup
  dsimp only
  rw [hplan]
  refine (if_neg (Nat.not_lt.mpr h)).trans ?_
  rw [hstruck]
  rfl

theorem commitRegroup_of_moves (h : stagedUnits (getCore s c) o plan ≤ freeUnits (getCore s c))
    (hstruck : regroupStruck (getCore s c) o (changedSlots o plan) = none) :
    commitRegroup s c o = grantGrows (writeStatus (regrouped s c o plan) c o 0) c := by
  unfold commitRegroup
  dsimp only
  rw [hplan]
  refine (if_neg (Nat.not_lt.mpr h)).trans ?_
  rw [hstruck]
  rfl

end

/-- A struck register of a live thread below n is found (R148). -/
theorem regroupStruck_ne_none {k : Core} {o : RegroupOp} {ch : List Nat} {x q : Nat} (hx : x ∈ ch) (hq : q ∈ (k.group x).bad)
    (hn : q / 64 < o.n) (hlive : (k.group x).liveMask.getLsbD (q % 64) = true) : regroupStruck k o ch ≠ none := by
  unfold regroupStruck
  split
  · simp
  · rename_i hnone
    rw [List.findSome?_eq_none_iff] at hnone
    have h := List.find?_eq_none.mp (Option.map_eq_none_iff.mp (hnone x hx)) q hq
    simp [hn, hlive] at h

theorem regroupStruck_nil (k : Core) (o : RegroupOp) : regroupStruck k o [] = none := by
  simp [regroupStruck]

/-- The role's groups with the results that are due. -/
def landedSlots (s : State) (c : Nat) (o : RegroupOp) : State := updCore s c (fun k => updSlots k o.slots (landDue (now s c)))

/-- A REGROUP_COMMIT whose drain is over (R145). -/
theorem exec_regroupCommit_of_drained {s : State} {c b r : Nat} {o : RegroupOp} (hfind : findRegroup (getCore s c) b r = some o)
    (hdrained : regroupDrained s c o = true) (hhold : holdOver s c o = false) :
    exec (.regroupCommit c b r) s = .next (stepFree (commitRegroup (landedSlots s c o) c o)) := by
  change execRegroupCommit c b r s = _
  simp only [execRegroupCommit, hfind, hhold, hdrained]
  rfl

/-- A pre-emption that a REGROUP has held for 4,096 cycles abandons it, whichever event comes first (R148). -/
theorem exec_regroup_of_holdOver {s : State} {c b r : Nat} {o : RegroupOp} (hfind : findRegroup (getCore s c) b r = some o)
    (hhold : holdOver s c o = true) : exec (.regroupPreemptTimeout c b r) s = .next (stepFree (endUnmoved s c o 2)) ∧
      exec (.regroupCommit c b r) s = .next (stepFree (endUnmoved s c o 2)) := by
  change execRegroupPreemptTimeout c b r s = _ ∧ execRegroupCommit c b r s = _
  simp [execRegroupPreemptTimeout, execRegroupCommit, hfind, hhold]

/-- Settles O24: the gather's check is one search for a short group; the commit's ends are read off in the order of their tests,
and a thread's register is followed through the moves of its group's threads, each to a lane of its own. -/
theorem regrouping : Obligations.regrouping := by
  unfold Obligations.regrouping
  refine ⟨fun f q => ⟨fun h => ?_, fun h => ?_⟩, fun s c b r o hfind => ⟨fun hdrained hhold => ⟨fun hplan => ?_, fun plan hplan =>
    ⟨fun hunits => ?_, fun hunits hstruck => ?_, fun x l hunits hstruck => ?_, fun x q => regroupStruck_ne_none,
      fun hnone => ?_⟩⟩, fun t hhold hover => ?_⟩⟩
  · change (_ → issue 0x1C3 f (performRegroup f) q.s = _) ∧ (_ → ∃ y ∈ _, _ ∧ issue 0x1C3 f (performRegroup f) q.s = _)
    rw [issue_of_ready _ h]
    refine ⟨fun henough => congrArg _ (settled_startRegroup_of_enough (core_of_ready h) henough), fun hshort => ?_⟩
    obtain ⟨y, hy, hlt, heq⟩ := settled_startRegroup_of_short (home := false) (core_of_ready h) hshort
    exact ⟨y, hy, hlt, congrArg _ heq⟩
  · change (_ → issue 0x1C4 f (performRghome f) q.s = _) ∧ (_ → ∃ y ∈ _, _ ∧ issue 0x1C4 f (performRghome f) q.s = _)
    rw [issue_of_ready _ h]
    refine ⟨fun henough => congrArg _ (settled_startRegroup_of_enough (core_of_ready h) henough), fun hshort => ?_⟩
    obtain ⟨y, hy, hlt, heq⟩ := settled_startRegroup_of_short (home := true) (core_of_ready h) hshort
    exact ⟨y, hy, hlt, congrArg _ heq⟩
  · rw [exec_regroupCommit_of_drained hfind hdrained hhold]
    exact congrArg (fun t => Host.Outcome.next (stepFree t)) (commitRegroup_of_no_plan hplan)
  · rw [exec_regroupCommit_of_drained hfind hdrained hhold]
    exact congrArg (fun t => Host.Outcome.next (stepFree t)) (commitRegroup_of_few_units hplan hunits)
  · refine ⟨regrouped (landedSlots s c o) c o plan, ?_, fun p hp hslot hp' j hj hg => regAt_regrouped hp hslot hp' hj hg⟩
    rw [exec_regroupCommit_of_drained hfind hdrained hhold]
    exact congrArg (fun t => Host.Outcome.next (stepFree t)) (commitRegroup_of_moves hplan hunits hstruck)
  · refine ⟨struckReq (landedSlots s c o) x l (o.next - BitVec.ofNat 64 (lenBytes o.f.len)) [x], ?_,
      rfl, rfl, rfl, rfl⟩
    rw [exec_regroupCommit_of_drained hfind hdrained hhold]
    exact congrArg (fun t => Host.Outcome.next (stepFree t)) (commitRegroup_of_struck hplan hunits hstruck)
  · rw [hnone, regroupStruck_nil]
  · exact exec_regroup_of_holdOver hfind (by simp [holdOver, hhold, hover])

end Sys2Proof.Proofs
end

section
/-! PROOFS. GROW, SHRINK, GROW_GRANT and COMPACTION (O25). -/

namespace Sys2Proof.Proofs
open Sys2Proof Sys2Proof.Machine Sys2Proof.Safety Sys2Proof.Laws

/-! ### Allocation (R151, R242, R243) -/

/-- An allocation changes the units of a core, and the groups that a compaction holds. -/
theorem allocBlock_eq {k k1 : Core} {x pos n : Nat} (h : allocBlock k x pos n = some k1) :
    k1 = { k with alloc := k1.alloc, moving := k1.moving } := by
  unfold allocBlock at h
  split at h
  · cases h
  · split at h <;> (cases h; rfl)

/-- A GROW that fits changes the group that asked. -/
theorem growGroup_eq {k k1 : Core} {x n : Nat} (h : growGroup k x n = some k1) : ∃ alloc moving,
    k1 = Core.withGroup { k with alloc := alloc, moving := moving } x
      { zeroAbove (k.group x) with allot := (k.group x).allot ++ [n] } := by
  unfold growGroup at h
  dsimp only at h
  split at h
  · cases h
  · rename_i k2 halloc
    refine ⟨k2.alloc, k2.moving, ?_⟩
    rw [← allocBlock_eq halloc]
    exact (Option.some.inj h).symm

theorem growGroup_group {k k1 : Core} {x n : Nat} (h : growGroup k x n = some k1) (y : Nat) : k1.group y =
    if y = x then { zeroAbove (k.group x) with allot := (k.group x).allot ++ [n] } else k.group y := by
  obtain ⟨alloc, moving, rfl⟩ := growGroup_eq h
  exact group_withGroup ..

theorem mget_filter_key {α : Type} (d : α) (p : Nat → Bool) (m : SMap α) (k : Nat) :
    mget d (m.filter (fun q => p q.1)) k = if p k = true then mget d m k else d := by
  induction m with
  | nil => simp
  | cons q t ih =>
    obtain ⟨i, v⟩ := q
    by_cases hi : i = k
    · subst hi
      by_cases hp : p i = true <;> simp [hp, mget, ih]
    · by_cases hp : p i = true <;> simp [hp, mget, hi, ih]

/-- Names at or above the allotment read zero (R20). -/
theorem regAt_zeroAbove (g : Group) (r : Nat) {l : Nat} (hl : l < 64) :
    regAt (zeroAbove g) r l = if r < g.allotment then regAt g r l else 0 := by
  have hcell : cellKey r l < g.allotment * 64 ↔ r < g.allotment := by unfold cellKey; omega
  have hread := mget_filter_key (0 : Word) (fun key => decide (key < g.allotment * 64)) g.regs (cellKey r l)
  simp only [decide_eq_true_eq, hcell] at hread
  exact hread

/-! ### A layout places every allocation (R243) -/

theorem mem_insertNat {α : Type} {key : α → Nat} {x a : α} {ys : List α} : a ∈ insertNat key x ys ↔ a = x ∨ a ∈ ys := by
  induction ys with
  | nil => simp [insertNat]
  | cons y ys ih =>
    rw [insertNat]
    split
    · simp
    · simp only [List.mem_cons, ih]
      tauto

theorem mem_sortNat {α : Type} {key : α → Nat} {a : α} {xs : List α} : a ∈ sortNat key xs ↔ a ∈ xs := by
  have hfold : ∀ (xs ys : List α), a ∈ xs.foldl (fun ys x => insertNat key x ys) ys ↔ a ∈ ys ∨ a ∈ xs := by
    intro xs
    induction xs with
    | nil => simp
    | cons x xs ih =>
      intro ys
      rw [List.foldl_cons, ih, mem_insertNat, List.mem_cons]
      tauto
  simp [sortNat, hfold]

/-- An allocation laid out from the next free unit on. -/
def placeNext (acc : List Alloc × Nat) (a : Alloc) : List Alloc × Nat :=
  (acc.1 ++ [{ a with runs := [(acc.2, runLen a.runs)] }], acc.2 + runLen a.runs)

theorem runLen_singleton (u n : Nat) : runLen [(u, n)] = n := by simp [runLen]

theorem mem_foldl_placeNext {a : Alloc} {xs : List Alloc} : ∀ acc : List Alloc × Nat,
    (a ∈ acc.1 → a ∈ (xs.foldl placeNext acc).1) ∧
    (a ∈ xs → ∃ b ∈ (xs.foldl placeNext acc).1, b.ctx = a.ctx ∧ b.pos = a.pos ∧ runLen b.runs = runLen a.runs) := by
  have hkeep : ∀ (b : Alloc) (xs : List Alloc) (acc : List Alloc × Nat), b ∈ acc.1 → b ∈ (xs.foldl placeNext acc).1 :=
    fun b xs acc hb => List.foldlRecOn xs _ (motive := fun acc : List Alloc × Nat => b ∈ acc.1) hb fun _ h _ _ => List.mem_append_left _ h
  induction xs with
  | nil => exact fun _ => ⟨id, fun h => absurd h List.not_mem_nil⟩
  | cons x xs ih =>
    intro acc
    refine ⟨hkeep a _ acc, fun ha => ?_⟩
    rcases List.mem_cons.mp ha with rfl | ha
    · exact ⟨_, hkeep _ xs (placeNext acc a) (List.mem_append_right _ List.mem_cons_self), rfl, rfl, runLen_singleton ..⟩
    · exact (ih (placeNext acc x)).2 ha

/-- A compaction keeps the owner, position and size of every allocation, the request's among them. -/
theorem mem_layOut {k : Core} {r a : Alloc} (h : a ∈ k.alloc ∨ a = r) :
    ∃ b ∈ layOut k r, b.ctx = a.ctx ∧ b.pos = a.pos ∧ runLen b.runs = runLen a.runs :=
  (mem_foldl_placeNext ([], 0)).2 (mem_sortNat.mpr (by simpa using h))

/-! ### GROW and SHRINK (R151, R152, R424) -/

theorem statusNow_eq (s : State) (c x : Nat) (d : BitVec 10) (m : Mask) (v : Word) : statusNow s c x d m v =
    if d = 1023 then s else writeCells s c x ((lanesOf m).map (fun l => (d.toNat, l, v))) := by
  simp only [statusNow, toNat_eq_vnull]

theorem growRefused_iff (g : Group) (n : Nat) : growRefused g n = true ↔ 4 ≤ g.allot.length ∨ 640 < g.allotment + n := by
  simp [growRefused]

section
variable {f : Fields} {s : State} {m : Member} (pc : Dword) (hx : m.exec ≠ 0)
include hx

theorem performGrow_of_refused
    (h : 4 ≤ ((getCore s s.cur.1).group m.slot).allot.length ∨ 640 < ((getCore s s.cur.1).group m.slot).allotment + f.imm.toNat) :
    performGrow f pc [m] s = .ok (statusNow s s.cur.1 m.slot f.d m.exec 2) := by
  unfold performGrow
  dsimp only
  rw [if_neg hx, if_pos ((growRefused_iff _ _).mpr h)]

variable
  (h : ¬ (4 ≤ ((getCore s s.cur.1).group m.slot).allot.length ∨
    640 < ((getCore s s.cur.1).group m.slot).allotment + f.imm.toNat))
include h

theorem performGrow_of_fits {k1 : Core} (hq : f.mod = 1 ∨ (getCore s s.cur.1).growq = [])
    (hk : growGroup (getCore s s.cur.1) m.slot f.imm.toNat = some k1) :
    performGrow f pc [m] s = .ok (statusNow (setCore s s.cur.1 k1) s.cur.1 m.slot f.d m.exec 0) := by
  have hfirst : ¬ (f.mod = 0 ∧ (!(getCore s s.cur.1).growq.isEmpty) = true) := by
    rcases hq with hmod | hnil
    · simp [hmod]
    · simp [hnil]
  unfold performGrow
  dsimp only
  rw [if_neg hx, if_neg (mt (growRefused_iff _ _).mp h), if_neg hfirst, hk]

theorem performGrow_of_try (hk : growGroup (getCore s s.cur.1) m.slot f.imm.toNat = none) (hmod : f.mod = 1) :
    performGrow f pc [m] s = .ok (statusNow s s.cur.1 m.slot f.d m.exec 1) := by
  unfold performGrow
  dsimp only
  rw [if_neg hx, if_neg (mt (growRefused_iff _ _).mp h), if_pos hmod, hk]
  split <;> rfl

theorem performGrow_of_wait
    (hk : growGroup (getCore s s.cur.1) m.slot f.imm.toNat = none ∨ (getCore s s.cur.1).growq ≠ []) (hmod : f.mod = 0) :
    performGrow f pc [m] s = .park false .hold (updCore s s.cur.1 (fun k =>
      { k with growq := k.growq ++ [⟨m.slot, f.imm.toNat, f.d.toNat, m.exec⟩] })) := by
  have hone : ¬ f.mod = 1 := by simp [hmod]
  unfold performGrow
  dsimp only
  rw [if_neg hx, if_neg (mt (growRefused_iff _ _).mp h), if_neg hone]
  split
  case isTrue => rfl
  case isFalse hq =>
    rw [hk.resolve_right (by simpa [hmod] using hq)]

end

section
variable {f : Fields} {s : State} {m : Member} (pc : Dword) (hx : m.exec ≠ 0)
  (hhandles : (getGroup s s.cur.1 m.slot).handles = [])
  (hpend : ∀ p ∈ (getGroup s s.cur.1 m.slot).pend, p.inFlight (now s s.cur.1) = false)
include hx hhandles hpend

theorem performShrink_of_refused (h : (getGroup s s.cur.1 m.slot).allot.length ≤ 1 ∨
    (getGroup s s.cur.1 m.slot).allot.getLast? ≠ some f.imm.toNat) :
    performShrink f pc [m] s = .ok (statusNow s s.cur.1 m.slot f.d m.exec 2) := by
  have hbusy : ¬ ((!(getGroup s s.cur.1 m.slot).handles.isEmpty ||
      (getGroup s s.cur.1 m.slot).pend.any (fun p => p.inFlight (now s s.cur.1))) = true) := by
    simpa [hhandles] using hpend
  unfold performShrink
  dsimp only
  rw [if_neg hx, if_neg hbusy, if_pos h]

/-- The state in which a group has given its last block up, before its units are offered (R152). -/
def shrunk (s : State) (c x : Nat) : State :=
  updCore s c (fun k => freeFrom (k.withGroup x { k.group x with allot := (k.group x).allot.dropLast }) x
    ((k.group x).allot.length - 1))

theorem performShrink_of_last (h1 : 1 < (getGroup s s.cur.1 m.slot).allot.length)
    (h2 : (getGroup s s.cur.1 m.slot).allot.getLast? = some f.imm.toNat) :
    performShrink f pc [m] s = .ok (grantGrows (shrunk (statusNow (updGroup s s.cur.1 m.slot (landDue (now s s.cur.1)))
      s.cur.1 m.slot f.d m.exec 0) s.cur.1 m.slot) s.cur.1) := by
  have hbusy : ¬ ((!(getGroup s s.cur.1 m.slot).handles.isEmpty ||
      (getGroup s s.cur.1 m.slot).pend.any (fun p => p.inFlight (now s s.cur.1))) = true) := by
    simpa [hhandles] using hpend
  have hlast : ¬ ((getGroup s s.cur.1 m.slot).allot.length ≤ 1 ∨
      (getGroup s s.cur.1 m.slot).allot.getLast? ≠ some f.imm.toNat) := by
    rw [h2]; simpa using h1
  unfold performShrink
  dsimp only
  rw [if_neg hx, if_neg hbusy, if_neg hlast]
  rfl

end

/-- What a group that gives its last block up keeps, and its core. -/
theorem shrunk_keeps (s : State) (c x : Nat) :
    onlyCore c s (shrunk s c x) ∧
    getGroup (shrunk s c x) c x = { getGroup s c x with allot := (getGroup s c x).allot.dropLast } ∧
    (∀ y, y ≠ x → getGroup (shrunk s c x) c y = getGroup s c y) ∧
    (getCore (shrunk s c x) c).alloc =
      (getCore s c).alloc.filter (fun a => !(a.ctx == x && decide ((getGroup s c x).allot.length - 1 ≤ a.pos))) := by
  have hcore := getCore_updCore_same s c (fun k => freeFrom (k.withGroup x { k.group x with allot := (k.group x).allot.dropLast }) x
    ((k.group x).allot.length - 1))
  refine ⟨onlyCore_updCore .., ?_, fun y hy => ?_, ?_⟩
  · rw [getGroup, shrunk, hcore]
    exact group_withGroup_same ..
  · rw [getGroup, shrunk, hcore]
    exact (group_withGroup ..).trans (if_neg hy)
  · rw [shrunk, hcore]
    rfl

/-! ### GROW_GRANT (R245) -/

/-- A group in which a unit lets its entry go on. -/
def released (pc : Option Dword) (g : Group) : Group :=
  match g.frontier.find? (heldAt pc) with
  | none => g
  | some e =>
    let g1 := { g with frontier := g.frontier.erase e }
    let g2 := enter g1 (e.pc + 16) e.mask e.prio e.notBefore
    if (freeEntryAt g1 (e.pc + 16)).isSome then choose g2 else g2

theorem releaseHold_eq (s : State) (c x : Nat) (pc : Option Dword) : releaseHold s c x pc = updGroup s c x (released pc) := rfl

theorem shifts_released (pc : Option Dword) (g : Group) : Shifts g (released pc g) := by
  unfold released
  split
  case h_1 => exact Shifts.refl _
  case h_2 e _ =>
    have henter := Shifts.trans (show Shifts g { g with frontier := g.frontier.erase e } from rfl)
      (shifts_enter _ (e.pc + 16) e.mask e.prio e.notBefore)
    dsimp only
    split
    · exact henter.trans (shifts_choose _)
    · exact henter

/-- The entry that a unit holds goes on behind the others, where none stands at the next instruction (R222). -/
theorem frontier_releaseHold {s : State} {c x : Nat} {e : Entry} {pre post : List Entry}
    (hg : (getGroup s c x).frontier = pre ++ e :: post) (hpark : e.park = .hold) (hpre : ∀ d ∈ pre, d.park ≠ .hold)
    (hm : e.mask ≠ 0) (hnone : ∀ d ∈ pre ++ post, ¬ (d.pc = e.pc + 16 ∧ d.park = .none)) :
    (getGroup (releaseHold s c x none) c x).frontier =
      pre ++ post ++ [⟨e.pc + 16, e.mask, e.prio, .none, .none, e.notBefore, false⟩] := by
  have hfind : (getGroup s c x).frontier.find? (heldAt none) = some e := by
    rw [hg, List.find?_append, List.find?_eq_none.mpr (by simpa [heldAt] using hpre)]
    simp [heldAt, hpark]
  have hnot : e ∉ pre := fun hmem => hpre e hmem hpark
  have herase : (getGroup s c x).frontier.erase e = pre ++ post := by
    rw [hg, List.erase_append_right _ hnot, List.erase_cons_head]
  have hfree : freeEntryAt { getGroup s c x with frontier := pre ++ post } (e.pc + 16) = none := by
    rw [freeEntryAt, List.find?_eq_none]
    simpa [isParked] using hnone
  rw [releaseHold_eq, getGroup_updGroup_same, released, hfind]
  dsimp only
  rw [herase, hfree, enter_of_none _ _ hm hfree]
  rfl

/-- A release shifts entries of one group. -/
theorem releaseHold_keeps (s : State) (c x : Nat) (pc : Option Dword) :
    onlyCore c s (releaseHold s c x pc) ∧ Shifts (getGroup s c x) (getGroup (releaseHold s c x pc) c x) ∧
    (∀ y, y ≠ x → getGroup (releaseHold s c x pc) c y = getGroup s c y) ∧
    getCore (releaseHold s c x pc) c = { getCore s c with groups := (getCore (releaseHold s c x pc) c).groups } := by
  rw [releaseHold_eq]
  refine ⟨onlyCore_updGroup .., ?_, fun y hy => ?_, ?_⟩
  · rw [getGroup_updGroup_same]
    exact shifts_released ..
  · rw [getGroup_updGroup, if_neg (fun e => hy e.2)]
  · rw [updGroup, setGroup, getCore_updCore_same]
    rfl

/-- The state in which a request has its units and its status, before its entry is released (R245). -/
def granted (s : State) (c : Nat) (k1 : Core) (r : GrowReq) (rest : List GrowReq) : State :=
  statusNow (setCore s c { k1 with growq := rest }) c r.ctx (BitVec.ofNat 10 r.d) r.mask 0

theorem grantGrow_of_fits {s : State} {c : Nat} {r : GrowReq} {rest : List GrowReq} {k1 : Core}
    (hq : (getCore s c).growq = r :: rest) (hk : growGroup (getCore s c) r.ctx r.size = some k1) :
    grantGrow s c = some (releaseHold (granted s c k1 r rest) c r.ctx none) := by
  simp only [grantGrow, hq, hk, Option.map_some]
  rfl

theorem grantGrow_of_full {s : State} {c : Nat} {r : GrowReq} {rest : List GrowReq}
    (hq : (getCore s c).growq = r :: rest) (hk : growGroup (getCore s c) r.ctx r.size = none) : grantGrow s c = none := by
  simp only [grantGrow, hq, hk, Option.map_none]

theorem grantGrow_of_nil {s : State} {c : Nat} (hq : (getCore s c).growq = []) : grantGrow s c = none := by
  simp only [grantGrow, hq]

theorem exec_growGrant (s : State) (c : Nat) : exec (.growGrant c) s = .next (stepFree ((grantGrow s c).getD s)) := rfl

/-- What a grant keeps of the state, and of the groups of its core. -/
theorem granted_keeps {s : State} {c : Nat} {r : GrowReq} (rest : List GrowReq) {k1 : Core}
    (hk : growGroup (getCore s c) r.ctx r.size = some k1) :
    onlyCore c s (granted s c k1 r rest) ∧ (getCore (granted s c k1 r rest) c).growq = rest ∧
    Writes (k1.group r.ctx) (getGroup (granted s c k1 r rest) c r.ctx) ∧
    ∀ y, y ≠ r.ctx → getGroup (granted s c k1 r rest) c y = getGroup s c y := by
  have hset : getCore (setCore s c { k1 with growq := rest }) c = { k1 with growq := rest } := by
    rw [getCore_setCore, if_pos rfl]
  obtain ⟨honly, hcore, hgroup, hothers, -⟩ :=
    stateWrites_statusNow (setCore s c { k1 with growq := rest }) c r.ctx (BitVec.ofNat 10 r.d) r.mask 0
  refine ⟨onlyCore_trans (onlyCore_updCore s c fun _ => { k1 with growq := rest }) honly, ?_, ?_, fun y hy => ?_⟩
  · rw [granted, hcore, hset]
  · rw [getGroup, hset] at hgroup
    exact hgroup
  · rw [granted, hothers y hy, getGroup, hset]
    exact (growGroup_group hk y).trans (if_neg hy)

/-! ### O25 -/

theorem execCompaction_eq (s : State) (c : Nat) : exec (.compaction c) s =
    if ∃ x ∈ (getCore s c).moving, ∃ p ∈ ((getCore s c).group x).pend, p.inFlight (now s c) = true then .next s
    else .next (setCore s c { getCore s c with moving := [] }) := by
  change execCompaction c s = _
  unfold execCompaction
  dsimp only
  split
  case isTrue h =>
    rw [if_neg]
    simpa using h
  case isFalse h =>
    rw [if_pos]
    simpa using h

/-- A grant's status in the words of the statement. -/
theorem granted_eq (s : State) (c : Nat) (k1 : Core) {r : GrowReq} (rest : List GrowReq) (hd : r.d < 1024) :
    granted s c k1 r rest = if r.d = 1023 then setCore s c { k1 with growq := rest }
      else writeCells (setCore s c { k1 with growq := rest }) c r.ctx ((lanesOf r.mask).map (fun l => (r.d, l, 0))) := by
  have hnat : (BitVec.ofNat 10 r.d).toNat = r.d := by rw [BitVec.toNat_ofNat, Nat.mod_eq_of_lt hd]
  rw [granted, statusNow, hnat]
  rfl

/-- What a request that is granted leaves (R245). -/
theorem releaseHold_granted {s : State} {c : Nat} {r : GrowReq} (rest : List GrowReq) {k1 : Core}
    (hk : growGroup (getCore s c) r.ctx r.size = some k1) :
    let t := releaseHold (granted s c k1 r rest) c r.ctx none
    onlyCore c s t ∧ (getCore t c).growq = rest ∧ (getGroup t c r.ctx).allot = (k1.group r.ctx).allot ∧
    (getGroup t c r.ctx).regs = (getGroup (granted s c k1 r rest) c r.ctx).regs ∧
    (∀ x, x ≠ r.ctx → getGroup t c x = getGroup s c x) := by
  intro t
  obtain ⟨honly, hgrowq, hwrites, hothers⟩ := granted_keeps rest hk
  obtain ⟨honly', hshifts, hothers', hcore⟩ := releaseHold_keeps (granted s c k1 r rest) c r.ctx none
  obtain ⟨-, -, hallot, -⟩ := hwrites.keeps
  obtain ⟨⟨-, -, -, -, -, -, hallot', -⟩, hregs, -⟩ := hshifts.keeps
  exact ⟨onlyCore_trans honly honly', by rw [hcore, hgrowq], hallot'.trans hallot, hregs,
    fun x hx => (hothers' x hx).trans (hothers x hx)⟩

/-- SHRINK of the last block: what it leaves before its units are offered (R152). -/
theorem shrunk_status {s : State} {c x t : Nat} (d : BitVec 10) (m : Mask) :
    let u := statusNow (updGroup s c x (landDue t)) c x d m 0
    onlyCore c s (shrunk u c x) ∧
    (getGroup (shrunk u c x) c x).allot = (getGroup s c x).allot.dropLast ∧
    (getGroup (shrunk u c x) c x).regs = (getGroup u c x).regs ∧
    (getGroup (shrunk u c x) c x).frontier = (getGroup s c x).frontier ∧
    (∀ a, a ∈ (getCore (shrunk u c x) c).alloc ↔
      a ∈ (getCore s c).alloc ∧ ¬ (a.ctx = x ∧ (getGroup s c x).allot.length - 1 ≤ a.pos)) ∧
    ∀ y, y ≠ x → getGroup (shrunk u c x) c y = getGroup s c y := by
  intro u
  obtain ⟨honly, hcore, hgroup, hothers, -⟩ := (stateWrites_updGroup s c x (h := landDue t)
    (writes_of_lands (lands_landDue t _))).trans (stateWrites_statusNow _ c x d m 0)
  obtain ⟨-, -, hallot, hfront, -⟩ := hgroup.keeps
  obtain ⟨honly', hgroup', hothers', halloc⟩ := shrunk_keeps u c x
  have hunits : (getCore u c).alloc = (getCore s c).alloc := by rw [hcore]
  refine ⟨onlyCore_trans honly honly', ?_, ?_, ?_, fun a => ?_, fun y hy => (hothers' y hy).trans (hothers y hy)⟩
  · rw [hgroup']; exact congrArg _ hallot
  · rw [hgroup']
  · rw [hgroup']; exact hfront
  · rw [halloc, hunits, show (getGroup u c x).allot = (getGroup s c x).allot from hallot]
    simp [imp_iff_not_or]

/-- Settles O25: GROW and SHRINK go through their tests in order; a grant is the growth of one group, its status, and the release
of its entry; a compaction lays every allocation out again. -/
theorem growing : Obligations.growing := by
  unfold Obligations.growing
  refine ⟨fun f q m hms hx => ⟨fun h => ?_, fun h hhandles _ hpend => ?_⟩, fun f q m hms hx => ⟨fun h => ?_, fun h => ?_⟩,
    fun k k1 x n hk => ⟨?_, ?_, fun r l hl => ?_, fun y hy => ?_⟩,
    fun s c => ⟨fun hq => ?_, fun r rest hq => ⟨fun hk => ?_, fun k1 hd hk => ?_⟩⟩, fun s c => ⟨fun hheld => ?_, fun hheld => ?_⟩,
    fun k r => ⟨fun a => mem_layOut, rfl⟩⟩
  -- GROW
  · have hcur := core_of_ready h
    have hexec : exec (.grow f) q.s = .next (settled q f (performGrow f q.e.pc [m] q.s1)) := by
      rw [← hms]; exact issue_of_ready _ h
    refine ⟨fun hlim => ?_, fun hlim hq k1 hk => ?_, fun hlim hk hmod => ?_, fun hlim hk hmod => ?_⟩
    · rw [hexec, performGrow_of_refused q.e.pc hx (by rw [hcur]; exact hlim), statusNow_eq, hcur]
      rfl
    · rw [hexec, performGrow_of_fits q.e.pc hx (by rw [hcur]; exact hlim) (by rw [hcur]; exact hq) (by rw [hcur]; exact hk),
        statusNow_eq, hcur]
      rfl
    · rw [hexec, performGrow_of_try q.e.pc hx (by rw [hcur]; exact hlim) (by rw [hcur]; exact hk) hmod, statusNow_eq, hcur]
      rfl
    · rw [hexec, performGrow_of_wait q.e.pc hx (by rw [hcur]; exact hlim) (by rw [hcur]; exact hk) hmod, hcur]
      rfl
  -- SHRINK
  · have hcur := core_of_ready h
    have hexec : exec (.shrink f) q.s = .next (settled q f (performShrink f q.e.pc [m] q.s1)) := by
      rw [← hms]; exact issue_of_ready _ h
    have hfree : ∀ p ∈ (getGroup q.s1 q.s1.cur.1 m.slot).pend, p.inFlight (now q.s1 q.s1.cur.1) = false := by
      rw [hcur]; exact hpend
    have hnone : (getGroup q.s1 q.s1.cur.1 m.slot).handles = [] := by rw [hcur]; exact hhandles
    refine ⟨fun hrefused => ?_, fun h1 h2 => ?_⟩
    · rw [hexec, performShrink_of_refused q.e.pc hx hnone hfree (by rw [hcur]; exact hrefused), statusNow_eq, hcur]
      rfl
    · intro u
      have hu : u = statusNow (updGroup q.s1 q.core m.slot (landDue (now q.s1 q.core))) q.core m.slot f.d m.exec 0 :=
        (statusNow_eq ..).symm
      rw [hu]
      refine ⟨_, ?_, shrunk_status f.d m.exec⟩
      rw [hexec, performShrink_of_last q.e.pc hx hnone hfree (by rw [hcur]; exact h1) (by rw [hcur]; exact h2), hcur]
      rfl
  · change issue 0x1C5 f (performGrow f) q.s = _
    simp only [issue_of_ready _ h, hms, performGrow, hx, if_true]
    rfl
  · change issue 0x1C6 f (performShrink f) q.s = _
    simp only [issue_of_ready _ h, hms, performShrink, hx, if_true]
    rfl
  -- the growth of a group
  · rw [growGroup_group hk, if_pos rfl]
  · rw [growGroup_group hk, if_pos rfl]
    rfl
  · rw [growGroup_group hk, if_pos rfl]
    exact regAt_zeroAbove _ r hl
  · rw [growGroup_group hk, if_neg hy]
  -- GROW_GRANT
  · rw [exec_growGrant, grantGrow_of_nil hq]
    rfl
  · rw [exec_growGrant, grantGrow_of_full hq hk]
    rfl
  · intro u v
    have hv : v = granted s c k1 r rest := (granted_eq s c k1 rest hd).symm
    rw [hv]
    obtain ⟨honly, hgrowq, hallot, hregs, hothers⟩ := releaseHold_granted rest hk
    refine ⟨_, by rw [exec_growGrant, grantGrow_of_fits hq hk]; rfl, honly, hgrowq, hallot, hregs, hothers,
      fun e pre post hfront hpark hpre hm hnone => frontier_releaseHold ?_ hpark hpre hm hnone⟩
    obtain ⟨-, -, -, hsame, -⟩ := (granted_keeps rest hk).2.2.1.keeps
    exact hsame.trans hfront
  -- COMPACTION
  · rw [execCompaction_eq]
    exact if_pos hheld
  · rw [execCompaction_eq]
    exact if_neg hheld

end Sys2Proof.Proofs
end

section
/-! PROOFS. SYNC, SETJOIN and SETLEAVE, and rendezvous that complete without an arrival (O26). -/

namespace Sys2Proof.Proofs
open Sys2Proof Sys2Proof.Machine Sys2Proof.Safety Sys2Proof.Laws

/-! ### Tables that list a default -/

theorem merase_merase {α : Type} (m : SMap α) (k : Nat) : merase (merase m k) k = merase m k := by
  induction m with
  | nil => rfl
  | cons p t ih =>
    by_cases hp : p.1 = k
    · simp [merase, hp, ih]
    · simp [merase, hp, ih]

theorem merase_mput_same {α : Type} (m : SMap α) (k : Nat) (x : α) : merase (mput m k x) k = merase m k := by
  induction m with
  | nil => simp [mput, merase]
  | cons p t ih =>
    rw [mput]
    split
    · rw [merase, if_pos rfl]
    · rw [merase, merase, ih]

/-- Of two values set for one key the second stays. -/
theorem mset_mset {α : Type} [DecidableEq α] (d : α) (m : SMap α) (k : Nat) (x y : α) :
    mset d (mset d m k x) k y = mset d m k y := by
  have hsame : merase (mset d m k x) k = merase m k := by
    rw [mset]
    split
    · exact merase_merase m k
    · rw [merase_mput_same, merase_merase]
  rw [mset, hsame, mset]

theorem updCore_updCore (s : State) (c : Nat) (h1 h2 : Core → Core) :
    updCore (updCore s c h1) c h2 = updCore s c (fun k => h2 (h1 k)) := by
  have hcore := getCore_updCore_same s c h1
  simp only [updCore, setCore] at hcore ⊢
  rw [hcore, mset_mset]

/-- A table whose listed values are changed, those that become the default too. -/
def mapped {α : Type} (h : Nat → α → α) (m : SMap α) : SMap α := m.map (fun q => (q.1, h q.1 q.2))

theorem mget_mapped {α : Type} {d : α} {h : Nat → α → α} (hd : ∀ k, h k d = d) (k : Nat) (m : SMap α) :
    mget d (mapped h m) k = h k (mget d m k) := by
  induction m with
  | nil => exact (hd k).symm
  | cons q t ih =>
    change mget d ((q.1, h q.1 q.2) :: mapped h t) k = h k (mget d (q :: t) k)
    rw [mget, mget]
    split
    case isTrue hk => rw [hk]
    case isFalse => exact ih

/-- Listed defaults drop out at the next change that keeps them defaults. -/
theorem mmap_mmap {α : Type} [DecidableEq α] {d : α} (h1 : Nat → α → α) {h2 : Nat → α → α} (hd : ∀ k, h2 k d = d) (m : SMap α) :
    mmap d h2 (mmap d h1 m) = mmap d h2 (mapped h1 m) := by
  induction m with
  | nil => rfl
  | cons q t ih =>
    have hcons : ∀ (v : α) (m : SMap α), mmap d h2 ((q.1, v) :: m) =
        if h2 q.1 v = d then mmap d h2 m else (q.1, h2 q.1 v) :: mmap d h2 m := fun v m => by
      by_cases hv : h2 q.1 v = d <;> simp [mmap, hv]
    change _ = mmap d h2 ((q.1, h1 q.1 q.2) :: mapped h1 t)
    rw [hcons, ← ih]
    by_cases hv : h1 q.1 q.2 = d
    · rw [hv, hd, if_pos rfl]
      simp [mmap, hv]
    · rw [← hcons]
      simp [mmap, hv]

/-! ### SYNC (R142) -/

/-- A group whose acquires have been looked at: those that are over are gone. -/
def settledGroup (done : AcqRec → Bool) (g : Group) : Group := { g with acqs := g.acqs.filter (fun a => !done a) }

/-- A group no fill of whose loads is installed (R163). -/
def droppedFills (g : Group) : Group := { g with loads := g.loads.map (fun r => { r with install := [] }) }

/-- The core after `settleAcqs`, with its groups listed where they were. -/
def settledCore (k : Core) (c : Nat) : Core :=
  if k.groups.any (fun g => g.2.acqs.any (fun a => a.wide && acqDone k c a)) then
    { k with groups := mapped (fun _ g => droppedFills (settledGroup (acqDone k c) g)) k.groups, l1 := []
             prefs := k.prefs.map (fun p => { p with install := false }) }
  else { k with groups := mapped (fun _ => settledGroup (acqDone k c)) k.groups }

/-- Once a slot has issued no group that is the default is listed, whether `settleAcqs` had left it out or not. -/
theorem takeSlot_settleAcqs (s : State) (c : Nat) (h : Core → Core) (u : Nat × SlotUse) (xs : List Nat) :
    takeSlot (updCore s c (fun k => settleAcqs (h k) c)) c (some u) xs =
      takeSlot (updCore s c (fun k => settledCore (h k) c)) c (some u) xs := by
  simp only [takeSlot_some, updCore_updCore]
  congr 1
  funext k
  generalize h k = k
  have hlose := fun h1 => mmap_mmap (d := ({} : Group)) h1 (loseLatches_default u.1 xs)
  unfold settleAcqs settledCore
  dsimp only
  split
  case isTrue =>
    have hdrop : mmap {} (fun _ g => droppedFills g) (mmap {} (fun _ => settledGroup (acqDone k c)) k.groups) =
        mmap {} (fun _ g => droppedFills (settledGroup (acqDone k c) g)) k.groups := by
      rw [mmap_mmap _ (fun _ => rfl)]
      simp only [mmap, mapped, List.map_map]
      rfl
    rw [← hlose, ← hdrop]
    rfl
  case isFalse =>
    rw [← hlose]
    rfl

/-- What SYNC changes of a group beside its store queue: what it has seen and waits for. -/
def SyncKept (g h : Group) : Prop :=
  h.regs = g.regs ∧ h.frontier = g.frontier ∧ h.pend = g.pend ∧ h.handles = g.handles ∧ h.fpflags = g.fpflags

theorem SyncKept.trans {g h k : Group} (h1 : SyncKept g h) (h2 : SyncKept h k) : SyncKept g k := by
  obtain ⟨a1, b1, c1, d1, e1⟩ := h1
  obtain ⟨a2, b2, c2, d2, e2⟩ := h2
  exact ⟨a2.trans a1, b2.trans b1, c2.trans c1, d2.trans d1, e2.trans e1⟩

theorem group_of_mapped {k k' : Core} {h : Group → Group} (hd : h {} = {}) (hk : k'.groups = mapped (fun _ => h) k.groups) (y : Nat) :
    k'.group y = h (k.group y) := by
  rw [Core.group, hk, mget_mapped (fun _ => hd)]
  rfl

theorem group_settledCore (k : Core) (c y : Nat) : SyncKept (k.group y) ((settledCore k c).group y) ∧
    ((settledCore k c).group y).storeq = (k.group y).storeq := by
  have hgroups : ∃ h : Group → Group, (settledCore k c).groups = mapped (fun _ => h) k.groups ∧ h {} = {} ∧
      ∀ g, SyncKept g (h g) ∧ (h g).storeq = g.storeq := by
    unfold settledCore
    split
    · exact ⟨fun g => droppedFills (settledGroup (acqDone k c) g), rfl, rfl, fun _ => ⟨⟨rfl, rfl, rfl, rfl, rfl⟩, rfl⟩⟩
    · exact ⟨settledGroup (acqDone k c), rfl, rfl, fun _ => ⟨⟨rfl, rfl, rfl, rfl, rfl⟩, rfl⟩⟩
  obtain ⟨h, hmapped, hd, hkept⟩ := hgroups
  rw [group_of_mapped hd hmapped]
  exact hkept _

/-- The release that SYNC puts into a store queue (R142). -/
def isRelease (loads : List Nat) (it : QItem) : Prop := it.kind = .fence ∧ it.rel = 1 ∧ it.lanes = [] ∧ it.waits = loads

/-- SYNC at one member. -/
structure SyncsAt (loads : List Nat) (x : Nat) (k k' : Core) : Prop where
  kept   : ∀ y, SyncKept (k.group y) (k'.group y)
  others : ∀ y, y ≠ x → (k'.group y).storeq = (k.group y).storeq
  queued : ∃ it, isRelease loads it ∧ (k'.group x).storeq = (k.group x).storeq ++ [it]

theorem foldl_syncsAt {loads : List Nat} {step : Core → Nat × Nat → Core} (hstep : ∀ k q, SyncsAt loads q.1 k (step k q))
    (qs : List (Nat × Nat)) (k : Core) : (∀ y, SyncKept (k.group y) ((qs.foldl step k).group y)) ∧
    (∀ y, (∀ q ∈ qs, q.1 ≠ y) → ((qs.foldl step k).group y).storeq = (k.group y).storeq) ∧
    (∀ y it, it ∈ (k.group y).storeq → it ∈ ((qs.foldl step k).group y).storeq) ∧
    ∀ q ∈ qs, ∃ it ∈ ((qs.foldl step k).group q.1).storeq, isRelease loads it := by
  induction qs generalizing k with
  | nil => exact ⟨fun _ => ⟨rfl, rfl, rfl, rfl, rfl⟩, fun _ _ => rfl, fun _ _ h => h, by simp⟩
  | cons q qs ih =>
    obtain ⟨hkept, hothers, it, hit, hqueued⟩ := hstep k q
    obtain ⟨ikept, iothers, istay, iqueued⟩ := ih (step k q)
    refine ⟨fun y => (hkept y).trans (ikept y), fun y hy => ?_, fun y i hi => istay y i ?_, fun p hp => ?_⟩
    · obtain ⟨hq, hqs⟩ := List.forall_mem_cons.mp hy
      exact (iothers y hqs).trans (hothers y hq.symm)
    · by_cases hy : y = q.1
      · rw [hy, hqueued, ← hy]
        exact List.mem_append_left _ hi
      · rw [hothers y hy]
        exact hi
    · obtain rfl | hp := List.mem_cons.mp hp
      · exact ⟨it, istay _ _ (by rw [hqueued]; simp), hit⟩
      · exact iqueued p hp

theorem syncsAt_withGroup {loads : List Nat} (k : Core) (x : Nat) {g : Group} (hkept : SyncKept (k.group x) g)
    (hqueued : ∃ it, isRelease loads it ∧ g.storeq = (k.group x).storeq ++ [it]) : SyncsAt loads x k (k.withGroup x g) where
  kept y := by
    rw [group_withGroup]
    split
    case isTrue hy => rw [hy]; exact hkept
    case isFalse => exact ⟨rfl, rfl, rfl, rfl, rfl⟩
  others y hy := by rw [group_withGroup, if_neg hy]
  queued := by rw [group_withGroup_same]; exact hqueued

/-- SYNC for the slots `xs` (R142), up to what an issue slot that has issued leaves out of its core's list. -/
theorem syncMembers_eq (s : State) (c : Nat) (xs : List Nat) : ∃ t,
    (∀ u ys, takeSlot (syncMembers s c xs) c (some u) ys = takeSlot t c (some u) ys) ∧ onlyCore c s t ∧
    (∀ y, SyncKept (getGroup s c y) (getGroup t c y) ∧ (y ∉ xs → (getGroup t c y).storeq = (getGroup s c y).storeq)) ∧
    ∀ x ∈ xs, ∃ it ∈ (getGroup t c x).storeq, isRelease (loadsOf (getCore s c) xs) it := by
  have hsteps : ∃ step : Core → Nat × Nat → Core,
      syncMembers s c xs = updCore { s with serial := s.serial + xs.length } c (fun k => settleAcqs (xs.zipIdx.foldl step k) c) ∧
      ∀ k q, SyncsAt (loadsOf (getCore s c) xs) q.1 k (step k q) :=
    ⟨_, rfl, fun k q => syncsAt_withGroup k q.1 ⟨rfl, rfl, rfl, rfl, rfl⟩ ⟨_, ⟨rfl, rfl, rfl, rfl⟩, rfl⟩⟩
  obtain ⟨step, hsync, hstep⟩ := hsteps
  obtain ⟨hkept, hothers, -, hqueued⟩ := foldl_syncsAt hstep xs.zipIdx (getCore s c)
  refine ⟨updCore { s with serial := s.serial + xs.length } c (fun k => settledCore (xs.zipIdx.foldl step k) c),
    fun u ys => by rw [hsync, takeSlot_settleAcqs], onlyCore_trans ⟨rfl, fun _ _ => rfl⟩ (onlyCore_updCore ..), ?_⟩
  unfold getGroup
  rw [getCore_updCore_same]
  refine ⟨fun y => ⟨(hkept y).trans (group_settledCore ..).1, fun hy => ?_⟩, fun x hx => ?_⟩
  · refine (group_settledCore ..).2.trans (hothers y fun p hp hpy => hy ?_)
    exact hpy ▸ List.fst_mem_of_mem_zipIdx hp
  · obtain ⟨i, hi⟩ := List.mem_iff_getElem?.mp hx
    rw [(group_settledCore ..).2]
    exact hqueued (x, i) (List.mem_zipIdx_iff_getElem?.mpr hi)

/-! ### SETJOIN (R143) -/

/-- An entry that stands in SETJOIN. -/
def isJoining (e : Entry) : Bool := match e.park with | .join _ _ => true | _ => false

/-- A group that is a member of set `id`, or has an entry to make it one. -/
def canJoin (id : Nat) (g : Group) : Prop := g.setId = some id ∨ ∃ e ∈ g.frontier, isJoining e = true

theorem setId_of_shifts {g h : Group} (hs : Shifts g h) : h.setId = g.setId := by rw [hs]

theorem group_enrol (s : State) (c id : Nat) (k : Core) (y : Nat) :
    (∀ z, z ≠ y → (enrol s c id k y).group z = k.group z) ∧
    (canJoin id (k.group y) → ((enrol s c id k y).group y).setId = some id) := by
  unfold enrol
  dsimp only
  split
  case h_1 hnone =>
    refine ⟨fun _ _ => rfl, fun h => h.resolve_right fun ⟨e, he, hjoin⟩ => ?_⟩
    exact List.find?_eq_none.mp hnone e he hjoin
  case h_2 e _ =>
    refine ⟨fun z hz => (group_withGroup ..).trans (if_neg hz), fun _ => ?_⟩
    rw [group_withGroup_same, setId_of_shifts ((shifts_advance ..).trans (shifts_choose _))]

theorem canJoin_enrol {s : State} {c id : Nat} {k : Core} {y z : Nat} (h : canJoin id (k.group z)) :
    canJoin id ((enrol s c id k y).group z) := by
  obtain ⟨hothers, hjoins⟩ := group_enrol s c id k y
  by_cases hz : z = y
  · subst hz; exact .inl (hjoins h)
  · rw [hothers z hz]; exact h

theorem setId_enrol {s : State} {c id : Nat} {k : Core} {y z : Nat} (h : (k.group z).setId = some id) :
    ((enrol s c id k y).group z).setId = some id := by
  obtain ⟨hothers, hjoins⟩ := group_enrol s c id k y
  by_cases hz : z = y
  · subst hz; exact hjoins (.inl h)
  · rw [hothers z hz]; exact h

/-- Every group that is enrolled becomes a member. -/
theorem setId_foldl_enrol {s : State} {c id z : Nat} (ys : List Nat) : ∀ k : Core,
    (k.group z).setId = some id ∨ z ∈ ys ∧ canJoin id (k.group z) → ((ys.foldl (enrol s c id) k).group z).setId = some id := by
  induction ys with
  | nil => exact fun k h => h.resolve_right (by simp)
  | cons y ys ih =>
    intro k h
    refine ih (enrol s c id k y) ?_
    obtain h | ⟨hz, h⟩ := h
    · exact .inl (setId_enrol h)
    · obtain rfl | hz := List.mem_cons.mp hz
      · exact .inl ((group_enrol s c id k z).2 h)
      · exact .inr ⟨hz, canJoin_enrol h⟩

theorem canJoin_of_mem_joiners {k : Core} {b id : Nat} {j : Nat × Nat} (h : j ∈ joiners k b id) : canJoin id (k.group j.1) := by
  obtain ⟨y, -, hy⟩ := List.mem_filterMap.mp h
  split at hy
  case isFalse => cases hy
  obtain ⟨e, he, hjoin⟩ := List.exists_of_findSome?_eq_some hy
  split at hjoin
  case h_2 => cases hjoin
  case h_1 hpark =>
    split at hjoin
    case isFalse => cases hjoin
    cases hjoin
    exact .inr ⟨e, he, by simp [isJoining, hpark]⟩

/-- The state in which the waiting groups and slot `x` have become a set. -/
def setFormed (s : State) (c x id : Nat) (js : List (Nat × Nat)) : State :=
  updCore s c (fun k =>
    let k1 := (js.map (·.1)).foldl (enrol s c id) k
    k1.withGroup x { k1.group x with setId := some id })

theorem setId_setFormed {s : State} {c x b id : Nat} :
    (getGroup (setFormed s c x id (joiners (getCore s c) b id)) c x).setId = some id ∧
    ∀ j ∈ joiners (getCore s c) b id, (getGroup (setFormed s c x id (joiners (getCore s c) b id)) c j.1).setId = some id := by
  unfold getGroup setFormed
  rw [getCore_updCore_same]
  refine ⟨by rw [group_withGroup_same], fun j hj => ?_⟩
  rw [group_withGroup]
  split
  · rfl
  · exact setId_foldl_enrol _ _ (.inr ⟨List.mem_map_of_mem hj, canJoin_of_mem_joiners hj⟩)

/-- At group scope the one member stands in the issuing slot. -/
theorem xs_of_group {op : Nat} {f : Fields} {q : Issue} (h : Ready op f q) (hs : f.scope = .group) : q.xs = [q.ctx] := by
  have hg := h.gathers
  rw [if_neg (by simp [hs])] at hg
  obtain ⟨-, hxs, -⟩ := hg
  rw [hxs, hs]
  rfl

theorem slot_memberOf (s : State) (c : Nat) (f : Fields) (pc : Dword) (wide : Bool) (x : Nat) :
    (memberOf s c f pc wide x).slot = x := by
  unfold memberOf
  split <;> rfl

/-- SETJOIN's tests, in order. -/
theorem performSetjoin_of_ready {f : Fields} {q : Issue} (hx : q.executes f) (hs : f.scope = .group) (h : Ready 0x1C1 f q) :
    let k := getCore q.s1 q.core
    let id := setjoinId f
    let n := setjoinCount f
    let js := joiners k (k.group q.ctx).block id
    let sm := fun code => Res.trap false
      { cls := 3, info := smInfo code id .group 0 0, pc := q.e.pc, slots := [q.ctx], origin := q.ctx } q.s1
    performSetjoin f q.e.pc (q.members f) q.s1 =
      if (k.group q.ctx).setId.isSome then sm 2
      else if (slotsOf k).any (fun y => (k.group y).block == (k.group q.ctx).block && (k.group y).setId == some id) then sm 3
      else if js.any (fun j => j.2 != n) then sm 4
      else if js.length + 1 = n then .ok (setFormed q.s1 q.core q.ctx id js)
      else .park false (.join id n) q.s1 := by
  have hhead : ((q.members f).head?.map (·.slot)).getD 0 = q.ctx := by simp [Issue.members, xs_of_group h hs, slot_memberOf]
  have hsome : noExec (q.members f) = false := hx
  unfold performSetjoin
  simp only [hhead, core_of_ready h, hsome, hs]
  rfl

/-- Settles O26: SYNC queues a release at each member in turn; SETJOIN goes through its tests in order, and enrols the groups that
wait; a rendezvous that is complete issues as an arrival's does. -/
theorem synchronisation : Obligations.synchronisation := by
  unfold Obligations.synchronisation
  refine ⟨fun f q hx => ⟨fun h => ?_, fun hs h => ?_, fun h => ?_⟩,
    fun s s1 c x pc e i op f body hfind hstop hmay hlook hop hf hbody hrdv hfree => ?_⟩
  · have hsome : noExec (q.members f) = false := hx
    obtain ⟨u, hu⟩ := Option.isSome_iff_exists.mp h.slot
    obtain ⟨t, htake, honly, hkept, hqueued⟩ := syncMembers_eq q.s1 q.core ((q.members f).map (·.slot))
    refine ⟨t, ?_, honly, fun y => ?_, fun m hm => ?_⟩
    · change issue 0x1C0 f (performSync f) q.s = _
      rw [issue_of_ready _ h, performSync, hsome, core_of_ready h]
      change Host.Outcome.next (q.onward f _) = _
      rw [Issue.onward, Issue.onward, Issue.used, Issue.used, hu, htake]
    · obtain ⟨⟨hregs, hfront, hpend, hhandles, hflags⟩, hstoreq⟩ := hkept y
      exact ⟨hregs, hfront, hpend, hhandles, hflags, fun hy => hstoreq (by simpa using hy)⟩
    · obtain ⟨it, hit, hkind, hrel, hlanes, hwaits⟩ := hqueued m.slot (List.mem_map_of_mem hm)
      exact ⟨it, hit, hkind, hrel, hlanes, by rw [hwaits, loadsOf, List.flatMap_map]⟩
  · intro id n g js formed sm
    have hexec : exec (.setjoin f) q.s = .next (settled q f (performSetjoin f q.e.pc (q.members f) q.s1)) := issue_of_ready _ h
    rw [performSetjoin_of_ready hx hs h] at hexec
    refine ⟨fun h1 => ?_, fun h1 h2 => ?_, fun h1 h2 h3 => ?_, fun h1 h2 h3 => ?_⟩
    · rw [if_pos (Option.isSome_iff_ne_none.mpr h1)] at hexec
      exact hexec
    · rw [if_neg (by simpa using h1), if_pos h2] at hexec
      exact hexec
    · rw [if_neg (by simpa using h1), if_neg (Bool.eq_false_iff.mp h2), if_pos (by simpa using h3)] at hexec
      exact hexec
    · rw [if_neg (by simpa using h1), if_neg (Bool.eq_false_iff.mp h2), if_neg (by simpa using h3)] at hexec
      refine ⟨fun hn => ?_, fun hn => ⟨_, ?_, setId_setFormed⟩⟩
      · rw [if_neg hn] at hexec
        exact hexec
      · rw [if_pos hn] at hexec
        exact hexec
  · have hsome : noExec (q.members f) = false := hx
    change issue 0x1C2 f (performSetleave f) q.s = _
    have hfold := (foldl_at_cur (step := fun c s m => updGroup s c m.slot (fun g => { g with setId := none })) (fun _ _ _ => rfl)
      (q.members f) q.s1).1
    rw [issue_of_ready _ h, performSetleave, hsome, hfold, core_of_ready h]
    rfl
  · change execRendezvousComplete c x pc s = _
    unfold execRendezvousComplete
    simp [hfind, hstop, hmay, hlook, hop, hf, hbody, hrdv, hfree]

end Sys2Proof.Proofs
end

section
/-! PROOFS. Blocks that are placed on cores (O49): what a step does in one core, and BLOCK_PLACE. -/

namespace Sys2Proof.Proofs
open Sys2Proof Sys2Proof.Machine Sys2Proof.Safety Sys2Proof.Laws

/-! ### A step in one core -/

/-- Memory and the other cores are as they were. -/
structure AtCore (c : Nat) (s t : State) : Prop where
  mem    : t.mem = s.mem
  others : ∀ d, d ≠ c → getCore t d = getCore s d

theorem AtCore.refl (c : Nat) (s : State) : AtCore c s s := ⟨rfl, fun _ _ => rfl⟩

theorem AtCore.trans {c : Nat} {s t u : State} (h1 : AtCore c s t) (h2 : AtCore c t u) : AtCore c s u :=
  ⟨h2.mem.trans h1.mem, fun d hd => (h2.others d hd).trans (h1.others d hd)⟩

theorem atCore_updCore (s : State) (c : Nat) (h : Core → Core) : AtCore c s (updCore s c h) :=
  ⟨rfl, fun _ hd => getCore_updCore_ne s h hd⟩

theorem atCore_of_cores {c : Nat} {s t : State} (hmem : t.mem = s.mem) (hcores : t.cores = s.cores) : AtCore c s t :=
  ⟨hmem, fun d _ => by rw [getCore, hcores]; rfl⟩

theorem atCore_of_onlyCore {c : Nat} {s t : State} (h : onlyCore c s t) : AtCore c s t :=
  ⟨by rw [h.1], h.2⟩

/-- Steps that each act in a core of their own: each finds its core as it was, and the others leave what it did. -/
theorem foldl_atCores {α : Type} {step : State → α → State} {core : α → Nat} {P : α → Core → Core → Prop} {as : List α}
    (hdistinct : (as.map core).Nodup)
    (hstep : ∀ s, ∀ a ∈ as, AtCore (core a) s (step s a) ∧ P a (getCore s (core a)) (getCore (step s a) (core a))) (s : State) :
    (as.foldl step s).mem = s.mem ∧ (∀ d, d ∉ as.map core → getCore (as.foldl step s) d = getCore s d) ∧
    ∀ a ∈ as, P a (getCore s (core a)) (getCore (as.foldl step s) (core a)) := by
  induction as generalizing s with
  | nil => exact ⟨rfl, fun _ _ => rfl, by simp⟩
  | cons a as ih =>
    obtain ⟨hnot, hrest⟩ := List.nodup_cons.mp hdistinct
    obtain ⟨hat, hP⟩ := hstep s a List.mem_cons_self
    obtain ⟨hmem, hothers, hall⟩ := ih hrest (fun s b hb => hstep s b (List.mem_cons_of_mem _ hb)) (step s a)
    refine ⟨hmem.trans hat.mem, fun d hd => ?_, fun b hb => ?_⟩
    · rw [List.map_cons, List.mem_cons, not_or] at hd
      exact (hothers d hd.2).trans (hat.others d hd.1)
    · obtain rfl | hb := List.mem_cons.mp hb
      · rw [List.foldl_cons, hothers _ hnot]
        exact hP
      · have hne : core b ≠ core a := fun he => hnot (he ▸ List.mem_map_of_mem hb)
        have hb' := hall b hb
        rwa [hat.others _ hne] at hb'

/-! ### Allotments and groups of a block (R240, R242) -/

theorem allocList_eq {x w : Nat} (bs : List Nat) : ∀ {k k1 : Core} {pos : Nat}, allocList k x w pos bs = some k1 →
    k1 = { k with alloc := k1.alloc, moving := k1.moving } := by
  induction bs with
  | nil => intro k k1 pos h; cases h; rfl
  | cons b bs ih =>
    intro k k1 pos h
    unfold allocList at h
    split at h
    case h_1 => cases h
    case h_2 k2 hblock =>
      have h2 := ih h
      rw [allocBlock_eq hblock] at h2
      exact h2

/-- A core in which a group is allotted its registers and stands at a slot. -/
def allotted (k : Core) (x w : Nat) (bs : List Nat) (g : Group) : Core := ((allocList k x w 0 bs).getD k).withGroup x g

/-- What becomes of a core when groups are put at slots of it. -/
def KeepsBlocks (k k' : Core) : Prop := k' = { k with groups := k'.groups, alloc := k'.alloc, moving := k'.moving }

theorem KeepsBlocks.trans {k k1 k2 : Core} (h1 : KeepsBlocks k k1) (h2 : KeepsBlocks k1 k2) : KeepsBlocks k k2 := by
  unfold KeepsBlocks at h2 ⊢
  rw [h1] at h2
  exact h2

theorem allotted_keeps (k : Core) (x w : Nat) (bs : List Nat) (g : Group) :
    KeepsBlocks k (allotted k x w bs g) ∧ ∀ y, (allotted k x w bs g).group y = if y = x then g else k.group y := by
  have halloc : (allocList k x w 0 bs).getD k =
      { k with alloc := ((allocList k x w 0 bs).getD k).alloc, moving := ((allocList k x w 0 bs).getD k).moving } := by
    cases h : allocList k x w 0 bs with
    | none => rfl
    | some k1 => exact allocList_eq bs h
  unfold allotted
  refine ⟨?_, fun y => ?_⟩
  · rw [halloc]; rfl
  · rw [group_withGroup, halloc]; rfl

/-- Groups put at slots of a core, one by one, where a slot that occurs again gets the same group. -/
theorem foldl_allotted {α : Type} {step : Core → α → Core} {slot : α → Nat} {group : α → Group} {as : List α}
    (hstep : ∀ k a, ∃ w bs, step k a = allotted k (slot a) w bs (group a)) (k : Core)
    (hsame : ∀ a ∈ as, ∀ b ∈ as, slot a = slot b → group a = group b) :
    KeepsBlocks k (as.foldl step k) ∧ ∀ y g, (y ∉ as.map slot ∧ k.group y = g) ∨ (∃ a ∈ as, slot a = y ∧ group a = g) →
      (as.foldl step k).group y = g := by
  induction as generalizing k with
  | nil => exact ⟨rfl, fun y g h => (h.resolve_right (by simp)).2⟩
  | cons a as ih =>
    obtain ⟨w, bs, ha⟩ := hstep k a
    obtain ⟨hkeep, hgroup⟩ := allotted_keeps k (slot a) w bs (group a)
    rw [← ha] at hkeep hgroup
    obtain ⟨hkeeps, hall⟩ := ih (step k a) fun b hb d hd => hsame b (List.mem_cons_of_mem _ hb) d (List.mem_cons_of_mem _ hd)
    refine ⟨hkeep.trans hkeeps, fun y g h => hall y g ?_⟩
    by_cases hy : y ∈ as.map slot
    · obtain ⟨b, hb, rfl⟩ := List.mem_map.mp hy
      obtain ⟨hnot, -⟩ | ⟨d, hd, hslot, rfl⟩ := h
      · exact absurd (List.mem_cons_of_mem _ hy) hnot
      · exact .inr ⟨b, hb, rfl, hsame b (List.mem_cons_of_mem _ hb) d hd hslot.symm⟩
    · refine .inl ⟨hy, ?_⟩
      rw [hgroup]
      obtain ⟨hnot, rfl⟩ | ⟨d, hd, rfl, rfl⟩ := h
      · rw [if_neg fun he => hnot (by rw [he]; exact List.mem_cons_self)]
      · obtain rfl | hd := List.mem_cons.mp hd
        · rw [if_pos rfl]
        · exact absurd (List.mem_map_of_mem hd) hy

/-! ### BLOCK_PLACE (R307, R309) -/

/-- The split of a core's scratchpad changes no block and no group (R260). -/
theorem setNspm_keeps (s : State) (c n : Nat) :
    AtCore c s (setNspm s c n) ∧     ∃ l1, getCore (setNspm s c n) c = { getCore s c with nspm := n, l1 := l1 } := by
  unfold setNspm
  dsimp only
  split
  case isTrue hn => exact ⟨AtCore.refl .., _, by rw [hn]⟩
  case isFalse =>
    have hzero : AtCore c s (zeroBanks s c (min n (getCore s c).nspm) (max n (getCore s c).nspm)) := atCore_of_cores rfl rfl
    exact ⟨hzero.trans (atCore_updCore ..), _, getCore_updCore_same ..⟩

/-- The groups of a launch on the free slots of a core. -/
def placePlan (k : Core) (la : Launch) : List ((Nat × Nat × RoleSpec) × Nat) :=
  ((freeSlots k).zip (groupPlan la.roles)).zipIdx

theorem nodup_map_fst_zip {α β : Type} {l : List α} (h : l.Nodup) (r : List β) : ((l.zip r).map (·.1)).Nodup := by
  induction l generalizing r with
  | nil => simp
  | cons a l ih =>
    cases r with
    | nil => simp
    | cons b r =>
      obtain ⟨ha, hl⟩ := List.nodup_cons.mp h
      refine List.nodup_cons.mpr ⟨fun hmem => ha ?_, ih hl r⟩
      obtain ⟨p, hp, rfl⟩ := List.mem_map.mp hmem
      exact (List.of_mem_zip hp).1

theorem placePlan_nodup (k : Core) (la : Launch) : ((placePlan k la).map (·.1.1)).Nodup := by
  have hfree : (freeSlots k).Nodup := List.nodup_range.filter _
  have hslots := nodup_map_fst_zip hfree (groupPlan la.roles)
  rw [← List.zipIdx_map_fst 0 ((freeSlots k).zip _), List.map_map] at hslots
  exact hslots

theorem mem_placePlan {k : Core} {la : Launch} {i x role : Nat} {r : RoleSpec} (hx : (freeSlots k)[i]? = some x)
    (hr : (groupPlan la.roles)[i]? = some (role, r)) : ((x, role, r), i) ∈ placePlan k la :=
  List.mem_zipIdx_iff_getElem?.mpr (List.getElem?_zip_eq_some.mpr ⟨hx, hr⟩)

/-- A core on which a block of the launch is placed. -/
def PlacedAt (la : Launch) (k k' : Core) : Prop :=
  (∃ b, b < 4 ∧ blockOf k b = none ∧ blockOf k' b = some ⟨la.id, la.karg, la.bank0, la.banks, la.nspm⟩ ∧
    ∀ (i x role : Nat) (r : RoleSpec), (freeSlots k)[i]? = some x → (groupPlan la.roles)[i]? = some (role, r) →
      let g := k'.group x
      g.live = true ∧ g.block = b ∧ g.role = role ∧ g.wd = r.wd ∧ g.allot = r.sizes ∧ g.tlevel = r.tl ∧ g.regs = [] ∧
      g.frontier = [{ pc := la.base + BitVec.ofNat 64 r.entry, mask := laneMask (8 * 2 ^ r.wd) }]) ∧ k'.nspm = la.nspm

/-- The core with a block of the launch at index `b`, its groups born at `born`. -/
def placing (la : Launch) (b born : Nat) (k : Core) : Core :=
  let k1 := (placePlan k la).foldl (addGroup la b born) k
  { k1 with ibuf := [], blocks := mset none k1.blocks b (some ⟨la.id, la.karg, la.bank0, la.banks, la.nspm⟩) }

theorem placeBlock_eq (s : State) (la : Launch) (c : Nat) : placeBlock s la c =
    updLaunch (updCore { setNspm s c la.nspm with serial := s.serial + 1 } c
      (placing la ((freeBlockIndex (getCore s c)).getD 0) s.serial)) la.id
      (fun l => { l with waitCores := l.waitCores.filter (· != c) }) := rfl

theorem atCore_updLaunch (s : State) (c n : Nat) (h : Launch → Launch) : AtCore c s (updLaunch s n h) := atCore_of_cores rfl rfl

theorem atCore_placeBlock (s : State) (la : Launch) (c : Nat) : AtCore c s (placeBlock s la c) := by
  obtain ⟨hat, -⟩ := setNspm_keeps s c la.nspm
  have hserial : AtCore c (setNspm s c la.nspm) { setNspm s c la.nspm with serial := s.serial + 1 } := atCore_of_cores rfl rfl
  rw [placeBlock_eq]
  exact ((hat.trans hserial).trans (atCore_updCore ..)).trans (atCore_updLaunch ..)

theorem getCore_placeBlock (s : State) (la : Launch) (c : Nat) : ∃ l1, getCore (placeBlock s la c) c =
    placing la ((freeBlockIndex (getCore s c)).getD 0) s.serial { getCore s c with nspm := la.nspm, l1 := l1 } := by
  obtain ⟨-, l1, hcore⟩ := setNspm_keeps s c la.nspm
  refine ⟨l1, ?_⟩
  rw [← hcore, placeBlock_eq]
  exact getCore_updCore_same { setNspm s c la.nspm with serial := s.serial + 1 } c _

theorem placedAt_placeBlock {s : State} (la : Launch) {c : Nat} (h : (freeBlockIndex (getCore s c)).isSome = true) :
    PlacedAt la (getCore s c) (getCore (placeBlock s la c) c) := by
  obtain ⟨b, hb⟩ := Option.isSome_iff_exists.mp h
  have hnone : blockOf (getCore s c) b = none := by simpa using List.find?_some hb
  obtain ⟨l1, hcore⟩ := getCore_placeBlock s la c
  rw [hb, Option.getD_some] at hcore
  have hplan := fun k => foldl_allotted (as := placePlan k la) (step := addGroup la b s.serial) (slot := fun q => q.1.1)
    (group := fun q => newGroup la b q.1.2.1 q.2 s.serial q.1.2.2) (fun k q => ⟨_, _, rfl⟩) k
    (fun p hp q hq heq => by rw [List.inj_on_of_nodup_map (placePlan_nodup k la) hp hq heq])
  obtain ⟨hkeeps, hgroups⟩ := hplan { getCore s c with nspm := la.nspm, l1 := l1 }
  rw [hcore]
  refine ⟨⟨b, by simpa using List.mem_of_find?_eq_some hb, hnone, ?_, fun i x role r hx hr => ?_⟩, ?_⟩
  · rw [blockOf, placing, mget_mset_same]
  · rw [show (placing la b s.serial _).group x = newGroup la b role i s.serial r from
      hgroups x _ (.inr ⟨((x, role, r), i), mem_placePlan hx hr, rfl, rfl⟩)]
    exact ⟨rfl, rfl, rfl, rfl, rfl, rfl, rfl, rfl⟩
  · rw [placing, hkeeps]

/-- The journal entry of a launch that has started changes no core and no byte of memory (R309). -/
theorem noteStarted_keeps (s : State) (id : Nat) : (noteStarted s id).mem = s.mem ∧ (noteStarted s id).cores = s.cores := by
  unfold noteStarted
  split
  · exact ⟨rfl, rfl⟩
  · split <;> exact ⟨rfl, rfl⟩

/-- The cores of a cluster. -/
theorem mem_cluster {c d : Nat} : d ∈ (List.range 4).map (c / 4 * 4 + ·) ↔ d / 4 = c / 4 := by
  simp only [List.mem_map, List.mem_range]
  constructor
  · rintro ⟨i, hi, rfl⟩
    omega
  · intro h
    exact ⟨d % 4, by omega, by omega⟩

/-- The cores on which a block of a launch, or its gang's blocks, would stand. -/
def placeCores (la : Launch) (c : Nat) : List Nat := if la.gang then (List.range 4).map (c / 4 * 4 + ·) else [c]

theorem placeCores_nodup (la : Launch) (c : Nat) : (placeCores la c).Nodup := by
  unfold placeCores
  split
  · exact List.nodup_range.map fun _ _ h => Nat.add_left_cancel h
  · exact List.nodup_singleton c

theorem execBlockPlace_eq {s : State} {id : Nat} {la : Launch} (c : Nat) (h : findLaunch s id = some la) :
    exec (.blockPlace id c) s = if (placeCores la c).all (fitsLaunch s la) then
      .next (noteStarted ((placeCores la c).foldl (fun s c => placeBlock s la c) s) id) else .next s := by
  change execBlockPlace id c s = _
  unfold execBlockPlace
  rw [h]
  rfl

/-- The blocks of a launch placed on cores that have room. -/
theorem foldl_placeBlock {s : State} {la : Launch} {c n : Nat} (hfits : (placeCores la c).all (fitsLaunch s la) = true) :
    let t := noteStarted ((placeCores la c).foldl (fun s c => placeBlock s la c) s) n
    t.mem = s.mem ∧ (∀ d, d ∉ placeCores la c → getCore t d = getCore s d) ∧
    ∀ d ∈ placeCores la c, PlacedAt la (getCore s d) (getCore t d) := by
  intro t
  obtain ⟨hmem, hcores⟩ := noteStarted_keeps ((placeCores la c).foldl (fun s c => placeBlock s la c) s) n
  have hget : ∀ d, getCore t d = getCore ((placeCores la c).foldl (fun s c => placeBlock s la c) s) d := fun d => by
    rw [getCore, hcores]; rfl
  obtain ⟨hmem', hothers, hall⟩ := foldl_atCores (step := fun s c => placeBlock s la c) (core := fun d => d)
    (P := fun _ k k' => (freeBlockIndex k).isSome = true → PlacedAt la k k') (as := placeCores la c)
    (by rw [List.map_id']; exact placeCores_nodup la c)
    (fun s d _ => ⟨atCore_placeBlock s la d, fun h => placedAt_placeBlock la h⟩) s
  rw [List.map_id'] at hothers
  refine ⟨hmem.trans hmem', fun d hd => (hget d).trans (hothers d hd), fun d hd => ?_⟩
  rw [hget]
  refine hall d hd ?_
  have hfit := List.all_eq_true.mp hfits d hd
  simp only [fitsLaunch, Bool.and_eq_true] at hfit
  exact hfit.1.2

end Sys2Proof.Proofs
end

section
/-! PROOFS. Groups and launches that end (O49). -/

namespace Sys2Proof.Proofs
open Sys2Proof Sys2Proof.Machine Sys2Proof.Safety Sys2Proof.Laws

/-! ### Requests that are granted when units become free (R245) -/

/-- What becomes of the state when waiting GROW requests of core `c` are granted. -/
structure Grants (c : Nat) (s t : State) : Prop where
  only   : onlyCore c s t
  asked  : ∀ w ∈ (getCore t c).growq, w ∈ (getCore s c).growq
  groups : ∀ y, (∀ w ∈ (getCore s c).growq, w.ctx ≠ y) → getGroup t c y = getGroup s c y
  block  : ∀ y, (getGroup t c y).block = (getGroup s c y).block
  blocks : (getCore t c).blocks = (getCore s c).blocks
  slots  : ∀ y ∈ slotsOf (getCore t c), y ∈ slotsOf (getCore s c)

theorem Grants.refl (c : Nat) (s : State) : Grants c s s :=
  ⟨onlyCore_refl c s, fun _ h => h, fun _ _ => rfl, fun _ => rfl, rfl, fun _ h => h⟩

theorem Grants.trans {c : Nat} {s t u : State} (h1 : Grants c s t) (h2 : Grants c t u) : Grants c s u where
  only := onlyCore_trans h1.only h2.only
  asked w hw := h1.asked w (h2.asked w hw)
  groups y hy := (h2.groups y fun w hw => hy w (h1.asked w hw)).trans (h1.groups y hy)
  block y := (h2.block y).trans (h1.block y)
  blocks := h2.blocks.trans h1.blocks
  slots y hy := h1.slots y (h2.slots y hy)

/-- The core in which one request has its units has the same blocks, and no more slots. -/
theorem growGroup_keeps {k k1 : Core} {x n : Nat} (h : growGroup k x n = some k1) :
    k1.blocks = k.blocks ∧ (∀ y, (k1.group y).block = (k.group y).block) ∧ ∀ y ∈ slotsOf k1, y ∈ slotsOf k := by
  refine ⟨?_, fun y => ?_, fun y hy => ?_⟩
  · obtain ⟨alloc, moving, rfl⟩ := growGroup_eq h
    rfl
  · rw [growGroup_group h]
    split
    case isTrue hy => rw [hy]; rfl
    case isFalse => rfl
  · obtain ⟨alloc, moving, rfl⟩ := growGroup_eq h
    refine mem_slotsOf_of_withGroup (k := { k with alloc := alloc, moving := moving }) (x := x) ?_ hy
    exact fun hl => hl

theorem granted_lists (s : State) (c : Nat) (k1 : Core) (r : GrowReq) (rest : List GrowReq) :
    (getCore (granted s c k1 r rest) c).blocks = k1.blocks ∧ ∀ y ∈ slotsOf (getCore (granted s c k1 r rest) c), y ∈ slotsOf k1 := by
  have hset : getCore (setCore s c { k1 with growq := rest }) c = { k1 with growq := rest } := by
    rw [getCore_setCore, if_pos rfl]
  obtain ⟨-, hcore, -, -, hslots⟩ :=
    stateWrites_statusNow (setCore s c { k1 with growq := rest }) c r.ctx (BitVec.ofNat 10 r.d) r.mask 0
  rw [hset] at hcore hslots
  exact ⟨by rw [granted, hcore], hslots⟩

theorem block_of_shifts {g h : Group} (hs : Shifts g h) : h.block = g.block := by rw [hs]

theorem grants_granted {s : State} {c : Nat} {r : GrowReq} {rest : List GrowReq} {k1 : Core}
    (hq : (getCore s c).growq = r :: rest) (hk : growGroup (getCore s c) r.ctx r.size = some k1) :
    Grants c s (releaseHold (granted s c k1 r rest) c r.ctx none) := by
  obtain ⟨honly, hgrowq, -, -, hothers⟩ := releaseHold_granted rest hk
  obtain ⟨-, hshifts, -, hcore⟩ := releaseHold_keeps (granted s c k1 r rest) c r.ctx none
  obtain ⟨-, -, hwrites, -⟩ := granted_keeps rest hk
  obtain ⟨hblocks, hblock, hslots⟩ := growGroup_keeps hk
  obtain ⟨hblocks', hslots'⟩ := granted_lists s c k1 r rest
  refine ⟨honly, fun w hw => ?_, fun y hy => ?_, fun y => ?_, ?_, fun y hy => ?_⟩
  · rw [hq]
    exact List.mem_cons_of_mem _ (hgrowq ▸ hw)
  · exact hothers y fun he => hy r (hq ▸ List.mem_cons_self) he.symm
  · by_cases hy : y = r.ctx
    · subst hy
      obtain ⟨-, hb, -⟩ := hwrites.keeps
      exact (block_of_shifts hshifts).trans (hb.trans (hblock _))
    · rw [hothers y hy]
  · rw [hcore]
    exact hblocks'.trans hblocks
  · rw [releaseHold_eq] at hy
    refine hslots y (hslots' y (mem_slotsOf_of_updGroup (fun hl => ?_) hy))
    obtain ⟨-, -, -, -, hlive⟩ := (shifts_released none (getGroup (granted s c k1 r rest) c r.ctx)).keeps
    exact hlive ▸ hl

theorem grants_grantGrow {s t : State} {c : Nat} (h : grantGrow s c = some t) : Grants c s t := by
  cases hq : (getCore s c).growq with
  | nil => rw [grantGrow_of_nil hq] at h; cases h
  | cons r rest =>
    cases hk : growGroup (getCore s c) r.ctx r.size with
    | none => rw [grantGrow_of_full hq hk] at h; cases h
    | some k1 =>
      rw [grantGrow_of_fits hq hk] at h
      cases h
      exact grants_granted hq hk

theorem grants_grantGrows (s : State) (c : Nat) : Grants c s (grantGrows s c) := by
  unfold grantGrows
  generalize (getCore s c).growq.length = n
  induction n generalizing s with
  | zero => exact Grants.refl ..
  | succ n ih =>
    rw [grantAll]
    split
    case h_1 => exact Grants.refl ..
    case h_2 t ht => exact (grants_grantGrow ht).trans (ih t)

/-! ### SLOT_RELEASE (R139, R145) -/

/-- A state in which core `c` has no block `b`. -/
def blockGone (s : State) (c b : Nat) : State := updCore s c (fun k => { k with blocks := mset none k.blocks b none })

/-- A block no group of which is left ends; another one goes on. -/
theorem endBlock_eq (s : State) (c b : Nat) :
    (endBlock s c b = s ∧ (blockOf (getCore s c) b = none ∨ ∃ y ∈ slotsOf (getCore s c), (getGroup s c y).block = b)) ∨
    ∃ n h, endBlock s c b = updLaunch (noteVacated (blockGone s c b) c) n h := by
  unfold endBlock
  split
  case h_1 hnone => exact .inl ⟨rfl, .inl hnone⟩
  case h_2 =>
    split
    case isTrue hleft => exact .inl ⟨rfl, .inr (by simpa using hleft)⟩
    case isFalse => exact .inr ⟨_, _, rfl⟩

/-- The rest of a block's end counts, and stands outside the cores. -/
theorem vacated_keeps (s : State) (c n : Nat) (h : Launch → Launch) :
    let t := updLaunch (noteVacated s c) n h
    t.mem = s.mem ∧ t.spm = s.spm ∧ ∀ d, getCore t d = getCore s d := ⟨rfl, rfl, fun _ => rfl⟩

theorem getCore_blockGone (s : State) (c b d : Nat) : getCore (blockGone s c b) d =
    if d = c then { getCore s c with blocks := mset none (getCore s c).blocks b none } else getCore s d :=
  getCore_updCore s c d (fun k => { k with blocks := mset none k.blocks b none })

theorem endBlock_keeps (s : State) (c b : Nat) : (endBlock s c b).mem = s.mem ∧ (endBlock s c b).spm = s.spm ∧
    (∀ d, d ≠ c → getCore (endBlock s c b) d = getCore s d) ∧
    ∃ blocks, getCore (endBlock s c b) c = { getCore s c with blocks := blocks } := by
  obtain ⟨h, -⟩ | ⟨n, h, hend⟩ := endBlock_eq s c b
  · rw [h]
    exact ⟨rfl, rfl, fun _ _ => rfl, (getCore s c).blocks, rfl⟩
  · obtain ⟨hmem, hspm, hcore⟩ := vacated_keeps (blockGone s c b) c n h
    rw [hend, hmem, hspm]
    refine ⟨updCore_mem .., updCore_spm .., fun d hd => ?_, mset none (getCore s c).blocks b none, ?_⟩
    · rw [hcore, getCore_blockGone, if_neg hd]
    · rw [hcore, getCore_blockGone, if_pos rfl]

/-- A block no group of which is left has ended. -/
theorem blockOf_endBlock {s : State} {c b : Nat} (h : ∀ y ∈ slotsOf (getCore s c), (getGroup s c y).block ≠ b) :
    blockOf (getCore (endBlock s c b) c) b = none := by
  obtain ⟨hend, hnone | ⟨y, hy, hb⟩⟩ | ⟨n, h, hend⟩ := endBlock_eq s c b
  · rw [hend, hnone]
  · exact absurd hb (h y hy)
  · obtain ⟨-, -, hcore⟩ := vacated_keeps (blockGone s c b) c n h
    rw [hend, hcore, getCore_blockGone, if_pos rfl, blockOf, mget_mset_same]

/-- The core without the group of slot `x`, whose accesses go on for the launch (R139). -/
def emptied (launch x : Nat) (k : Core) : Core := freeFrom ((outlive launch [x] k).withGroup x {}) x 0

theorem dropNotice_keeps (s : State) (t c x : Nat) :
    (dropNotice s t c x).mem = s.mem ∧ (dropNotice s t c x).spm = s.spm ∧ (dropNotice s t c x).cores = s.cores := by
  unfold dropNotice
  dsimp only
  split <;> exact ⟨rfl, rfl, rfl⟩

/-- What a group knows when its slot is released: its own writes, and those of its copies that are over. -/
def knownAt (s : State) (c x : Nat) : SMap Nat :=
  ((getCore s c).group x).dones.foldl (fun m q => mset 0 m (copyWriter q.2) q.2) (ownSeen c x s.serial ((getCore s c).group x))

theorem releaseSlot_eq (s : State) (c x : Nat) : releaseSlot s c x =
    grantGrows (updCore (dropNotice (updLaunch s (launchNumber (getCore s c) x)
      (fun l => { l with knows := joinSeen l.knows (knownAt s c x) })) (getCore s c).tid c x) c
      (fun k => emptied (launchNumber k x) x k)) c := rfl

theorem group_emptied (launch x : Nat) (k : Core) (y : Nat) : (emptied launch x k).group y = if y = x then {} else k.group y :=
  group_withGroup (outlive launch [x] k) x y {}

theorem mem_slotsOf_emptied {launch x y : Nat} {k : Core} (h : y ∈ slotsOf (emptied launch x k)) : y ≠ x ∧ y ∈ slotsOf k := by
  have hput : y ∈ slotsOf ((outlive launch [x] k).withGroup x {}) := h
  obtain hy | ⟨-, hlive, -⟩ := mem_slotsOf_withGroup hput
  · exact hy
  · cases hlive

/-- What a slot that is released leaves of its core. -/
theorem releaseSlot_keeps (s : State) (c x : Nat) :
    let t := releaseSlot s c x
    t.mem = s.mem ∧ t.spm = s.spm ∧ (∀ d, d ≠ c → getCore t d = getCore s d) ∧
    ((∀ w ∈ (getCore s c).growq, w.ctx ≠ x) → getGroup t c x = {}) ∧
    (∀ y, y ≠ x → (∀ w ∈ (getCore s c).growq, w.ctx ≠ y) → getGroup t c y = getGroup s c y) ∧
    ∀ y ∈ slotsOf (getCore t c), y ≠ x ∧ y ∈ slotsOf (getCore s c) ∧ (getGroup t c y).block = (getGroup s c y).block := by
  intro t
  have hrelease := releaseSlot_eq s c x
  generalize (fun l : Launch => { l with knows := joinSeen l.knows (knownAt s c x) }) = h at hrelease
  obtain ⟨hmem, hspm, hcores⟩ := dropNotice_keeps (updLaunch s (launchNumber (getCore s c) x) h) (getCore s c).tid c x
  have hrest := grants_grantGrows (updCore (dropNotice (updLaunch s (launchNumber (getCore s c) x) h) (getCore s c).tid c x) c
    (fun k => emptied (launchNumber k x) x k)) c
  rw [← hrelease] at hrest
  generalize dropNotice (updLaunch s (launchNumber (getCore s c) x) h) (getCore s c).tid c x = s1 at hmem hspm hcores hrest
  have hget : ∀ d, getCore s1 d = getCore s d := fun d => by rw [getCore, hcores]; rfl
  obtain ⟨⟨honly, hother⟩, -, hgroups, hblock, -, hslots⟩ := hrest
  simp only [getGroup, getCore_updCore_same, hget, group_emptied] at hgroups hblock hslots
  have hgrowq : (emptied (launchNumber (getCore s c) x) x (getCore s c)).growq = (getCore s c).growq := rfl
  rw [hgrowq] at hgroups
  refine ⟨?_, ?_, fun d hd => ?_, fun hx => ?_, fun y hy hw => ?_, fun y hy => ?_⟩
  · rw [show t.mem = _ from congrArg State.mem honly]; exact hmem
  · rw [show t.spm = _ from congrArg State.spm honly]; exact hspm
  · rw [show getCore t d = _ from hother d hd, getCore_updCore_ne _ _ hd, hget]
  · exact (hgroups x hx).trans (if_pos rfl)
  · exact (hgroups y hw).trans (if_neg hy)
  · obtain ⟨hyx, hmem⟩ := mem_slotsOf_emptied (hslots y hy)
    exact ⟨hyx, hmem, (hblock y).trans (congrArg Group.block (if_neg hyx))⟩

end Sys2Proof.Proofs
end

section
/-! PROOFS. Launches that end: LAUNCH_COMPLETE and FIRMWARE_END_LAUNCH (O49). -/

namespace Sys2Proof.Proofs
open Sys2Proof Sys2Proof.Machine Sys2Proof.Safety Sys2Proof.Laws

/-! ### LAUNCH_COMPLETE (R302, R310) -/

/-- A state without a launch. -/
def withoutLaunch (s : State) (id : Nat) : State := { s with launches := s.launches.filter (fun l => l.id != id) }

theorem findLaunch_withoutLaunch (s : State) (id : Nat) : findLaunch (withoutLaunch s id) id = none := by
  simp [findLaunch, withoutLaunch]

/-- What a launch that ends leaves: the journal has an entry for its end, unless it has one already. -/
def Ends (s : State) (id : Nat) (la : Launch) (type code : Nat) (r : Host.Outcome State Fault Refusal) : Prop :=
  (la.inJournal = true → r = .next (withoutLaunch s id)) ∧
  (la.inJournal = false → ∃ t, r = .next t ∧ findLaunch t id = none ∧
    mget [] t.hub.journal (s.hub.jhead.toNat % 65536) =
      withCrc (journalBody s.hub.jhead type la.qslot la.tenant la.pos code (hubCount s 3) 0) ∧ t.mem = s.mem)

theorem ends_journalWrite {s u : State} {id : Nat} {la : Launch} (type code : Nat) (hlaunches : u.launches = (withoutLaunch s id).launches)
    (hhead : u.hub.jhead = s.hub.jhead) (hcount : hubCount u 3 = hubCount s 3) (hmem : u.mem = s.mem) :
    Ends s id la type code
      (.next (if la.inJournal then withoutLaunch s id else journalWrite u type la.qslot la.tenant la.pos code 0)) := by
  refine ⟨fun hj => by rw [if_pos hj], fun hj => ⟨_, rfl, ?_, ?_, ?_⟩⟩
  all_goals rw [if_neg (by simp [hj])]
  · have hnone := findLaunch_withoutLaunch s id
    rw [findLaunch, ← hlaunches] at hnone
    exact hnone
  · rw [journalWrite, setHub_hub, hhead, hcount]
    dsimp only
    rw [mget_mset_same]
  · exact hmem

/-- Nothing precedes a launch at its queue slot (R302). -/
def Unpreceded (s : State) (la : Launch) : Prop :=
  earlierOf s la = [] ∧ ∀ p ∈ openPositions s la.qslot la.tenant, posBefore p la.pos = false

/-- All blocks of a launch have ended (R310). -/
def AllEnded (s : State) (id : Nat) (la : Launch) : Prop :=
  la.waitCores = [] ∧ blocksOf s id = [] ∧ (∀ v ∈ s.saved, v.launch ≠ id) ∧ launchQuiet s la = true

section
variable {s : State} {id : Nat} {la : Launch} (h : findLaunch s id = some la)
include h

theorem execLaunchComplete_barrier (hb : la.barrier = true) :
    (Unpreceded s la → Ends s id la 3 0 (exec (.launchComplete id) s)) ∧
    (¬ Unpreceded s la → exec (.launchComplete id) s = .next s) := by
  have htest : ((earlierOf s la).isEmpty && (openPositions s la.qslot la.tenant).all (fun p => !posBefore p la.pos)) = true ↔
      Unpreceded s la := by simp [Unpreceded]
  have hexec : exec (.launchComplete id) s =
      if (earlierOf s la).isEmpty && (openPositions s la.qslot la.tenant).all (fun p => !posBefore p la.pos) then
        .next (if la.inJournal then withoutLaunch s id else journalWrite (withoutLaunch s id) 3 la.qslot la.tenant la.pos 0 0)
      else .next s := by
    change execLaunchComplete id s = _
    unfold execLaunchComplete
    simp only [h, hb, if_true]
    rfl
  refine ⟨fun hfree => ?_, fun hfree => ?_⟩
  · rw [hexec, if_pos (htest.mpr hfree)]
    exact ends_journalWrite 3 0 rfl rfl rfl rfl
  · rw [hexec, if_neg (fun ht => hfree (htest.mp ht))]

theorem execLaunchComplete_blocks (hb : la.barrier = false) :
    (AllEnded s id la → la.endedBy = 0 → Ends s id la 3 0 (exec (.launchComplete id) s)) ∧
    (AllEnded s id la → la.endedBy ≠ 0 → Ends s id la 4 la.endedBy (exec (.launchComplete id) s)) ∧
    (¬ AllEnded s id la → exec (.launchComplete id) s = .next s) := by
  have htest : (!la.waitCores.isEmpty || !(blocksOf s id).isEmpty || s.saved.any (fun v => v.launch == id) ||
      !launchQuiet s la) = true ↔ ¬ AllEnded s id la := by
    rw [← Bool.not_eq_false, not_iff_not]
    simp [AllEnded, and_assoc]
  have hexec : exec (.launchComplete id) s =
      if !la.waitCores.isEmpty || !(blocksOf s id).isEmpty || s.saved.any (fun v => v.launch == id) || !launchQuiet s la then .next s
      else .next (if la.inJournal then withoutLaunch s id else
        journalWrite (tellJournal (withoutLaunch s id) la.knows) (if la.endedBy = 0 then 3 else 4) la.qslot la.tenant la.pos
          la.endedBy 0) := by
    change execLaunchComplete id s = _
    unfold execLaunchComplete
    simp only [h, hb, Bool.false_eq_true, if_false]
    split
    case isTrue => rfl
    case isFalse =>
      by_cases hj : la.inJournal = true
      · simp [hj, withoutLaunch]
      · by_cases h0 : la.endedBy = 0 <;> simp [hj, h0, withoutLaunch]
  refine ⟨fun hended h0 => ?_, fun hended h0 => ?_, fun hended => ?_⟩
  · rw [hexec, if_neg (fun ht => htest.mp ht hended), if_pos h0, h0]
    exact ends_journalWrite 3 0 rfl rfl rfl rfl
  · rw [hexec, if_neg (fun ht => htest.mp ht hended), if_neg h0]
    exact ends_journalWrite 4 la.endedBy rfl rfl rfl rfl
  · rw [hexec, if_pos (htest.mpr hended)]

end

/-! ### FIRMWARE_END_LAUNCH (R279, R310) -/

theorem mem_merase_of_ne {α : Type} {m : SMap α} {k : Nat} {q : Nat × α} (h : q ∈ m) (hq : q.1 ≠ k) : q ∈ merase m k := by
  induction m with
  | nil => cases h
  | cons p t ih =>
    rw [merase]
    obtain rfl | h := List.mem_cons.mp h
    · rw [if_neg hq]
      exact List.mem_cons_self
    · split
      · exact ih h
      · exact List.mem_cons_of_mem _ (ih h)

/-- A table keeps what it lists of the other keys when one is set. -/
theorem mem_mset_of_ne {α : Type} [DecidableEq α] {d : α} {m : SMap α} {k : Nat} {x : α} {q : Nat × α} (h : q ∈ m) (hq : q.1 ≠ k) :
    q ∈ mset d m k x := by
  unfold mset
  split
  · exact mem_merase_of_ne h hq
  · exact mem_mput.mpr (.inr (mem_merase_of_ne h hq))

theorem mem_slotsOf_withGroup_of_ne {k : Core} {x y : Nat} (g : Group) (h : y ∈ slotsOf k) (hy : y ≠ x) :
    y ∈ slotsOf (k.withGroup x g) := by
  obtain ⟨hlt, g', hmem, hlive⟩ := mem_slotsOf.mp h
  exact mem_slotsOf.mpr ⟨hlt, g', mem_mset_of_ne hmem hy, hlive⟩

/-- What a step at the slots `xs` of a core leaves of the group of another slot. -/
structure KeepsSlot (y : Nat) (k k' : Core) : Prop where
  group  : k'.group y = k.group y
  listed : y ∈ slotsOf k → y ∈ slotsOf k'

theorem KeepsSlot.trans {y : Nat} {k k1 k2 : Core} (h1 : KeepsSlot y k k1) (h2 : KeepsSlot y k1 k2) : KeepsSlot y k k2 :=
  ⟨h2.group.trans h1.group, fun h => h2.listed (h1.listed h)⟩

theorem keepsSlot_of_groups {y : Nat} {k k' : Core} (h : k'.groups = k.groups) : KeepsSlot y k k' :=
  ⟨by rw [Core.group, h]; rfl, by simp only [slotsOf, h]; exact fun h => h⟩

theorem keepsSlot_withGroup {k : Core} {x y : Nat} (g : Group) (hy : y ≠ x) : KeepsSlot y k (k.withGroup x g) :=
  ⟨(group_withGroup ..).trans (if_neg hy), fun h => mem_slotsOf_withGroup_of_ne g h hy⟩

theorem keepsSlot_updSlots {xs : List Nat} {h : Group → Group} {y : Nat} (hy : y ∉ xs) (k : Core) : KeepsSlot y k (updSlots k xs h) :=
  List.foldlRecOn xs _ (motive := KeepsSlot y k) ⟨rfl, fun h => h⟩ fun _ hk _ hx =>
    hk.trans (keepsSlot_withGroup _ fun he => hy (he ▸ hx))

/-- A group at one of the slots is as the update leaves some group. -/
theorem group_updSlots_of_mem {xs : List Nat} (h : Group → Group) {y : Nat} (hy : y ∈ xs) (k : Core) :
    ∃ g, (updSlots k xs h).group y = h g := by
  induction xs generalizing k with
  | nil => cases hy
  | cons x xs ih =>
    by_cases hmem : y ∈ xs
    · exact ih hmem (k.withGroup x (h (k.group x)))
    · obtain rfl := (List.mem_cons.mp hy).resolve_right hmem
      refine ⟨k.group y, (keepsSlot_updSlots hmem _).group.trans (group_withGroup_same ..)⟩

/-- No thread of the group is left. -/
def NoThread (g : Group) : Prop := g.frontier = [] ∧ g.homes = 0

/-- Where a frame that a context handles goes, the context ends. -/
theorem keepsSlot_endContext {y x : Nat} (hy : y ≠ x) (k : Core) (hit : Bool) {clear : Core → Core}
    (hgroups : ∀ k, (clear k).groups = k.groups) :
    KeepsSlot y k (if hit then clear (k.withGroup x (endContext (k.group x))) else k) := by
  split
  · exact (keepsSlot_withGroup _ hy).trans (keepsSlot_of_groups (hgroups _))
  · exact ⟨rfl, fun h => h⟩

theorem keepsSlot_dropFrames {y : Nat} (hy : y < handlerCtx) (k : Core) (xs : List Nat) : KeepsSlot y k (dropFrames k xs) := by
  have hH : y ≠ handlerCtx := by omega
  have hF : y ≠ firmwareCtx := by unfold handlerCtx at hy; unfold firmwareCtx; omega
  unfold dropFrames
  exact ((keepsSlot_endContext hH k _ (clear := fun k => { k with curH := none }) fun _ => rfl).trans
    (keepsSlot_endContext hF _ _ (clear := fun k => { k with curF := none }) fun _ => rfl)).trans (keepsSlot_of_groups rfl)

/-- The handles on matrix instructions that have not started go with their groups. -/
theorem dropUnstarted_keeps (s : State) (c : Nat) (xs : List Nat) :
    AtCore c s (dropUnstarted s c xs) ∧ (dropUnstarted s c xs).launches = s.launches ∧
    ∀ y, y ∉ xs → KeepsSlot y (getCore s c) (getCore (dropUnstarted s c xs) c) := by
  have hcores : ∀ ops reqs, AtCore c s { s with mxOps := ops, mxReqs := reqs } := fun _ _ => atCore_of_cores rfl rfl
  unfold dropUnstarted
  dsimp only
  refine ⟨(hcores _ _).trans (atCore_updCore ..), rfl, fun y hy => ?_⟩
  rw [getCore_updCore_same]
  exact keepsSlot_updSlots hy _

/-- A group all of whose threads end (R279). -/
def endedGroup (g : Group) : Group :=
  { g with frontier := [], running := none, homes := 0, stop := .run, rewait := [], loads := [], acqs := [], setId := none }

/-- The requests of a core's groups are dropped with their frames. -/
def dropRequests (xs : List Nat) (k : Core) : Core :=
  let k1 := dropFrames k xs
  { k1 with
    growq := k1.growq.filter (fun q => !xs.contains q.ctx), csrPend := k1.csrPend.filter (fun q => !xs.contains q.ctx),
    regroups := k1.regroups.filter (fun o => !o.slots.any (xs.contains ·)) }

theorem endGroups_eq (s : State) (c : Nat) (xs : List Nat) : endGroups s c xs =
    updCore (dropUnstarted s c xs) c (fun k => updSlots (dropRequests xs k) xs endedGroup) := rfl

theorem endGroups_keeps (s : State) (c : Nat) (xs : List Nat) :
    AtCore c s (endGroups s c xs) ∧ (endGroups s c xs).launches = s.launches ∧
    (∀ y ∈ xs, NoThread (getGroup (endGroups s c xs) c y)) ∧
    ∀ y, y ∉ xs → y < handlerCtx → KeepsSlot y (getCore s c) (getCore (endGroups s c xs) c) := by
  obtain ⟨hat, hlaunches, hkeeps⟩ := dropUnstarted_keeps s c xs
  rw [endGroups_eq]
  refine ⟨hat.trans (atCore_updCore ..), hlaunches, fun y hy => ?_, fun y hy hlt => ?_⟩
  · obtain ⟨g, hg⟩ := group_updSlots_of_mem endedGroup hy (dropRequests xs (getCore (dropUnstarted s c xs) c))
    rw [getGroup, getCore_updCore_same, hg]
    exact ⟨rfl, rfl⟩
  · have hdrop : KeepsSlot y (getCore (dropUnstarted s c xs) c) (dropRequests xs (getCore (dropUnstarted s c xs) c)) :=
      (keepsSlot_dropFrames hlt _ xs).trans (keepsSlot_of_groups rfl)
    rw [getCore_updCore_same]
    exact ((hkeeps y hy).trans hdrop).trans (keepsSlot_updSlots hy _)

theorem mem_blockSlots {k : Core} {b x : Nat} : x ∈ blockSlots k b ↔ x ∈ slotsOf k ∧ (k.group x).block = b := by
  simp [blockSlots]

/-- The groups of one block end. -/
def endBlockGroups (s : State) (q : Nat × Nat) : State := endGroups s q.1 (blockSlots (getCore s q.1) q.2)

theorem endBlockGroups_keeps (s : State) (q : Nat × Nat) :
    AtCore q.1 s (endBlockGroups s q) ∧ (endBlockGroups s q).launches = s.launches ∧
    (∀ y ∈ blockSlots (getCore s q.1) q.2, NoThread (getGroup (endBlockGroups s q) q.1 y)) ∧
    ∀ y, y ∉ blockSlots (getCore s q.1) q.2 → y < handlerCtx → KeepsSlot y (getCore s q.1) (getCore (endBlockGroups s q) q.1) :=
  endGroups_keeps s q.1 (blockSlots (getCore s q.1) q.2)

/-- What had ended has ended still; a group that stands in a block ends with it, and else stands there still. -/
theorem endBlockGroups_at {s : State} (p q : Nat × Nat) {x : Nat} (hx : x < handlerCtx) :
    (NoThread (getGroup s p.1 x) → NoThread (getGroup (endBlockGroups s q) p.1 x)) ∧
    (x ∈ blockSlots (getCore s p.1) p.2 → NoThread (getGroup (endBlockGroups s q) p.1 x) ∨
      p ≠ q ∧ x ∈ blockSlots (getCore (endBlockGroups s q) p.1) p.2) := by
  obtain ⟨hat, -, hended, hkeeps⟩ := endBlockGroups_keeps s q
  by_cases hmem : p.1 = q.1 ∧ x ∈ blockSlots (getCore s q.1) q.2
  · obtain ⟨hc, hmem⟩ := hmem
    have hno : NoThread (getGroup (endBlockGroups s q) p.1 x) := by
      rw [hc]
      exact hended x hmem
    exact ⟨fun _ => hno, fun _ => .inl hno⟩
  · have hkeep : KeepsSlot x (getCore s p.1) (getCore (endBlockGroups s q) p.1) := by
      by_cases hc : p.1 = q.1
      · rw [hc]
        exact hkeeps x (fun hm => hmem ⟨hc, hm⟩) hx
      · rw [hat.others _ hc]
        exact ⟨rfl, fun h => h⟩
    have hgroup : getGroup (endBlockGroups s q) p.1 x = getGroup s p.1 x := hkeep.group
    refine ⟨fun hno => by rwa [hgroup], fun hslot => .inr ⟨fun hpq => hmem ?_, ?_⟩⟩
    · subst hpq
      exact ⟨rfl, hslot⟩
    · obtain ⟨hlisted, hblock⟩ := mem_blockSlots.mp hslot
      exact mem_blockSlots.mpr ⟨hkeep.listed hlisted, by rwa [hkeep.group]⟩

/-- Every group of the blocks has ended once each block's groups have. -/
theorem foldl_endBlockGroups (ps : List (Nat × Nat)) (s : State) :
    (ps.foldl endBlockGroups s).mem = s.mem ∧ (ps.foldl endBlockGroups s).launches = s.launches ∧
    ∀ (p : Nat × Nat) (x : Nat), x < handlerCtx →
      NoThread (getGroup s p.1 x) ∨ p ∈ ps ∧ x ∈ blockSlots (getCore s p.1) p.2 →
        NoThread (getGroup (ps.foldl endBlockGroups s) p.1 x) := by
  induction ps generalizing s with
  | nil => exact ⟨rfl, rfl, fun p x _ h => h.resolve_right (by simp)⟩
  | cons q ps ih =>
    obtain ⟨hat, hlaunches, -⟩ := endBlockGroups_keeps s q
    obtain ⟨hmem, hlaunches', hall⟩ := ih (endBlockGroups s q)
    rw [List.foldl_cons]
    refine ⟨hmem.trans hat.mem, hlaunches'.trans hlaunches, fun p x hx h => hall p x hx ?_⟩
    obtain ⟨hstays, hends⟩ := endBlockGroups_at (s := s) p q hx
    obtain hno | ⟨hp, hslot⟩ := h
    · exact .inl (hstays hno)
    · exact (hends hslot).imp id fun ⟨hpq, hslot'⟩ => ⟨(List.mem_cons.mp hp).resolve_left hpq, hslot'⟩

theorem find?_updFirst {α : Type} {p : α → Bool} {h : α → α} (hp : ∀ x, p (h x) = p x) (xs : List α) :
    (updFirst p h xs).find? p = (xs.find? p).map h := by
  induction xs with
  | nil => rfl
  | cons x xs ih =>
    rw [updFirst]
    split
    case isTrue hx => simp [hp, hx]
    case isFalse hx => simp [hx, ih]

theorem execFirmwareEndLaunch_eq {s : State} {id : Nat} {la : Launch} (h : findLaunch s id = some la) :
    (¬ (inFirmware s id = true ∨ la.tenant ∈ s.hub.struck) → exec (.firmwareEndLaunch id) s = .next s) ∧
    (inFirmware s id = true ∨ la.tenant ∈ s.hub.struck → exec (.firmwareEndLaunch id) s =
      .next { updLaunch ((blocksOf s id).foldl endBlockGroups s) id (fun l => { l with endedBy := 11, waitCores := [] }) with
        saved := s.saved.filter (fun v => v.launch != id) }) := by
  have hmay : mayEnd s id = true ↔ inFirmware s id = true ∨ la.tenant ∈ s.hub.struck := by
    simp [mayEnd, h]
  change (_ → execFirmwareEndLaunch id s = _) ∧ (_ → execFirmwareEndLaunch id s = _)
  unfold execFirmwareEndLaunch
  refine ⟨fun hno => ?_, fun hstruck => ?_⟩
  · rw [if_pos (by simpa using fun hm => hno (hmay.mp hm))]
  · rw [if_neg (by simpa using hmay.mpr hstruck)]
    rfl

end Sys2Proof.Proofs
end

section
/-! PROOFS. Blocks that are put back on a core: GANG_MIGRATE and BLOCK_RESUME (O49). -/

namespace Sys2Proof.Proofs
open Sys2Proof Sys2Proof.Machine Sys2Proof.Safety Sys2Proof.Laws

/-! ### A saved block put on a core (R310, R356) -/

/-- What a saved block gives when it goes on: its context where that stands in memory. -/
def contextOf (s : State) (v : Saved) : Saved := if v.inMemory then readContext s.mem v else v

theorem contextOf_keeps (s : State) (v : Saved) : (contextOf s v).id = v.id ∧ (contextOf s v).index = v.index ∧
    (contextOf s v).block = v.block ∧ (contextOf s v).groups.map (·.1) = v.groups.map (·.1) := by
  unfold contextOf
  split
  · exact ⟨rfl, rfl, rfl, by simp [readContext]⟩
  · exact ⟨rfl, rfl, rfl, rfl⟩

/-- The core on which a block stands as its context gives it. -/
def restoredCore (v : Saved) (k : Core) : Core :=
  let k1 := v.groups.foldl restoreGroup k
  let k2 := match v.handler, v.hgroup with
    | some fr, some (g : Group) => { k1.withGroup handlerCtx (resumedGroup g) with curH := some fr }
    | _, _ => k1
  { k2 with blocks := mset none k2.blocks v.index (some v.block), framesH := k2.framesH ++ v.frames, framesF := k2.framesF ++ v.framesF,
            partsH := k2.partsH ++ v.parts, partsF := k2.partsF ++ v.partsF, ibuf := [] }

/-- The state in which the banks of a block that goes on hold its bytes, and its operations are its own again. -/
def restoring (s : State) (v : Saved) (c : Nat) : State :=
  let lo := c * 327680 + v.block.bank0 * 8192
  let s2 := zeroBanks (setNspm (moveNotice s v c) c v.block.nspm) c v.block.bank0 (v.block.bank0 + v.block.banks)
  { s2 with
    spm := v.spm.foldl (fun m q => writeByte m (lo + q.1) q.2) s2.spm,
    stamps := s2.stamps ++ v.stamps.map (fun q => { q with key := lo + q.key }),
    saved := s2.saved.filter (fun q => q.id != v.id),
    mxOps := s2.mxOps ++ v.mxOps.map (moveOp c),
    copies := s2.copies.map (fun q => if q.saved = some v.id then { q with saved := none, core := c } else q) }

/-- The tiles of a launch go with its block. -/
def handedOver (s : State) (v : Saved) (c : Nat) (l : Launch) : Launch :=
  { l with
    outst := l.outst.map (fun o => if o.2 = (v.core, v.index) then (o.1, c, v.index) else o)
    handout := l.handout.map (moveHandout s v c) }

theorem restoreBlock_eq (s : State) (v : Saved) (c : Nat) : restoreBlock s v c =
    updLaunch (updCore (restoring s (contextOf s v) c) c (restoredCore (contextOf s v))) (contextOf s v).launch
      (handedOver s (contextOf s v) c) := rfl

theorem moveNotice_keeps (s : State) (v : Saved) (c : Nat) :
    (moveNotice s v c).mem = s.mem ∧ (moveNotice s v c).cores = s.cores ∧ (moveNotice s v c).saved = s.saved := by
  unfold moveNotice
  dsimp only
  split
  · split <;> exact ⟨rfl, rfl, rfl⟩
  · exact ⟨rfl, rfl, rfl⟩

theorem saved_setNspm (s : State) (c n : Nat) : (setNspm s c n).saved = s.saved := by
  unfold setNspm
  dsimp only
  split <;> rfl

theorem restoring_keeps (s : State) (v : Saved) (c : Nat) : AtCore c s (restoring s v c) ∧
    (restoring s v c).saved = s.saved.filter (fun q => q.id != v.id) ∧
    ∃ l1, getCore (restoring s v c) c = { getCore s c with nspm := v.block.nspm, l1 := l1 } := by
  obtain ⟨hmem, hcores, hsaved⟩ := moveNotice_keeps s v c
  obtain ⟨hat, l1, hcore⟩ := setNspm_keeps (moveNotice s v c) c v.block.nspm
  have hget : getCore (moveNotice s v c) c = getCore s c := by rw [getCore, hcores]; rfl
  have hbanks : AtCore c (setNspm (moveNotice s v c) c v.block.nspm) (restoring s v c) := atCore_of_cores rfl rfl
  refine ⟨((atCore_of_cores hmem hcores).trans hat).trans hbanks, ?_, l1, ?_⟩
  · rw [← hsaved, ← saved_setNspm (moveNotice s v c) c v.block.nspm]
    rfl
  · rw [← hget, ← hcore]
    rfl

/-- The core on which the handler goes on, where a block had it. -/
def withHandler (v : Saved) (k : Core) : Core :=
  match v.handler, v.hgroup with
  | some fr, some (g : Group) => { k.withGroup handlerCtx (resumedGroup g) with curH := some fr }
  | _, _ => k

theorem group_withHandler (v : Saved) (k : Core) {y : Nat} (hy : y < handlerCtx) : (withHandler v k).group y = k.group y := by
  unfold withHandler
  split
  · exact (group_withGroup ..).trans (if_neg (Nat.ne_of_lt hy))
  · rfl

theorem blockOf_restoredCore (v : Saved) (k : Core) : blockOf (restoredCore v k) v.index = some v.block :=
  mget_mset_same (none : Option Block) (withHandler v (v.groups.foldl restoreGroup k)).blocks v.index (some v.block)

/-- The groups of a block as they stand on a core again. -/
theorem group_restoredCore {v : Saved} (k : Core) (hsame : ∀ p ∈ v.groups, ∀ q ∈ v.groups, p.1 = q.1 → p.2 = q.2)
    {q : Nat × Group} (hq : q ∈ v.groups) (hlt : q.1 < handlerCtx) : (restoredCore v k).group q.1 = resumedGroup q.2 := by
  obtain ⟨-, hgroups⟩ := foldl_allotted (as := v.groups) (step := restoreGroup) (slot := fun q => q.1)
    (group := fun q => resumedGroup q.2) (fun _ _ => ⟨_, _, rfl⟩) k (fun p hp q hq heq => by rw [hsame p hp q hq heq])
  have hk2 : (restoredCore v k).group q.1 = (withHandler v (v.groups.foldl restoreGroup k)).group q.1 := rfl
  rw [hk2, group_withHandler v _ hlt]
  exact hgroups q.1 _ (.inr ⟨q, hq, rfl, rfl⟩)

theorem restoreBlock_keeps (s : State) (v : Saved) (c : Nat) : AtCore c s (restoreBlock s v c) ∧
    (restoreBlock s v c).saved = s.saved.filter (fun q => q.id != v.id) ∧
    ∃ l1 nspm, getCore (restoreBlock s v c) c = restoredCore (contextOf s v) { getCore s c with nspm := nspm, l1 := l1 } := by
  obtain ⟨hat, hsaved, l1, hcore⟩ := restoring_keeps s (contextOf s v) c
  obtain ⟨hid, -⟩ := contextOf_keeps s v
  rw [hid] at hsaved
  rw [restoreBlock_eq]
  refine ⟨(hat.trans (atCore_updCore ..)).trans (atCore_updLaunch ..), hsaved, l1, (contextOf s v).block.nspm, ?_⟩
  rw [← hcore]
  exact getCore_updCore_same (restoring s (contextOf s v) c) c (restoredCore (contextOf s v))

theorem blockOf_restoreBlock (s : State) (v : Saved) (c : Nat) :
    blockOf (getCore (restoreBlock s v c) c) v.index = some v.block := by
  obtain ⟨-, -, l1, nspm, hcore⟩ := restoreBlock_keeps s v c
  obtain ⟨-, hindex, hblock, -⟩ := contextOf_keeps s v
  rw [hcore, ← hindex, ← hblock]
  exact blockOf_restoredCore ..

theorem getGroup_restoreBlock {s : State} {v : Saved} (c : Nat)
    (hsame : ∀ p ∈ (contextOf s v).groups, ∀ q ∈ (contextOf s v).groups, p.1 = q.1 → p.2 = q.2)
    {q : Nat × Group} (hq : q ∈ (contextOf s v).groups) (hlt : q.1 < handlerCtx) :
    getGroup (restoreBlock s v c) c q.1 = resumedGroup q.2 := by
  obtain ⟨-, -, l1, nspm, hcore⟩ := restoreBlock_keeps s v c
  rw [getGroup, hcore]
  exact group_restoredCore _ hsame hq hlt

/-! ### BLOCK_RESUME (R356) -/

/-- No error stands in a context of the gang (R394, R397; log 101). -/
def Whole (s : State) (v : Saved) : Prop := ∀ q ∈ gangOf s v, contextStruck s q = false

theorem execBlockResume_struck {s : State} {id : Nat} {v : Saved} (c : Nat) (hv : s.saved.find? (fun v => v.id == id) = some v)
    (h : ¬ Whole s v) : exec (.blockResume id c) s = .next (reportPoison s v.addr v.core 0) := by
  have hany : (gangOf s v).any (contextStruck s) = true := by simpa [Whole] using h
  change execBlockResume id c s = _
  unfold execBlockResume
  simp only [hv, hany, if_true]

theorem execBlockResume_whole {s : State} {id : Nat} {v : Saved} {la : Launch} (c : Nat)
    (hv : s.saved.find? (fun v => v.id == id) = some v) (hla : findLaunch s v.launch = some la) (h : Whole s v) :
    exec (.blockResume id c) s =
      if (la.gang = false ∨ v.core % 4 = c % 4) ∧ mateLive s v = false ∧ (gangOf s v).all (fun q => mayResume s q (gangCore v q c)) then
        .next ((gangOf s v).foldl (fun s q => restoreBlock s q (gangCore v q c)) s)
      else .next s := by
  have hany : (gangOf s v).any (contextStruck s) = false := by simpa [Whole] using h
  change execBlockResume id c s = _
  unfold execBlockResume
  simp only [hv, hany, hla]
  rfl

theorem gangOf_alone {s : State} {v : Saved} {la : Launch} (h : findLaunch s v.launch = some la) (hg : la.gang = false) :
    gangOf s v = [v] ∧ mateLive s v = false := by
  simp [gangOf, mateLive, h, hg]

theorem mem_gangOf {s : State} {v q : Saved} {la : Launch} (h : findLaunch s v.launch = some la) (hg : la.gang = true) :
    q ∈ gangOf s v ↔ q ∈ s.saved ∧ q.launch = v.launch ∧ q.core / 4 = v.core / 4 := by
  simp [gangOf, h, hg]

/-- A gang's blocks go on at distinct cores of one cluster, each at its index there. -/
theorem gangCore_of_mem {s : State} {v : Saved} {la : Launch} {c : Nat} (h : findLaunch s v.launch = some la) (hg : la.gang = true)
    (hv : v ∈ s.saved) (hc : v.core % 4 = c % 4) (hids : ((gangOf s v).map (·.id)).Nodup) {q : Saved} (hq : q ∈ gangOf s v) :
    gangCore v q c = c / 4 * 4 + q.core % 4 := by
  have hself : v ∈ gangOf s v := (mem_gangOf h hg).mpr ⟨hv, rfl, rfl⟩
  unfold gangCore
  split
  case isTrue hid =>
    rw [← List.inj_on_of_nodup_map hids hself hq hid]
    omega
  case isFalse => rfl

theorem gangCores_nodup {s : State} {v : Saved} {la : Launch} {c : Nat} (h : findLaunch s v.launch = some la) (hg : la.gang = true)
    (hv : v ∈ s.saved) (hc : v.core % 4 = c % 4) (hids : ((gangOf s v).map (·.id)).Nodup)
    (hcores : ((gangOf s v).map (·.core)).Nodup) : ((gangOf s v).map (fun q => gangCore v q c)).Nodup := by
  refine List.Nodup.map_on (fun p hp q hq heq => ?_) (List.Nodup.of_map _ hcores)
  rw [gangCore_of_mem h hg hv hc hids hp, gangCore_of_mem h hg hv hc hids hq] at heq
  obtain ⟨-, -, hpc⟩ := (mem_gangOf h hg).mp hp
  obtain ⟨-, -, hqc⟩ := (mem_gangOf h hg).mp hq
  exact List.inj_on_of_nodup_map hcores hp hq (by omega)

/-- The blocks of a gang as they stand again. -/
theorem foldl_restoreBlock {core : Saved → Nat} {vs : List Saved} (hdistinct : (vs.map core).Nodup) (s : State) :
    (vs.foldl (fun s q => restoreBlock s q (core q)) s).mem = s.mem ∧
    ∀ q ∈ vs, blockOf (getCore (vs.foldl (fun s q => restoreBlock s q (core q)) s) (core q)) q.index = some q.block := by
  obtain ⟨hmem, -, hall⟩ := foldl_atCores (step := fun s q => restoreBlock s q (core q))
    (P := fun q _ k => blockOf k q.index = some q.block) hdistinct
    (fun s q _ => ⟨(restoreBlock_keeps s q (core q)).1, blockOf_restoreBlock s q (core q)⟩) s
  exact ⟨hmem, hall⟩

end Sys2Proof.Proofs
end

section
/-! PROOFS. Blocks that move to another core (O49). -/

namespace Sys2Proof.Proofs
open Sys2Proof Sys2Proof.Machine Sys2Proof.Safety Sys2Proof.Laws

/-! ### A block that is held (R282, R310) -/

/-- What becomes of a group that is held, or of whose matrix instructions some are withdrawn. -/
def HoldsGroup (g h : Group) : Prop := h = { g with stop := h.stop, rewait := h.rewait }

theorem HoldsGroup.trans {g h k : Group} (h1 : HoldsGroup g h) (h2 : HoldsGroup h k) : HoldsGroup g k := by
  unfold HoldsGroup at h2 ⊢
  rw [h1] at h2
  exact h2

/-- What becomes of a core whose groups are held. -/
structure HoldsCore (k k' : Core) : Prop where
  blocks : k'.blocks = k.blocks
  group  : ∀ y, HoldsGroup (k.group y) (k'.group y)

theorem HoldsCore.refl (k : Core) : HoldsCore k k := ⟨rfl, fun _ => rfl⟩

theorem HoldsCore.trans {k k1 k2 : Core} (h1 : HoldsCore k k1) (h2 : HoldsCore k1 k2) : HoldsCore k k2 :=
  ⟨h2.blocks.trans h1.blocks, fun y => (h1.group y).trans (h2.group y)⟩

theorem holdsCore_withGroup (k : Core) (x : Nat) {g : Group} (hg : HoldsGroup (k.group x) g) : HoldsCore k (k.withGroup x g) where
  blocks := rfl
  group y := by
    rw [group_withGroup]
    split
    case isTrue hy => rw [hy]; exact hg
    case isFalse => exact rfl

theorem holdsCore_of_groups {k k' : Core} (hb : k'.blocks = k.blocks) (hg : k'.groups = k.groups) : HoldsCore k k' :=
  ⟨hb, fun y => by
    have hy : k'.group y = k.group y := by rw [Core.group, hg]; rfl
    rw [hy]
    exact rfl⟩

theorem holdsCore_holdBlock (k : Core) (xs : List Nat) (t : Nat) : HoldsCore k (holdHandler (holdGroups k xs t) xs) := by
  have hgroups : HoldsCore k (holdGroups k xs t) := by
    refine HoldsCore.trans (List.foldlRecOn (motive := HoldsCore k) _ _ (HoldsCore.refl k) fun k1 h x _ =>
      h.trans (holdsCore_withGroup k1 x ?_)) (holdsCore_of_groups rfl rfl)
    dsimp only
    split <;> exact rfl
  refine hgroups.trans ?_
  unfold holdHandler
  split
  · exact HoldsCore.refl _
  · split
    · exact holdsCore_withGroup _ _ rfl
    · exact HoldsCore.refl _

/-- What becomes of the state when a block is held. -/
structure HoldsState (s t : State) : Prop where
  mem   : t.mem = s.mem
  cores : ∀ c, HoldsCore (getCore s c) (getCore t c)

theorem HoldsState.refl (s : State) : HoldsState s s := ⟨rfl, fun _ => HoldsCore.refl _⟩

theorem HoldsState.trans {s t u : State} (h1 : HoldsState s t) (h2 : HoldsState t u) : HoldsState s u :=
  ⟨h2.mem.trans h1.mem, fun c => (h1.cores c).trans (h2.cores c)⟩

theorem holdsState_updCore (s : State) (c : Nat) {h : Core → Core} (hh : HoldsCore (getCore s c) (h (getCore s c))) :
    HoldsState s (updCore s c h) where
  mem := rfl
  cores d := by
    rw [getCore_updCore]
    split
    case isTrue hd => rw [hd]; exact hh
    case isFalse => exact HoldsCore.refl _

theorem holdsState_updGroup (s : State) (c x : Nat) {h : Group → Group} (hh : ∀ g, HoldsGroup g (h g)) :
    HoldsState s (updGroup s c x h) :=
  holdsState_updCore s c (h := fun k => k.withGroup x (h (getGroup s c x))) (holdsCore_withGroup _ x (hh _))

theorem holdsState_withdrawOps (s : State) (os : List MxOp) : HoldsState s (withdrawOps s os) := by
  unfold withdrawOps
  refine List.foldlRecOn (motive := HoldsState s) _ _ ⟨rfl, fun _ => HoldsCore.refl _⟩ fun s1 h o _ => h.trans ?_
  refine List.foldlRecOn (motive := HoldsState s1) _ _ (HoldsState.refl s1) fun s2 h m _ => h.trans ?_
  exact holdsState_updGroup s2 m.core m.ctx fun _ => rfl

theorem holdsState_holdBlock (s : State) (c b : Nat) : HoldsState s (holdBlock s c b) :=
  (holdsState_updCore s c (holdsCore_holdBlock ..)).trans (holdsState_withdrawOps ..)

/-! ### A block that is saved (R351) -/

/-- The registers that a result's cells leave. -/
theorem regs_landPend (g : Group) (p : Pend) : (landPend g p).regs =
    p.cells.foldl (fun m q => if p.skip.contains q.1 then m else mset 0 m q.1 q.2) g.regs := by
  have hcells : ∀ (cells : List (Nat × Word)) (h : Group), (cells.foldl (landCell p.skip) h).regs =
      cells.foldl (fun m q => if p.skip.contains q.1 then m else mset 0 m q.1 q.2) h.regs := fun cells => by
    induction cells with
    | nil => exact fun _ => rfl
    | cons q cells ih =>
      intro h
      rw [List.foldl_cons, List.foldl_cons, ih]
      unfold landCell
      split <;> rfl
  exact hcells p.cells _

theorem regs_foldl_landPend (ps : List Pend) {g h : Group} (hregs : h.regs = g.regs) :
    (ps.foldl landPend h).regs = (ps.foldl landPend g).regs := by
  induction ps generalizing g h with
  | nil => exact hregs
  | cons p ps ih => exact ih (by rw [regs_landPend, regs_landPend, hregs])

/-- A saved group is as alive as the group, and has its registers, whether it was held or not. -/
theorem savedGroup_keeps {s u : State} (h : HoldsState s u) (c x : Nat) :
    (savedGroup u c x).live = (getGroup s c x).live ∧ (savedGroup u c x).regs = (savedGroup s c x).regs := by
  have hgroup := (h.cores c).group x
  have hlands : Lands (getGroup u c x) (((getGroup u c x).pend.filter (·.ready)).foldl landPend (getGroup u c x)) :=
    List.foldlRecOn _ _ (motive := Lands (getGroup u c x)) rfl fun g hg p _ => hg.trans (lands_landPend g p)
  obtain ⟨hlive, -⟩ := (writes_of_lands hlands).keeps
  refine ⟨hlive.trans ?_, ?_⟩
  · rw [getGroup, hgroup]; rfl
  · have hpend : (getGroup u c x).pend = (getGroup s c x).pend := by rw [getGroup, hgroup]; rfl
    have hregs : (getGroup u c x).regs = (getGroup s c x).regs := by rw [getGroup, hgroup]; rfl
    have hfold := regs_foldl_landPend ((getGroup s c x).pend.filter (·.ready)) hregs
    rw [← hpend] at hfold
    refine hfold.trans ?_
    rw [hpend]
    rfl

/-- What a block's saved form holds. -/
theorem mkSaved_eq {s : State} {c b id addr : Nat} {v : Saved} (h : mkSaved s c b id addr = some v) :
    blockOf (getCore s c) b = some v.block ∧ v.core = c ∧ v.index = b ∧ v.inMemory = false ∧
    v.groups = (blockSlots (getCore s c) b).map (fun x => (x, savedGroup s c x)) := by
  unfold mkSaved at h
  dsimp only at h
  split at h
  case h_1 => cases h
  case h_2 blk hb =>
    cases h
    exact ⟨hb, rfl, rfl, rfl, rfl⟩

/-! ### A block that leaves its core -/

/-- The core without a block and its groups. -/
def vacatedCore (v : Saved) (k : Core) : Core :=
  let xs := v.groups.map (·.1)
  let k1 := outlive v.launch xs (dropFrames k xs)
  let k2 := xs.foldl (fun k x => freeFrom (k.withGroup x {}) x 0) k1
  let k3 := { k2 with blocks := mset none k2.blocks v.index none, growq := k2.growq.filter (fun q => !xs.contains q.ctx),
                      csrPend := k2.csrPend.filter (fun q => !xs.contains q.ctx) }
  if v.handler.isSome then k3.withGroup handlerCtx {} else k3

theorem blockOf_vacatedCore (v : Saved) (k : Core) : blockOf (vacatedCore v k) v.index = none := by
  unfold vacatedCore
  dsimp only
  split <;> exact mget_mset_same (none : Option Block) _ v.index none

/-- The state in which a block's operations are those of its saved form. -/
def leaving (s : State) (v : Saved) : State :=
  let xs := v.groups.map (·.1)
  let ops := v.mxOps.map (·.id)
  { s with
    saved := s.saved ++ [v], mxOps := s.mxOps.filter (fun o => !ops.contains o.id),
    copies := s.copies.map (fun q => if q.core = v.core ∧ q.saved = none ∧ (xs.contains q.ctx || (v.handler.isSome && q.ctx == handlerCtx))
      then { q with saved := some v.id } else q) }

theorem vacate_eq (s : State) (v : Saved) : vacate s v =
    noteVacated (grantGrows (updCore (leaving s v) v.core (vacatedCore v)) v.core) v.core := rfl

theorem vacate_keeps (s : State) (v : Saved) :
    AtCore v.core s (vacate s v) ∧ blockOf (getCore (vacate s v) v.core) v.index = none := by
  obtain ⟨honly, -, -, -, hblocks, -⟩ := grants_grantGrows (updCore (leaving s v) v.core (vacatedCore v)) v.core
  have hleaves : AtCore v.core s (leaving s v) := atCore_of_cores rfl rfl
  have hcounts : ∀ u, AtCore v.core u (noteVacated u v.core) := fun _ => atCore_of_cores rfl rfl
  have hcore : ∀ u, getCore (noteVacated u v.core) v.core = getCore u v.core := fun _ => rfl
  rw [vacate_eq]
  refine ⟨((hleaves.trans (atCore_updCore ..)).trans (atCore_of_onlyCore honly)).trans (hcounts _), ?_⟩
  rw [hcore, blockOf, hblocks, getCore_updCore_same]
  exact blockOf_vacatedCore v _

/-! ### GANG_MIGRATE (R310) -/

theorem movedTo_eq {u : State} {c b d : Nat} {v : Saved} (h : mkSaved u c b u.serial 0 = some v) : movedTo u c b d =
    if d ≠ c ∧ hasPlace u v d = true then some (restoreBlock (vacate { u with serial := u.serial + 1 } v) v d) else none := by
  unfold movedTo
  simp only [h, Bool.and_eq_true, decide_eq_true_eq]

/-- A block that moves stands on the other core with its registers. -/
theorem moved_keeps {s u : State} {c b d : Nat} {v : Saved} {blk : Block} (hu : HoldsState s u)
    (hb : blockOf (getCore s c) b = some blk) (h : mkSaved u c b u.serial 0 = some v) (hdc : d ≠ c) :
    let t := restoreBlock (vacate { u with serial := u.serial + 1 } v) v d
    blockOf (getCore t c) b = none ∧ blockOf (getCore t d) b = some blk ∧ t.mem = s.mem ∧
      ∀ x, x < 48 → (getGroup s c x).live = true → (getGroup s c x).block = b → (getGroup t d x).live = true ∧
        (getGroup t d x).regs = (savedGroup s c x).regs := by
  intro t
  obtain ⟨hblock, hcore, hindex, hmemory, hgroups⟩ := mkSaved_eq h
  obtain ⟨hvacates, hnone⟩ := vacate_keeps { u with serial := u.serial + 1 } v
  have hrestores := (restoreBlock_keeps (vacate { u with serial := u.serial + 1 } v) v d).1
  have hcontext : contextOf (vacate { u with serial := u.serial + 1 } v) v = v := by rw [contextOf, hmemory]; rfl
  have hblk : some v.block = some blk := by rw [← hblock, ← hb, blockOf, (hu.cores c).blocks]; rfl
  refine ⟨?_, ?_, ?_, fun x hx hlive hxb => ?_⟩
  · rw [show getCore t c = _ from hrestores.others c hdc.symm, ← hcore, ← hindex]
    exact hnone
  · rw [← hblk, ← hindex]
    exact blockOf_restoreBlock ..
  · exact hrestores.mem.trans (hvacates.mem.trans hu.mem)
  · have hgroup : HoldsGroup (getGroup s c x) (getGroup u c x) := (hu.cores c).group x
    have hmem : (x, savedGroup u c x) ∈ v.groups := by
      rw [hgroups]
      refine List.mem_map_of_mem (mem_blockSlots.mpr ⟨mem_slotsOf_of_live (k := getCore u c) ?_ hx, ?_⟩)
      · rw [show (getCore u c).group x = _ from hgroup]; exact hlive
      · rw [show (getCore u c).group x = _ from hgroup]; exact hxb
    have hsame : ∀ p ∈ v.groups, ∀ q ∈ v.groups, p.1 = q.1 → p.2 = q.2 := by
      rw [hgroups]
      rintro p hp q hq heq
      obtain ⟨y, -, rfl⟩ := List.mem_map.mp hp
      obtain ⟨z, -, rfl⟩ := List.mem_map.mp hq
      exact congrArg (savedGroup u c) heq
    have hput : getGroup t d x = resumedGroup (savedGroup u c x) :=
      getGroup_restoreBlock d (by rw [hcontext]; exact hsame) (by rw [hcontext]; exact hmem) hx
    obtain ⟨hlive', hregs⟩ := savedGroup_keeps hu c x
    rw [hput]
    exact ⟨hlive'.trans hlive, hregs⟩

theorem moveHelps_gives {s : State} {c b d : Nat} (h : moveHelps s c b d = true) :
    d ≠ c ∧ ∃ lw, waitingGang s (c / 4) (getCore s c).tid = some lw ∧ lw.gang = true ∧ gangFits s lw (c / 4) = false := by
  unfold moveHelps at h
  dsimp only at h
  split at h
  case h_2 => cases h
  case h_1 lw s1 hlw hmoved =>
    have hgang : lw.gang = true := by
      have htest := List.find?_some hlw
      simp only [Bool.and_eq_true] at htest
      exact htest.1.1
    have hfits : gangFits s lw (c / 4) = false := by
      simp only [Bool.and_eq_true, Bool.not_eq_true'] at h
      exact h.1
    refine ⟨fun hdc => ?_, lw, hlw, hgang, hfits⟩
    cases hv : mkSaved s c b s.serial 0 with
    | none => simp [movedTo, hv] at hmoved
    | some v => simp [movedTo_eq hv, hdc] at hmoved

/-- GANG_MIGRATE's tests, in order. -/
theorem execGangMigrate_eq {s : State} {c b : Nat} {blk : Block} {la : Launch} (d : Nat) (hb : blockOf (getCore s c) b = some blk)
    (hla : findLaunch s blk.launch = some la) : exec (.gangMigrate c b d) s =
    if heldElse s c || la.gang then .next s
    else if !moveHelps s c b d then .next (releaseCore s c)
    else .next (if blockDone (holdBlock s c b) c b then (movedTo (holdBlock s c b) c b d).getD (holdBlock s c b)
      else holdBlock s c b) := by
  have hmovable : movable s blk = !la.gang := by simp [movable, hla]
  change execGangMigrate c b d s = _
  unfold execGangMigrate
  simp only [hb, hmovable, Bool.not_not]

end Sys2Proof.Proofs
end

section
/-! PROOFS. O49 from its parts. -/

namespace Sys2Proof.Proofs
open Sys2Proof Sys2Proof.Machine Sys2Proof.Safety Sys2Proof.Laws

/-- BLOCK_PLACE: blocks on the cores that have room for them. -/
theorem blockPlace_places (s : State) (id c : Nat) (la : Launch) (h : findLaunch s id = some la) :
    (la.gang = false → fitsLaunch s la c = true → ∃ t, exec (.blockPlace id c) s = .next t ∧
      PlacedAt la (getCore s c) (getCore t c) ∧ t.mem = s.mem ∧ ∀ d, d ≠ c → getCore t d = getCore s d) ∧
    (la.gang = true → (∀ d, d / 4 = c / 4 → fitsLaunch s la d = true) → ∃ t, exec (.blockPlace id c) s = .next t ∧ t.mem = s.mem ∧
      (∀ d, d / 4 = c / 4 → PlacedAt la (getCore s d) (getCore t d)) ∧ ∀ d, d / 4 ≠ c / 4 → getCore t d = getCore s d) ∧
    (la.gang = true → (∃ d, d / 4 = c / 4 ∧ ¬ fitsLaunch s la d = true) → exec (.blockPlace id c) s = .next s) ∧
    (la.gang = false → ¬ fitsLaunch s la c = true → exec (.blockPlace id c) s = .next s) := by
  have halone : la.gang = false → ∀ d, d ∈ placeCores la c ↔ d = c := fun hg d => by simp [placeCores, hg]
  have hgang : la.gang = true → ∀ d, d ∈ placeCores la c ↔ d / 4 = c / 4 := fun hg d => by
    rw [placeCores, if_pos hg, mem_cluster]
  have hplaces := fun hfits => foldl_placeBlock (s := s) (la := la) (c := c) (n := id) hfits
  rw [execBlockPlace_eq c h]
  refine ⟨fun hg hfit => ?_, fun hg hfit => ?_, fun hg hno => if_neg ?_, fun hg hno => if_neg ?_⟩
  · have hfits : (placeCores la c).all (fitsLaunch s la) = true :=
      List.all_eq_true.mpr fun d hd => (halone hg d).mp hd ▸ hfit
    obtain ⟨hmem, hothers, hplaced⟩ := hplaces hfits
    exact ⟨_, if_pos hfits, hplaced c ((halone hg c).mpr rfl), hmem, fun d hd => hothers d fun hm => hd ((halone hg d).mp hm)⟩
  · have hfits : (placeCores la c).all (fitsLaunch s la) = true :=
      List.all_eq_true.mpr fun d hd => hfit d ((hgang hg d).mp hd)
    obtain ⟨hmem, hothers, hplaced⟩ := hplaces hfits
    exact ⟨_, if_pos hfits, hmem, fun d hd => hplaced d ((hgang hg d).mpr hd),
      fun d hd => hothers d fun hm => hd ((hgang hg d).mp hm)⟩
  · obtain ⟨d, hd, hfit⟩ := hno
    exact fun hall => hfit (List.all_eq_true.mp hall d ((hgang hg d).mpr hd))
  · exact fun hall => hno (List.all_eq_true.mp hall c ((halone hg c).mpr rfl))

/-- A group that may be released (R139). -/
theorem releasable_iff {s : State} {c x : Nat} : (releasable (getGroup s c x) && !regroupTarget (getCore s c) x) = true ↔
    (getGroup s c x).live = true ∧ (getGroup s c x).frontier = [] ∧ (getGroup s c x).homes = 0 ∧ (getGroup s c x).handles = [] ∧
      (getGroup s c x).storeq = [] ∧ regroupTarget (getCore s c) x = false := by
  simp [releasable, and_assoc]

theorem execSlotRelease_eq (s : State) (c x : Nat) : exec (.slotRelease c x) s =
    if releasable (getGroup s c x) && !regroupTarget (getCore s c) x then
      .next (endBlock (releaseSlot s c x) c (getGroup s c x).block) else .next s := rfl

/-- What SLOT_RELEASE leaves (R139). -/
theorem slotRelease_keeps (s : State) (c x : Nat) :
    let t := endBlock (releaseSlot s c x) c (getGroup s c x).block
    ((∀ w ∈ (getCore s c).growq, w.ctx ≠ x) → getGroup t c x = {}) ∧ t.mem = s.mem ∧ t.spm = s.spm ∧
    (∀ y, y ≠ x → (∀ w ∈ (getCore s c).growq, w.ctx ≠ y) → getGroup t c y = getGroup s c y) ∧
    (∀ d, d ≠ c → getCore t d = getCore s d) ∧
    ((∀ y ∈ slotsOf (getCore s c), y ≠ x → (getGroup s c y).block ≠ (getGroup s c x).block) →
      blockOf (getCore t c) (getGroup s c x).block = none) := by
  intro t
  obtain ⟨hmem, hspm, hothers, hgone, hgroups, hslots⟩ := releaseSlot_keeps s c x
  obtain ⟨hmem', hspm', hothers', blocks, hcore⟩ := endBlock_keeps (releaseSlot s c x) c (getGroup s c x).block
  have hsame : ∀ y, getGroup t c y = getGroup (releaseSlot s c x) c y := fun y => by rw [getGroup, hcore]; rfl
  refine ⟨fun hw => (hsame x).trans (hgone hw), hmem'.trans hmem, hspm'.trans hspm,
    fun y hy hw => (hsame y).trans (hgroups y hy hw), fun d hd => (hothers' d hd).trans (hothers d hd),
    fun hlast => blockOf_endBlock fun y hy => ?_⟩
  obtain ⟨hyx, hlisted, hblock⟩ := hslots y hy
  rw [hblock]
  exact hlast y hlisted hyx

/-- FIRMWARE_END_LAUNCH: every group of the launch ends. -/
theorem firmwareEndLaunch_ends {s : State} {id : Nat} {la : Launch} (h : findLaunch s id = some la)
    (hstruck : inFirmware s id = true ∨ la.tenant ∈ s.hub.struck) : ∃ t lb, exec (.firmwareEndLaunch id) s = .next t ∧
      findLaunch t id = some lb ∧ lb.endedBy = 11 ∧ lb.waitCores = [] ∧ t.mem = s.mem ∧
      ∀ p ∈ blocksOf s id, ∀ x ∈ blockSlots (getCore s p.1) p.2,
        (getGroup t p.1 x).frontier = [] ∧ (getGroup t p.1 x).homes = 0 := by
  obtain ⟨hmem, hlaunches, hended⟩ := foldl_endBlockGroups (blocksOf s id) s
  refine ⟨_, { la with endedBy := 11, waitCores := [] }, (execFirmwareEndLaunch_eq h).2 hstruck, ?_, rfl, rfl, hmem,
    fun p hp x hx => hended p x ?_ (.inr ⟨hp, hx⟩)⟩
  · have hfind := find?_updFirst (p := fun l : Launch => l.id == id) (h := fun l => { l with endedBy := 11, waitCores := [] })
      (fun _ => rfl) ((blocksOf s id).foldl endBlockGroups s).launches
    rw [hlaunches, show s.launches.find? (fun l => l.id == id) = some la from h] at hfind
    rw [← hlaunches] at hfind
    exact hfind
  · exact (mem_slotsOf.mp (mem_blockSlots.mp hx).1).1

/-- GANG_MIGRATE goes through its tests in order (log 46). -/
theorem gangMigrate_moves (s : State) (c b d : Nat) (blk : Block) (la : Launch) (hb : blockOf (getCore s c) b = some blk)
    (hla : findLaunch s blk.launch = some la) :
    let may := la.gang = false ∧ heldElse s c = false
    let u := holdBlock s c b
    (¬ may → exec (.gangMigrate c b d) s = .next s) ∧
    (may → moveHelps s c b d = false → exec (.gangMigrate c b d) s = .next (releaseCore s c)) ∧
    (may → moveHelps s c b d = true → blockDone u c b = false → exec (.gangMigrate c b d) s = .next u) ∧
    (may → moveHelps s c b d = true → blockDone u c b = true →
      exec (.gangMigrate c b d) s = .next ((movedTo u c b d).getD u)) := by
  intro may u
  have htest : (heldElse s c || la.gang) = true ↔ ¬ may := by
    simp [may, imp_iff_not_or, or_comm]
  rw [execGangMigrate_eq d hb hla]
  refine ⟨fun hno => if_pos (htest.mpr hno), fun hmay hhelps => ?_, fun hmay hhelps hdone => ?_, fun hmay hhelps hdone => ?_⟩
  all_goals rw [if_neg fun ht => htest.mp ht hmay]
  · rw [if_pos (by simp [hhelps])]
  · rw [if_neg (by simp [hhelps]), if_neg (by simp [show blockDone (holdBlock s c b) c b = false from hdone])]
  · rw [if_neg (by simp [hhelps]), if_pos hdone]

/-- BLOCK_RESUME of a block of a launch that is no gang. -/
theorem blockResume_alone {s : State} {id : Nat} {v : Saved} {la : Launch} (c : Nat)
    (hv : s.saved.find? (fun v => v.id == id) = some v) (hla : findLaunch s v.launch = some la) (hwhole : Whole s v)
    (hg : la.gang = false) :
    (mayResume s v c = false → exec (.blockResume id c) s = .next s) ∧
    (mayResume s v c = true → exec (.blockResume id c) s = .next (restoreBlock s v c)) := by
  obtain ⟨halone, hmate⟩ := gangOf_alone hla hg
  have hcore : gangCore v v c = c := if_pos rfl
  rw [execBlockResume_whole c hv hla hwhole, halone]
  simp only [hg, hmate, hcore, List.all_cons, List.all_nil, List.foldl_cons, List.foldl_nil, Bool.and_true, true_or, true_and]
  exact ⟨fun hno => if_neg (by simp [hno]), fun hmay => if_pos hmay⟩

/-- What a block that goes on alone leaves. -/
theorem restoreBlock_alone {s : State} {v : Saved} (c : Nat) (hkeys : (v.groups.map (·.1)).Nodup) (hlt : ∀ q ∈ v.groups, q.1 < 48) :
    let t := restoreBlock s v c
    blockOf (getCore t c) v.index = some v.block ∧ t.mem = s.mem ∧ (∀ w ∈ t.saved, w.id ≠ v.id) ∧
    ∀ q ∈ (contextOf s v).groups, (getGroup t c q.1).regs = q.2.regs ∧ (getGroup t c q.1).frontier = q.2.frontier ∧
      (getGroup t c q.1).allot = q.2.allot := by
  intro t
  obtain ⟨hat, hsaved, -⟩ := restoreBlock_keeps s v c
  obtain ⟨-, -, -, hgroups⟩ := contextOf_keeps s v
  rw [← hgroups] at hkeys
  refine ⟨blockOf_restoreBlock s v c, hat.mem, fun w hw => ?_, fun q hq => ?_⟩
  · rw [hsaved] at hw
    simpa using (List.mem_filter.mp hw).2
  · have hslot : q.1 < 48 := by
      obtain ⟨p, hp, hpq⟩ := List.mem_map.mp (hgroups ▸ List.mem_map_of_mem (f := Prod.fst) hq)
      exact hpq ▸ hlt p hp
    rw [show getGroup t c q.1 = _ from
      getGroup_restoreBlock c (fun p hp r hr heq => by rw [List.inj_on_of_nodup_map hkeys hp hr heq]) hq hslot]
    exact ⟨rfl, rfl, rfl⟩

/-- BLOCK_RESUME of a gang: all its blocks or none. -/
theorem blockResume_gang {s : State} {id : Nat} {v : Saved} {la : Launch} (c : Nat)
    (hv : s.saved.find? (fun v => v.id == id) = some v) (hla : findLaunch s v.launch = some la) (hwhole : Whole s v)
    (hg : la.gang = true) :
    (v.core % 4 ≠ c % 4 ∨ mateLive s v = true ∨ (∃ q ∈ gangOf s v, mayResume s q (gangCore v q c) = false) →
      exec (.blockResume id c) s = .next s) ∧
    (v.core % 4 = c % 4 → mateLive s v = false → (∀ q ∈ gangOf s v, mayResume s q (gangCore v q c) = true) →
      ((gangOf s v).map (·.id)).Nodup → ((gangOf s v).map (·.core)).Nodup → ∃ t, exec (.blockResume id c) s = .next t ∧
        t.mem = s.mem ∧ ∀ q ∈ gangOf s v, blockOf (getCore t (c / 4 * 4 + q.core % 4)) q.index = some q.block) := by
  rw [execBlockResume_whole c hv hla hwhole]
  refine ⟨fun hno => if_neg ?_, fun hc hmate hall hids hcores => ⟨_, if_pos ⟨.inr hc, hmate, List.all_eq_true.mpr hall⟩, ?_⟩⟩
  · rintro ⟨hc, hmate, hall⟩
    obtain hne | hlive | ⟨q, hq, hmay⟩ := hno
    · exact hne (hc.resolve_left (by simp [hg]))
    · rw [hmate] at hlive; cases hlive
    · rw [List.all_eq_true.mp hall q hq] at hmay; cases hmay
  · have hmem := List.mem_of_find?_eq_some hv
    obtain ⟨hbytes, hblocks⟩ := foldl_restoreBlock (gangCores_nodup hla hg hmem hc hids hcores) s
    refine ⟨hbytes, fun q hq => ?_⟩
    rw [← gangCore_of_mem hla hg hmem hc hids hq]
    exact hblocks q hq

/-- Settles O49: each event's tests are gone through in order; what it does is one core's change, and a gang's blocks are placed
and put back one by one on distinct cores. -/
theorem blocks : Obligations.blocks := by
  unfold Obligations.blocks
  refine ⟨fun s id c la h => ?_, fun s c x => ?_, fun s id la h => ?_, fun s c b d blk la hb hla => ?_,
    fun s id c v la hv hla => ?_⟩
  -- BLOCK_PLACE
  · obtain rfl : la.id = id := by simpa using List.find?_some h
    exact blockPlace_places s la.id c la h
  -- SLOT_RELEASE
  · rw [execSlotRelease_eq]
    refine ⟨fun hno => if_neg fun ht => hno (releasable_iff.mp ht), fun hended => ?_⟩
    exact ⟨_, if_pos (releasable_iff.mpr hended), slotRelease_keeps s c x⟩
  -- LAUNCH_COMPLETE and FIRMWARE_END_LAUNCH
  · exact ⟨execLaunchComplete_barrier h, execLaunchComplete_blocks h, (execFirmwareEndLaunch_eq h).1, firmwareEndLaunch_ends h⟩
  -- GANG_MIGRATE
  · intro may u
    obtain ⟨hno, hidle, hwaits, hmoves⟩ := gangMigrate_moves s c b d blk la hb hla
    refine ⟨hno, hidle, moveHelps_gives, hwaits, fun hmay hhelps hdone v hv => ?_⟩
    have hdc := (moveHelps_gives hhelps).1
    have hmoved := hmoves hmay hhelps hdone
    rw [movedTo_eq hv] at hmoved
    refine ⟨fun hfull => ?_, fun hplace => ?_⟩
    · rw [if_neg (by simp [hfull])] at hmoved
      exact hmoved
    · rw [if_pos ⟨hdc, hplace⟩] at hmoved
      exact ⟨_, hmoved, moved_keeps (holdsState_holdBlock s c b) hb hv hdc⟩
  -- BLOCK_RESUME
  · obtain rfl : v.id = id := by simpa using List.find?_some hv
    refine ⟨execBlockResume_struck c hv, fun hwhole hg hno => (blockResume_alone c hv hla hwhole hg).1 hno,
      fun hwhole hg hmay hkeys hlt => ?_, fun hwhole hg => (blockResume_gang c hv hla hwhole hg).1,
      fun hwhole hg => (blockResume_gang c hv hla hwhole hg).2⟩
    exact ⟨_, (blockResume_alone c hv hla hwhole hg).2 hmay, restoreBlock_alone c hkeys hlt⟩

end Sys2Proof.Proofs
end

section
/-! PROOFS. Elements of integer products (R50, R52, R178): the tree, the element loop and the promotions are exact while nothing
saturates. -/

namespace Sys2Proof.Proofs
open Sys2Proof Sys2Proof.Machine Sys2Proof.Safety Sys2Proof.Laws

/-! ### Magnitudes -/

/-- The sum of the magnitudes of some products. -/
def magnitude (xs : List Int) : Nat := (xs.map Int.natAbs).sum

@[simp] theorem magnitude_nil : magnitude [] = 0 := rfl
@[simp] theorem magnitude_cons (x : Int) (xs : List Int) : magnitude (x :: xs) = x.natAbs + magnitude xs := by simp [magnitude]
@[simp] theorem magnitude_append (xs ys : List Int) : magnitude (xs ++ ys) = magnitude xs + magnitude ys := by simp [magnitude]

theorem natAbs_sum_le (xs : List Int) : xs.sum.natAbs ≤ magnitude xs := by
  induction xs with
  | nil => exact Nat.le_refl 0
  | cons x xs ih =>
    rw [List.sum_cons, magnitude_cons]
    omega

/-! ### The inner accumulator and the tree (R50, R52) -/

/-- Products as the engine adds them, none of which has raised anything. -/
def clean (xs : List Int) : List (Int × MxFlags) := xs.map (fun x => (x, 0))

theorem satInt_of_mem {x lo hi : Int} (h1 : lo ≤ x) (h2 : x ≤ hi) : satInt x lo hi = x := by
  rw [satInt, if_neg (by omega), if_neg (by omega)]

theorem innerAddInt_exact {x y : Int} (h : (x + y).natAbs < 2 ^ 17) : innerAddInt (x, 0) (y, 0) = (x + y, 0) := by
  have hsat : satInt (x + y) (-131072) 131071 = x + y := satInt_of_mem (by omega) (by omega)
  simp [innerAddInt, hsat]

/-- One level of the tree keeps the sum, and its sums are no larger together than what they add. -/
theorem pairUp_exact : ∀ xs : List Int, magnitude xs < 2 ^ 17 → ∃ ys, pairUp innerAddInt (clean xs) = clean ys ∧
    ys.sum = xs.sum ∧ magnitude ys ≤ magnitude xs ∧ 2 * ys.length ≤ xs.length + 1
  | [], _ => ⟨[], rfl, rfl, le_rfl, by simp⟩
  | [a], _ => ⟨[a], rfl, rfl, le_rfl, by simp⟩
  | a :: b :: xs, h => by
    simp only [magnitude_cons] at h
    obtain ⟨ys, hpair, hsum, hmag, hlen⟩ := pairUp_exact xs (by omega)
    refine ⟨(a + b) :: ys, ?_, ?_, ?_, ?_⟩
    · change innerAddInt (a, 0) (b, 0) :: pairUp innerAddInt (clean xs) = _
      rw [innerAddInt_exact (by omega), hpair]
      rfl
    · simp only [List.sum_cons, hsum]
      omega
    · simp only [magnitude_cons]
      omega
    · simp only [List.length_cons]
      omega

/-- The tree of `n` levels adds up to 2^n products exactly. -/
theorem treeSum_exact (n : Nat) : ∀ xs : List Int, xs.length ≤ 2 ^ n → magnitude xs < 2 ^ 17 →
    treeSum innerAddInt (0, 0) n (clean xs) = (xs.sum, 0) := by
  induction n with
  | zero =>
    intro xs hlen _
    match xs, hlen with
    | [], _ => rfl
    | [a], _ => simp [clean, treeSum]
  | succ n ih =>
    intro xs hlen hmag
    match xs with
    | [] => rfl
    | [a] => simp [clean, treeSum]
    | a :: b :: xs =>
      obtain ⟨ys, hpair, hsum, hle, hhalf⟩ := pairUp_exact (a :: b :: xs) hmag
      change treeSum innerAddInt (0, 0) n (pairUp innerAddInt (clean (a :: b :: xs))) = _
      rw [hpair, ih ys (by rw [Nat.pow_succ] at hlen; omega) (by omega), hsum]

/-! ### The element loop (R52, R178) -/

/-- The loop over products `done`, from the outer value `o`: what it has added is exact, and it has raised nothing. -/
structure ExactLoop (o : Int) (done : List Int) (x : MxLoop Int) : Prop where
  total : (BitVec.ofNat 32 x.outer).toInt + x.inner = o + done.sum
  small : x.inner.natAbs ≤ magnitude done
  word  : x.outer < 2 ^ 32
  idle  : x.count = 0 → x.inner = 0
  quiet : x.flags = 0

/-- A promotion that does not saturate (R50). -/
theorem promoteInt_exact {outer : Nat} {x s : Int} (hs : (BitVec.ofNat 32 outer).toInt + x = s) (h : s.natAbs < 2 ^ 31) :
    promoteInt outer x = ((BitVec.ofInt 32 s).toNat, 0) := by
  have hsat : satInt s minS32 maxS32 = s := satInt_of_mem (by unfold minS32; omega) (by unfold maxS32; omega)
  simp [promoteInt, hs, hsat]

theorem ExactLoop.promoteAt {o : Int} {done : List Int} {x : MxLoop Int} (h : ExactLoop o done x)
    (hfit : o.natAbs + magnitude done < 2 ^ 31) (p : Nat) : ExactLoop o done (promoteAt promoteInt 0 p x) := by
  unfold Machine.promoteAt
  split
  · have hsum := natAbs_sum_le done
    rw [promoteInt_exact h.total (by omega)]
    refine ⟨?_, Nat.zero_le _, (BitVec.ofInt 32 _).isLt, fun _ => rfl, by simp [h.quiet]⟩
    rw [BitVec.ofNat_toNat, BitVec.setWidth_eq, BitVec.toInt_ofInt_eq_self (by decide) (by omega) (by omega), Int.add_zero]
  · exact h

/-- One K-step of the loop. -/
def kStep (l p : Nat) (x : MxLoop Int) (prods : List (Int × MxFlags)) : MxLoop Int :=
  let i := innerAddInt (x.inner, 0) (treeSum innerAddInt (0, 0) 9 prods)
  Machine.promoteAt promoteInt 0 p { x with inner := i.1, count := x.count + l, flags := x.flags ||| i.2 }

theorem kSteps_eq_foldl (l p : Nat) (steps : List (List (Int × MxFlags))) (x : MxLoop Int) :
    kSteps innerAddInt promoteInt 0 l p steps x = steps.foldl (kStep l p) x := rfl

theorem ExactLoop.kStep {o : Int} {done : List Int} {x : MxLoop Int} (h : ExactLoop o done x) {l : Nat} (hl : 0 < l) (p : Nat)
    {xs : List Int} (hlen : xs.length ≤ 512) (hmag : magnitude (done ++ xs) < 2 ^ 17)
    (hfit : o.natAbs + magnitude (done ++ xs) < 2 ^ 31) : ExactLoop o (done ++ xs) (kStep l p x (clean xs)) := by
  have hsmall := h.small
  have hsum := natAbs_sum_le xs
  rw [magnitude_append] at hmag
  have hadd : innerAddInt (x.inner, 0) (treeSum innerAddInt (0, 0) 9 (clean xs)) = (x.inner + xs.sum, 0) := by
    rw [treeSum_exact 9 xs hlen (by omega), innerAddInt_exact (by omega)]
  unfold Proofs.kStep
  rw [hadd]
  refine ExactLoop.promoteAt (x := ⟨x.outer, x.inner + xs.sum, x.count + l, x.flags ||| 0⟩) ⟨?_, ?_, h.word, fun h0 => ?_, ?_⟩ hfit p
  · have htotal := h.total
    rw [List.sum_append]
    dsimp only
    omega
  · rw [magnitude_append]
    dsimp only
    omega
  · dsimp only at h0
    omega
  · simp [h.quiet]

/-- The K-steps of the products that are left. -/
theorem ExactLoop.chunks {o : Int} {l : Nat} (hl : 0 < l) (hl512 : l ≤ 512) (p n : Nat) : ∀ (xs done : List Int) (x : MxLoop Int),
    xs.length ≤ n → ExactLoop o done x → magnitude (done ++ xs) < 2 ^ 17 → o.natAbs + magnitude (done ++ xs) < 2 ^ 31 →
    ExactLoop o (done ++ xs) ((chunkList l n (clean xs)).foldl (Proofs.kStep l p) x) := by
  induction n with
  | zero =>
    intro xs done x hlen h _ _
    obtain rfl : xs = [] := List.length_eq_zero_iff.mp (by omega)
    rw [List.append_nil]
    exact h
  | succ n ih =>
    intro xs done x hlen h hmag hfit
    by_cases hxs : xs = []
    · subst hxs
      rw [List.append_nil]
      exact h
    · have hcut : chunkList l (n + 1) (clean xs) = clean (xs.take l) :: chunkList l n (clean (xs.drop l)) := by
        simp [chunkList, clean, hxs, List.map_take, List.map_drop]
      have hsplit : done ++ xs = (done ++ xs.take l) ++ xs.drop l := by rw [List.append_assoc, List.take_append_drop]
      have hpos : 0 < xs.length := List.length_pos_iff.mpr hxs
      rw [hcut, List.foldl_cons, hsplit]
      rw [hsplit, magnitude_append] at hmag hfit
      refine ih (xs.drop l) _ _ (by rw [List.length_drop]; omega) (h.kStep hl p ?_ (by omega) (by omega)) ?_ ?_
      · rw [List.length_take]
        omega
      · rwa [magnitude_append]
      · rwa [magnitude_append]

/-- The outer value of a loop that holds nothing back. -/
theorem ExactLoop.outer_eq {o : Int} {done : List Int} {x : MxLoop Int} (h : ExactLoop o done x) (h0 : x.count = 0) :
    x.outer = (BitVec.ofInt 32 (o + done.sum)).toNat := by
  have htotal := h.total
  rw [h.idle h0, Int.add_zero] at htotal
  rw [← htotal, BitVec.ofInt_toInt, BitVec.toNat_ofNat, Nat.mod_eq_of_lt h.word]

/-- The last promotion leaves nothing held back. -/
theorem count_promoteAt_one {x : MxLoop Int} (h : x.count ≠ 0) : (Machine.promoteAt promoteInt 0 1 x).count = 0 := by
  rw [Machine.promoteAt, if_pos (by omega)]

/-- An element of integer products without hold is exact where nothing saturates. -/
theorem elemInt_exact {l p : Nat} (hl : 0 < l) (hl512 : l ≤ 512) {as bs : List Int} {outer : Nat} (h : Word)
    (hmag : magnitude ((as.zip bs).map (fun q => q.1 * q.2)) < 2 ^ 17)
    (hfit : (BitVec.ofNat 32 outer).toInt.natAbs + magnitude ((as.zip bs).map (fun q => q.1 * q.2)) < 2 ^ 31)
    (hword : outer < 2 ^ 32) : (elemInt l p false false as bs outer h).outer =
      (BitVec.ofInt 32 ((BitVec.ofNat 32 outer).toInt + ((as.zip bs).map (fun q => q.1 * q.2)).sum)).toNat ∧
    (elemInt l p false false as bs outer h).flags = 0 := by
  generalize hprods : (as.zip bs).map (fun q => q.1 * q.2) = prods at hmag hfit ⊢
  have hclean : (as.zip bs).map (fun q => (q.1 * q.2, (0 : MxFlags))) = clean prods := by
    rw [← hprods, clean, List.map_map]
    rfl
  have hstart : ExactLoop (BitVec.ofNat 32 outer).toInt [] ⟨outer, 0, 0, 0⟩ :=
    ⟨by simp, le_rfl, hword, fun _ => rfl, rfl⟩
  have hloop := (hstart.promoteAt (by rw [magnitude_nil]; omega) p).chunks hl hl512 p (clean prods).length prods [] _
    (by simp [clean]) hmag hfit
  rw [List.nil_append, ← kSteps_eq_foldl] at hloop
  unfold elemInt mxElement
  dsimp only
  rw [hclean, if_neg Bool.false_ne_true, if_neg Bool.false_ne_true]
  generalize kSteps innerAddInt promoteInt 0 l p _ _ = x at hloop ⊢
  by_cases h0 : x.count = 0
  · rw [if_pos (by simp [h0])]
    exact ⟨hloop.outer_eq h0, hloop.quiet⟩
  · rw [if_neg (by simp [h0])]
    have hlast := hloop.promoteAt hfit 1
    exact ⟨hlast.outer_eq (count_promoteAt_one h0), hlast.quiet⟩

end Sys2Proof.Proofs
end

section
/-! PROOFS. What a matrix instruction writes (R178, R182, R183): cells that are readable at once, a completion word, and the
groups that the engine's writes leave as they were. -/

namespace Sys2Proof.Proofs
open Sys2Proof Sys2Proof.Machine Sys2Proof.Safety Sys2Proof.Laws

/-! ### Results that are due -/

/-- A result that the next write to its group lands first (R68). -/
def isDue (t : Nat) (p : Pend) : Bool := p.ready && !p.inFlight t && p.held.isNone

def landIfDue (t : Nat) (g : Group) (p : Pend) : Group := if isDue t p then landPend g p else g

theorem landDue_eq_foldl (t : Nat) (g : Group) : landDue t g = g.pend.foldl (landIfDue t) g := rfl

theorem landDue_of_none_due {t : Nat} {g : Group} (h : ∀ p ∈ g.pend, isDue t p = false) : landDue t g = g := by
  rw [landDue_eq_foldl]
  refine List.foldlRecOn g.pend _ (motive := (· = g)) rfl fun k hk p hp => ?_
  rw [landIfDue, if_neg (by simp [h p hp])]
  exact hk

/-- Once those that are due have landed, none is. -/
theorem none_due_landDue (t : Nat) (g : Group) : ∀ p ∈ (landDue t g).pend, isDue t p = false := by
  have hleft : ∀ (ps : List Pend) (k : Group), ∀ q ∈ (ps.foldl (landIfDue t) k).pend,
      q ∈ k.pend ∧ ∀ p ∈ ps, isDue t p = true → q.id ≠ p.id := by
    intro ps
    induction ps with
    | nil => exact fun k q hq => ⟨hq, by simp⟩
    | cons p ps ih =>
      intro k q hq
      obtain ⟨hmem, hne⟩ := ih _ q hq
      by_cases hp : isDue t p = true
      · rw [landIfDue, if_pos hp, (landPend_fields k p).2, List.mem_filter] at hmem
        exact ⟨hmem.1, List.forall_mem_cons.mpr ⟨fun _ => by simpa using hmem.2, hne⟩⟩
      · rw [landIfDue, if_neg hp] at hmem
        exact ⟨hmem, List.forall_mem_cons.mpr ⟨fun h => absurd h hp, hne⟩⟩
  intro p hp
  obtain ⟨hmem, hne⟩ := hleft g.pend g p hp
  by_contra hdue
  exact hne p hmem (by simpa using hdue) rfl

/-! ### Registers after cells are written -/

/-- A cell (register, lane, value) is written with the value that the state keeps for it (R183). -/
def putKept (s : State) (c x : Nat) (g : Group) (q : Nat × Nat × Word) : Group :=
  setReg g q.1 q.2.1 (keptValue s c x q.1 q.2.1 q.2.2)

theorem regAt_putKept_ne {s : State} {c x r l : Nat} {cells : List (Nat × Nat × Word)}
    (h : ∀ q ∈ cells, cellKey r l ≠ cellKey q.1 q.2.1) (g : Group) : regAt (cells.foldl (putKept s c x) g) r l = regAt g r l :=
  List.foldlRecOn cells _ (motive := fun k => regAt k r l = regAt g r l) rfl fun k hk q hq => by
    rw [putKept, regAt_setReg, if_neg (h q hq), hk]

/-- A cell that is written once holds its value. -/
theorem regAt_putKept_mem {s : State} {c x : Nat} {q : Nat × Nat × Word} {cells : List (Nat × Nat × Word)} (hq : q ∈ cells)
    (honce : ∀ p ∈ cells, cellKey q.1 q.2.1 = cellKey p.1 p.2.1 → p = q) (g : Group) :
    regAt (cells.foldl (putKept s c x) g) q.1 q.2.1 = keptValue s c x q.1 q.2.1 q.2.2 := by
  induction cells generalizing g with
  | nil => cases hq
  | cons p cells ih =>
    rw [List.foldl_cons]
    by_cases hlater : q ∈ cells
    · exact ih hlater (fun p' hp' => honce p' (List.mem_cons_of_mem _ hp')) _
    · obtain rfl : q = p := (List.mem_cons.mp hq).resolve_right hlater
      rw [regAt_putKept_ne (fun p' hp' hkey => hlater (honce p' (List.mem_cons_of_mem _ hp') hkey ▸ hp')), putKept, regAt_setReg,
        if_pos rfl]

theorem keptValue_of_alone {s : State} {c x r : Nat} (h : (mxRunsOf s c x).any (inRun r) = false) (l : Nat) (v : Word) :
    keptValue s c x r l v = v := if_neg (by simp [h])

theorem pend_putKept (s : State) (c x : Nat) (cells : List (Nat × Nat × Word)) (g : Group) :
    (cells.foldl (putKept s c x) g).pend = g.pend :=
  List.foldlRecOn cells _ (motive := fun k : Group => k.pend = g.pend) rfl fun _ hk _ _ => hk

/-- A group of which cells are written: what is due lands, then the cells are put, and nothing that is left is due. -/
theorem getGroup_putCells (s : State) (c x : Nat) (cells : List (Nat × Nat × Word)) : ∃ pend,
    getGroup (putCells s c x cells) c x = { cells.foldl (putKept s c x) (clearLatch (landDue (now s c) (getGroup s c x))
      (cells.map (·.1))) with pend := pend } ∧ ∀ p ∈ pend, isDue (now s c) p = false := by
  obtain ⟨ops, hops⟩ := spoilRuns_eq s c x (cells.map (·.1))
  unfold putCells
  dsimp only
  rw [hops, getGroup_updGroup_same]
  refine ⟨_, rfl, fun p hp => ?_⟩
  obtain ⟨p, hmem, rfl⟩ := List.mem_map.mp hp
  have hleft : p ∈ (landDue (now s c) (getGroup s c x)).pend :=
    (pend_putKept s c x cells (clearLatch (landDue (now s c) (getGroup s c x)) (cells.map (·.1)))) ▸ hmem
  exact none_due_landDue _ _ p hleft

/-- A cell that is written once, in a register that no pending matrix instruction uses, holds its value. -/
theorem regAt_putCells_mem {s : State} {c x : Nat} {q : Nat × Nat × Word} {cells : List (Nat × Nat × Word)} (hq : q ∈ cells)
    (honce : ∀ p ∈ cells, cellKey q.1 q.2.1 = cellKey p.1 p.2.1 → p = q)
    (halone : (mxRunsOf s c x).any (inRun q.1) = false) :
    regAt (getGroup (putCells s c x cells) c x) q.1 q.2.1 = q.2.2 := by
  obtain ⟨pend, hg, -⟩ := getGroup_putCells s c x cells
  rw [hg]
  exact (regAt_putKept_mem hq honce _).trans (keptValue_of_alone halone ..)

/-- Cells of other registers and lanes stay, where nothing is due that would land. -/
theorem regAt_putCells_ne {s : State} {c x r l : Nat} {cells : List (Nat × Nat × Word)}
    (h : ∀ q ∈ cells, cellKey r l ≠ cellKey q.1 q.2.1) (hdue : ∀ p ∈ (getGroup s c x).pend, isDue (now s c) p = false) :
    regAt (getGroup (putCells s c x cells) c x) r l = regAt (getGroup s c x) r l := by
  obtain ⟨pend, hg, -⟩ := getGroup_putCells s c x cells
  rw [hg, landDue_of_none_due hdue]
  exact regAt_putKept_ne h (clearLatch (getGroup s c x) (cells.map (·.1)))

/-! ### One word in every lane of a register (R192) -/

theorem writeAllLanes_eq {s : State} {c x r : Nat} (v : Word) (hr : r ≠ vnull) : writeAllLanes s c x r v =
    writeCells s c x ((List.range (getGroup s c x).width).map (fun l => (r, l, v))) := if_neg hr

theorem stateWrites_writeAllLanes (s : State) (c x r : Nat) (v : Word) : StateWrites c x s (writeAllLanes s c x r v) := by
  unfold writeAllLanes
  split
  · exact StateWrites.refl ..
  · exact stateWrites_writeCells ..

theorem regAt_writeCells (s : State) (c x : Nat) (cells : List (Nat × Nat × Word)) (r l : Nat) :
    regAt (getGroup (writeCells s c x cells) c x) r l = regAt (getGroup (putCells s c x cells) c x) r l := by
  rw [writeCells, getGroup_updGroup_same]
  rfl

theorem regAt_writeAllLanes_same {s : State} {c x r l : Nat} (v : Word) (hr : r ≠ vnull) (hl : l < (getGroup s c x).width)
    (hw : (getGroup s c x).width ≤ 64) (halone : (mxRunsOf s c x).any (inRun r) = false) :
    regAt (getGroup (writeAllLanes s c x r v) c x) r l = v := by
  rw [writeAllLanes_eq v hr, regAt_writeCells]
  refine regAt_putCells_mem (q := (r, l, v)) (List.mem_map_of_mem (List.mem_range.mpr hl)) (fun p hp hkey => ?_) halone
  obtain ⟨l', hl', rfl⟩ := List.mem_map.mp hp
  obtain ⟨-, rfl⟩ := (cellKey_inj (hl.trans_le hw) ((List.mem_range.mp hl').trans_le hw)).mp hkey
  rfl

theorem regAt_writeAllLanes_ne {s : State} {c x r j l : Nat} (v : Word) (hj : j ≠ r) (hl : l < 64)
    (hw : (getGroup s c x).width ≤ 64) (hdue : ∀ p ∈ (getGroup s c x).pend, isDue (now s c) p = false) :
    regAt (getGroup (writeAllLanes s c x r v) c x) j l = regAt (getGroup s c x) j l := by
  by_cases hr : r = vnull
  · rw [writeAllLanes, if_pos hr]
  · rw [writeAllLanes_eq v hr, regAt_writeCells]
    refine regAt_putCells_ne (fun p hp hkey => ?_) hdue
    obtain ⟨l', hl', rfl⟩ := List.mem_map.mp hp
    exact hj ((cellKey_inj hl ((List.mem_range.mp hl').trans_le hw)).mp hkey).1

/-! ### Pending matrix instructions whose results are spoilt (R183) -/

/-- Pending instructions that differ in nothing but whether their results are spoilt. -/
def SameOps (os os' : List MxOp) : Prop :=
  os'.map (fun o => { o with spoil := false }) = os.map (fun o => { o with spoil := false })

theorem SameOps.refl (os : List MxOp) : SameOps os os := rfl

theorem SameOps.trans {os os' os'' : List MxOp} (h1 : SameOps os os') (h2 : SameOps os' os'') : SameOps os os'' := Eq.trans h2 h1

theorem sameOps_spoilRuns (s : State) (c x : Nat) (rs : List Nat) : SameOps s.mxOps (spoilRuns s c x rs).mxOps := by
  unfold spoilRuns
  dsimp only
  split
  · rfl
  · unfold SameOps
    rw [List.map_map]
    refine List.map_congr_left fun o _ => ?_
    dsimp only [Function.comp_apply]
    split <;> rfl

theorem SameOps.map_eq {α : Type} {os os' : List MxOp} (h : SameOps os os') (k : MxOp → α)
    (hk : ∀ o, k { o with spoil := false } = k o) : os'.map k = os.map k := by
  have hmap : ∀ os : List MxOp, os.map k = (os.map (fun o => { o with spoil := false })).map k := fun os => by
    rw [List.map_map]
    exact List.map_congr_left fun o _ => (hk o).symm
  rw [hmap, h, ← hmap]

/-- They use the same registers. -/
theorem SameOps.mxRunsOf_eq {s t : State} (h : SameOps s.mxOps t.mxOps) (c x : Nat) : mxRunsOf t c x = mxRunsOf s c x := by
  unfold mxRunsOf
  rw [List.flatMap_def, List.flatMap_def]
  exact congrArg List.flatten (h.map_eq _ fun _ => rfl)

theorem SameOps.forall_id {os os' : List MxOp} (h : SameOps os os') {P : Nat → Prop} (hP : ∀ o ∈ os, P o.id) :
    ∀ o ∈ os', P o.id := by
  intro o ho
  have hmem : o.id ∈ os.map (·.id) := (h.map_eq (·.id) fun _ => rfl) ▸ List.mem_map_of_mem ho
  obtain ⟨o', ho', hid⟩ := List.mem_map.mp hmem
  exact hid ▸ hP o' ho'

/-! ### What the engine's writes leave as it was -/

/-- What becomes of the state when groups at the places `ps`, core and slot, are written. -/
structure WritesAt (ps : List (Nat × Nat)) (s t : State) : Prop where
  rest   : t = { s with cores := t.cores, mxOps := t.mxOps, wrote := t.wrote }
  ops    : SameOps s.mxOps t.mxOps
  others : ∀ c x, (c, x) ∉ ps → getGroup t c x = getGroup s c x

theorem WritesAt.refl (ps : List (Nat × Nat)) (s : State) : WritesAt ps s s := ⟨rfl, rfl, fun _ _ _ => rfl⟩

theorem WritesAt.trans {ps : List (Nat × Nat)} {s t u : State} (h1 : WritesAt ps s t) (h2 : WritesAt ps t u) : WritesAt ps s u where
  rest := by
    have h := h2.rest
    rw [h1.rest] at h
    exact h
  ops := h1.ops.trans h2.ops
  others c x hp := (h2.others c x hp).trans (h1.others c x hp)

theorem WritesAt.same {ps : List (Nat × Nat)} {s t : State} (h : WritesAt ps s t) :
    t.mem = s.mem ∧ t.spm = s.spm ∧ t.mxReqs = s.mxReqs := by
  rw [h.rest]
  exact ⟨rfl, rfl, rfl⟩

theorem WritesAt.mono {ps qs : List (Nat × Nat)} {s t : State} (h : WritesAt ps s t) (hsub : ∀ p ∈ ps, p ∈ qs) : WritesAt qs s t :=
  ⟨h.rest, h.ops, fun c x hp => h.others c x fun hmem => hp (hsub _ hmem)⟩

theorem writesAt_updGroup (s : State) (c x : Nat) (h : Group → Group) : WritesAt [(c, x)] s (updGroup s c x h) where
  rest := rfl
  ops := rfl
  others d y hp := by
    rw [getGroup_updGroup, if_neg fun he => hp (by simp [he.1, he.2])]

theorem writesAt_spoilRuns (s : State) (c x : Nat) (rs : List Nat) : WritesAt [(c, x)] s (spoilRuns s c x rs) := by
  obtain ⟨ops, hops⟩ := spoilRuns_eq s c x rs
  exact ⟨by rw [hops], sameOps_spoilRuns s c x rs, fun d y _ => by rw [hops]; rfl⟩

theorem writesAt_putCells (s : State) (c x : Nat) (cells : List (Nat × Nat × Word)) : WritesAt [(c, x)] s (putCells s c x cells) := by
  have hspoil := writesAt_spoilRuns s c x (cells.map (·.1))
  have hnote : WritesAt [(c, x)] (spoilRuns s c x (cells.map (·.1))) (remember (spoilRuns s c x (cells.map (·.1))) (tenantOf s c x)
      (cells.map (·.2.2))) := ⟨rfl, rfl, fun _ _ _ => rfl⟩
  unfold putCells
  exact (hspoil.trans hnote).trans (writesAt_updGroup ..)

theorem writesAt_writeAllLanes (s : State) (c x r : Nat) (v : Word) : WritesAt [(c, x)] s (writeAllLanes s c x r v) := by
  unfold writeAllLanes
  split
  · exact WritesAt.refl ..
  · exact (writesAt_putCells ..).trans (writesAt_updGroup ..)

/-! ### A handle that completes (R182, R192) -/

/-- The state in which the pendency of an operation has ended. -/
def handleEnded (s : State) (c x op : Nat) : State :=
  updGroup s c x (fun g => { g with handles := g.handles.filter (fun q => q.op != op) })

theorem completeHandle_of_none {s : State} {c x op : Nat} (h : (getGroup s c x).handles.find? (fun h => h.op == op) = none)
    (word : Word) : completeHandle s c x op word = s := by
  unfold completeHandle
  rw [h]

theorem completeHandle_of_some {s : State} {c x op : Nat} {d : Handle}
    (h : (getGroup s c x).handles.find? (fun h => h.op == op) = some d) (word : Word) :
    completeHandle s c x op word = writeAllLanes (handleEnded s c x op) c x d.reg word := by
  unfold completeHandle
  rw [h]
  rfl

theorem writesAt_completeHandle (s : State) (c x op : Nat) (word : Word) : WritesAt [(c, x)] s (completeHandle s c x op word) := by
  cases h : (getGroup s c x).handles.find? (fun h => h.op == op) with
  | none =>
    rw [completeHandle_of_none h]
    exact WritesAt.refl ..
  | some d =>
    rw [completeHandle_of_some h]
    exact (writesAt_updGroup ..).trans (writesAt_writeAllLanes ..)

/-- The group whose handle completes: its matrix flags stay, and the operation's handles are gone. -/
theorem getGroup_completeHandle (s : State) (c x op : Nat) (word : Word) :
    (getGroup (completeHandle s c x op word) c x).mx = (getGroup s c x).mx ∧
    (getGroup (completeHandle s c x op word) c x).handles = (getGroup s c x).handles.filter (fun q => q.op != op) := by
  cases h : (getGroup s c x).handles.find? (fun h => h.op == op) with
  | none =>
    rw [completeHandle_of_none h, List.filter_eq_self.mpr fun q hq => by simpa using List.find?_eq_none.mp h q hq]
    exact ⟨rfl, rfl⟩
  | some d =>
    have hw := (stateWrites_writeAllLanes (handleEnded s c x op) c x d.reg word).group
    rw [completeHandle_of_some h, hw, handleEnded, getGroup_updGroup_same]
    exact ⟨rfl, rfl⟩

end Sys2Proof.Proofs
end

section
/-! PROOFS. Matrix grants and completion (O32). -/

namespace Sys2Proof.Proofs
open Sys2Proof Sys2Proof.Machine Sys2Proof.Safety Sys2Proof.Laws

/-! ### Registers when a handle completes (R182) -/

theorem find?_handle {hs : List Handle} {d : Handle} {op : Nat} (hd : d ∈ hs) (hop : d.op = op)
    (honly : ∀ e ∈ hs, e.op = op → e = d) : hs.find? (fun h => h.op == op) = some d := by
  cases h : hs.find? (fun h => h.op == op) with
  | none => exact absurd hop (by simpa using List.find?_eq_none.mp h d hd)
  | some e => rw [honly e (List.mem_of_find?_eq_some h) (by simpa using List.find?_some h)]

/-- The completion word stands in every lane of the handle's register. -/
theorem regAt_completeHandle_same {s : State} {c x op l : Nat} {d : Handle} (word : Word) (hd : d ∈ (getGroup s c x).handles)
    (hop : d.op = op) (honly : ∀ e ∈ (getGroup s c x).handles, e.op = op → e = d) (hr : d.reg ≠ vnull)
    (hl : l < (getGroup s c x).width) (hw : (getGroup s c x).width ≤ 64) (halone : (mxRunsOf s c x).any (inRun d.reg) = false) :
    regAt (getGroup (completeHandle s c x op word) c x) d.reg l = word := by
  have hwidth : (getGroup (handleEnded s c x op) c x).width = (getGroup s c x).width := by
    rw [handleEnded, getGroup_updGroup_same]
    rfl
  rw [completeHandle_of_some (find?_handle hd hop honly)]
  exact regAt_writeAllLanes_same word hr (hwidth ▸ hl) (hwidth ▸ hw) halone

/-- Other registers stay, where nothing is due that would land. -/
theorem regAt_completeHandle_ne {s : State} {c x op r l : Nat} (word : Word)
    (hne : ∀ d ∈ (getGroup s c x).handles, d.op = op → d.reg ≠ r) (hl : l < 64) (hw : (getGroup s c x).width ≤ 64)
    (hdue : ∀ p ∈ (getGroup s c x).pend, isDue (now s c) p = false) :
    regAt (getGroup (completeHandle s c x op word) c x) r l = regAt (getGroup s c x) r l := by
  cases h : (getGroup s c x).handles.find? (fun h => h.op == op) with
  | none => rw [completeHandle_of_none h]
  | some d =>
    have hended : getGroup (handleEnded s c x op) c x =
        { getGroup s c x with handles := (getGroup s c x).handles.filter (fun q => q.op != op) } := getGroup_updGroup_same ..
    have hreg := hne d (List.mem_of_find?_eq_some h) (by simpa using List.find?_some h)
    rw [completeHandle_of_some h, regAt_writeAllLanes_ne word (Ne.symm hreg) hl (by rw [hended]; exact hw)
      (by rw [hended]; exact hdue), hended]
    rfl

/-! ### The engine writes a member (R178, R182, R190) -/

/-- A member's cells and flags are written; its handle is not yet completed. -/
def mxPut (r : List (Nat × Nat × Word) × MxFlags) (o : MxOp) (s : State) (m : MxMember) : State :=
  updGroup (putCells s m.core m.ctx r.1) m.core m.ctx (fun g =>
    { g with mx := g.mx ||| r.2, rewait := g.rewait.filter (· != o.id) })

/-- The completion word of a member. -/
def mxDoneWord (bad : Bool) (m : MxMember) : Word := completionWord bad false 3 0 (if bad then 0 else m.octets.length)

theorem mxDoneWord_eq (bad : Bool) (m : MxMember) :
    mxDoneWord bad m = if bad then 0xC3000000 else BitVec.ofNat 32 (0x83000000 + m.octets.length % 2 ^ 24) := by
  cases bad with
  | false =>
    refine congrArg (BitVec.ofNat 32) ?_
    simp
  | true => rfl

theorem mxWrite_eq (out : MxMember → List (Nat × Nat × Word) × MxFlags) (bad : Bool) (o : MxOp) (s : State) (m : MxMember) :
    mxWrite out bad o s m = completeHandle (mxPut (out m) o s m) m.core m.ctx o.id (mxDoneWord bad m) := rfl

theorem writesAt_mxPut (r : List (Nat × Nat × Word) × MxFlags) (o : MxOp) (s : State) (m : MxMember) :
    WritesAt [(m.core, m.ctx)] s (mxPut r o s m) := (writesAt_putCells ..).trans (writesAt_updGroup ..)

theorem writesAt_mxWrite (out : MxMember → List (Nat × Nat × Word) × MxFlags) (bad : Bool) (o : MxOp) (s : State) (m : MxMember) :
    WritesAt [(m.core, m.ctx)] s (mxWrite out bad o s m) := by
  rw [mxWrite_eq]
  exact (writesAt_mxPut (out m) o s m).trans (writesAt_completeHandle ..)

theorem writesAt_foldl_mxWrite (out : MxMember → List (Nat × Nat × Word) × MxFlags) (bad : Bool) (o : MxOp) (ms : List MxMember)
    (s : State) : WritesAt (ms.map (fun m => (m.core, m.ctx))) s (ms.foldl (mxWrite out bad o) s) :=
  List.foldlRecOn ms _ (WritesAt.refl _ s) fun _ h m hm =>
    h.trans ((writesAt_mxWrite out bad o _ m).mono (by simpa using ⟨m, hm, rfl, rfl⟩))

/-- What a member's group keeps and gets before its handle completes. -/
theorem getGroup_mxPut (r : List (Nat × Nat × Word) × MxFlags) (o : MxOp) (s : State) (m : MxMember) :
    let g := getGroup s m.core m.ctx
    let h := getGroup (mxPut r o s m) m.core m.ctx
    h.mx = g.mx ||| r.2 ∧ h.handles = g.handles ∧ h.width = g.width ∧
    (∀ p ∈ h.pend, isDue (now (mxPut r o s m) m.core) p = false) ∧
    ∀ j l, regAt h j l = regAt (getGroup (putCells s m.core m.ctx r.1) m.core m.ctx) j l := by
  intro g h
  have hh : h = { getGroup (putCells s m.core m.ctx r.1) m.core m.ctx with
      mx := (getGroup (putCells s m.core m.ctx r.1) m.core m.ctx).mx ||| r.2
      rewait := (getGroup (putCells s m.core m.ctx r.1) m.core m.ctx).rewait.filter (· != o.id) } := getGroup_updGroup_same ..
  have hnow : now (mxPut r o s m) m.core = now s m.core := by rw [(writesAt_mxPut r o s m).rest]; rfl
  obtain ⟨pend, hpend, hdue⟩ := getGroup_putCells s m.core m.ctx r.1
  refine ⟨?_, ?_, ?_, ?_, fun j l => by rw [hh]; rfl⟩
  · rw [hh, (stateWrites_putCells s m.core m.ctx r.1).group]
  · rw [hh, (stateWrites_putCells s m.core m.ctx r.1).group]
  · rw [hh, (stateWrites_putCells s m.core m.ctx r.1).group]
    rfl
  · rw [hh, hnow, hpend]
    exact hdue

/-- What a member's group holds once the engine has written it: flags, handles, the completion word, and the results in registers
that no other pending matrix instruction uses. -/
theorem getGroup_mxWrite (out : MxMember → List (Nat × Nat × Word) × MxFlags) (bad : Bool) (o : MxOp) (s : State) (m : MxMember)
    (hw : (getGroup s m.core m.ctx).width ≤ 64) :
    let g := getGroup s m.core m.ctx
    let h := getGroup (mxWrite out bad o s m) m.core m.ctx
    let alone := fun (r : Nat) => (mxRunsOf s m.core m.ctx).any (inRun r) = false
    h.mx = g.mx ||| (out m).2 ∧ h.handles = g.handles.filter (fun d => d.op != o.id) ∧
    (∀ d ∈ g.handles, d.op = o.id → d.reg ≠ 1023 → alone d.reg → (∀ e ∈ g.handles, e.op = o.id → e = d) → ∀ l, l < g.width →
      regAt h d.reg l = mxDoneWord bad m) ∧
    ∀ c ∈ (out m).1, (∀ d ∈ (out m).1, d.2.1 < 64 ∧ (d.1 = c.1 → d.2.1 = c.2.1 → d = c)) → alone c.1 →
      (∀ d ∈ g.handles, d.op = o.id → d.reg ≠ c.1) → regAt h c.1 c.2.1 = c.2.2 := by
  intro g h alone
  obtain ⟨hmx, hhandles, hwidth, hdue, hregs⟩ := getGroup_mxPut (out m) o s m
  have hruns := (writesAt_mxPut (out m) o s m).ops.mxRunsOf_eq m.core m.ctx
  have hh : h = getGroup (completeHandle (mxPut (out m) o s m) m.core m.ctx o.id (mxDoneWord bad m)) m.core m.ctx :=
    congrArg (getGroup · m.core m.ctx) (mxWrite_eq ..)
  rw [hh]
  clear hh h
  generalize mxPut (out m) o s m = u at *
  obtain ⟨hmx', hhandles'⟩ := getGroup_completeHandle u m.core m.ctx o.id (mxDoneWord bad m)
  refine ⟨hmx'.trans hmx, by rw [hhandles', hhandles], fun d hd hop hr halone honly l hl => ?_, fun c hc honce halone hne => ?_⟩
  · exact regAt_completeHandle_same _ (by rwa [hhandles]) hop (by rwa [hhandles]) hr (by rwa [hwidth]) (by rwa [hwidth])
      (by rwa [hruns])
  · have hlane := (honce c hc).1
    rw [regAt_completeHandle_ne _ (by rwa [hhandles]) hlane (by rwa [hwidth]) hdue, hregs]
    refine regAt_putCells_mem hc (fun p hp hkey => ?_) halone
    obtain ⟨hr, hl⟩ := (cellKey_inj hlane (honce p hp).1).mp hkey
    exact (honce p hp).2 hr.symm hl.symm

/-! ### MATRIX_COMPLETE (R182 to R184) -/

/-- The state once the engine has written every member of an operation that is over. -/
def mxCompleted (s : State) (o : MxOp) : State :=
  o.members.foldl (mxWrite (mxMemberOut s o) (o.members.any (mxStruck s o)) o)
    { s with mxOps := s.mxOps.filter (fun p => p.id != o.id) }

/-- The same state, with XM raised at every member where an error has struck what the engine read. -/
def mxReported (s : State) (o : MxOp) (m0 : MxMember) : State :=
  if o.members.any (mxStruck s o) then raiseTrap (mxCompleted s o) m0.core (mxErrorReq s o m0) else mxCompleted s o

theorem execMatrixComplete_of_due {s : State} {o : MxOp} (hfind : s.mxOps.find? (fun p => p.id == o.id) = some o)
    (hdue : o.members.any (tilesDue s o) = true) : exec (.matrixComplete o.id) s = .next s := by
  change execMatrixComplete o.id s = _
  unfold execMatrixComplete
  rw [hfind]
  exact if_pos (by simp [hdue])

theorem execMatrixComplete_of_ready {s : State} {o : MxOp} {m0 : MxMember} {ms : List MxMember} (hmembers : o.members = m0 :: ms)
    (hfind : s.mxOps.find? (fun p => p.id == o.id) = some o) (hstarted : o.started = true) (hwithdrawn : o.withdrawn = false)
    (hgranted : ∀ r ∈ s.mxReqs, ∀ p ∈ r.parts, p.1 ≠ o.id) (hdue : o.members.any (tilesDue s o) = false) :
    exec (.matrixComplete o.id) s = .next (stepFree (mxReported s o m0)) := by
  have hreqs : (s.mxReqs.any fun q => q.parts.any fun p => p.op == o.id) = false := by simpa using hgranted
  change execMatrixComplete o.id s = _
  unfold execMatrixComplete
  rw [hfind]
  dsimp only
  rw [if_neg (by simp [hstarted, hwithdrawn, hreqs, hdue]), mxReported, mxCompleted]
  simp only [hmembers]

theorem not_handler_mem_withVacant {k : Core} {x : Nat} {sc : Scope} {xs : List Nat} (h : handlerCtx ∉ xs) :
    handlerCtx ∉ withVacant k x sc xs := by
  intro hmem
  obtain hslots | hxs := List.mem_append.mp (List.mem_filter.mp hmem).1
  · exact absurd (mem_slotsOf.mp hslots).1 (lt_irrefl _)
  · exact h (List.mem_filter.mp hxs).1

theorem not_handler_mem_mxErrorReq (s : State) {o : MxOp} (hctx : ∀ n ∈ o.members, n.ctx ≠ 48) (m0 : MxMember) :
    handlerCtx ∉ (mxErrorReq s o m0).slots := by
  refine not_handler_mem_withVacant fun hmem => ?_
  obtain ⟨n, hn, heq⟩ := List.mem_map.mp hmem
  exact hctx n hn heq

/-- XM is raised at every member. -/
theorem mem_raised_mxReported {s : State} {o : MxOp} (hctx : ∀ n ∈ o.members, n.ctx ≠ 48)
    (hbad : o.members.any (mxStruck s o) = true) (m0 : MxMember) : ∃ r ∈ (getCore (mxReported s o m0) m0.core).raised,
      r.cls = 9 ∧ r.pc = o.pc ∧ r.slots = withVacant (getCore s m0.core) m0.ctx o.f.scope (o.members.map (·.ctx)) := by
  have hslots := not_handler_mem_mxErrorReq s hctx m0
  rw [mxReported, if_pos hbad, (raiseTrap_eq _ _ _).2.2.1 (by simpa using hslots)]
  exact ⟨_, List.mem_append_right _ (List.mem_singleton_self _), rfl, rfl, rfl⟩

theorem Shifts.results {g h : Group} (hs : Shifts g h) :
    h.mx = g.mx ∧ h.handles = g.handles ∧ ∀ r l, regAt h r l = regAt g r l := by
  rw [hs]
  exact ⟨rfl, rfl, fun _ _ => rfl⟩

/-- A trap that is not of the handler slot itself leaves memory, the pending matrix instructions, and registers, matrix flags and
handles of every group. -/
theorem raiseTrap_keeps_results {s : State} {r : TrapReq} (c : Nat) (hh : handlerCtx ∉ r.slots) :
    (raiseTrap s c r).mem = s.mem ∧ (raiseTrap s c r).spm = s.spm ∧ (raiseTrap s c r).mxOps = s.mxOps ∧
    ∀ d y, Shifts (getGroup s d y) (getGroup (raiseTrap s c r) d y) := by
  obtain ⟨honly, hcore⟩ := stateShifts_raiseTrap (c := c) (xs := r.slots) s hh fun _ h => h
  have heq := (raiseTrap_eq s c r).1
  refine ⟨by rw [heq], by rw [heq], by rw [heq], fun d y => ?_⟩
  by_cases hd : d = c
  · subst hd
    exact hcore.group y
  · rw [getGroup, getGroup, honly.2 d hd]
    exact Shifts.refl _

/-- What an operation's report leaves as it was. -/
theorem mxReported_keeps {s : State} {o : MxOp} {m0 : MxMember} (hctx : ∀ n ∈ o.members, n.ctx ≠ 48) :
    (mxReported s o m0).mem = (mxCompleted s o).mem ∧ (mxReported s o m0).spm = (mxCompleted s o).spm ∧
    (mxReported s o m0).mxOps = (mxCompleted s o).mxOps ∧
    ∀ d y, Shifts (getGroup (mxCompleted s o) d y) (getGroup (mxReported s o m0) d y) := by
  unfold mxReported
  split
  · exact raiseTrap_keeps_results m0.core (not_handler_mem_mxErrorReq s hctx m0)
  · exact ⟨rfl, rfl, rfl, fun _ _ => Shifts.refl _⟩

/-- One member's group among those that the engine writes: it is as it was until its own turn, and stays as it is afterwards. -/
theorem getGroup_mxCompleted (s : State) {o : MxOp} {pre post : List MxMember} {m : MxMember} (hmembers : o.members = pre ++ m :: post)
    (hne : ∀ n ∈ pre ++ post, (n.core, n.ctx) ≠ (m.core, m.ctx)) : ∃ u : State,
      SameOps (s.mxOps.filter (fun p => p.id != o.id)) u.mxOps ∧ getGroup u m.core m.ctx = getGroup s m.core m.ctx ∧
      getGroup (mxCompleted s o) m.core m.ctx =
        getGroup (mxWrite (mxMemberOut s o) (o.members.any (mxStruck s o)) o u m) m.core m.ctx := by
  have hat : ∀ ms : List MxMember, (∀ n ∈ ms, n ∈ pre ++ post) → (m.core, m.ctx) ∉ ms.map (fun n => (n.core, n.ctx)) := by
    intro ms hms hmem
    obtain ⟨n, hn, heq⟩ := List.mem_map.mp hmem
    exact hne n (hms n hn) heq
  have hpre := writesAt_foldl_mxWrite (mxMemberOut s o) (o.members.any (mxStruck s o)) o pre
    { s with mxOps := s.mxOps.filter (fun p => p.id != o.id) }
  refine ⟨_, hpre.ops, hpre.others _ _ (hat pre fun n hn => List.mem_append_left _ hn), ?_⟩
  rw [mxCompleted]
  generalize o.members.any (mxStruck s o) = bad
  rw [hmembers, List.foldl_append, List.foldl_cons]
  exact (writesAt_foldl_mxWrite _ bad o post _).others _ _ (hat post fun n hn => List.mem_append_right _ hn)

/-- What becomes of memory and of the pending matrix instructions. -/
theorem mxCompleted_keeps (s : State) (o : MxOp) : (mxCompleted s o).mem = s.mem ∧ (mxCompleted s o).spm = s.spm ∧
    ∀ p ∈ (mxCompleted s o).mxOps, p.id ≠ o.id := by
  have h := writesAt_foldl_mxWrite (mxMemberOut s o) (o.members.any (mxStruck s o)) o o.members
    { s with mxOps := s.mxOps.filter (fun p => p.id != o.id) }
  rw [← mxCompleted] at h
  exact ⟨h.same.1, h.same.2.1, h.ops.forall_id (P := (· ≠ o.id)) (by simp)⟩

/-! ### MATRIX_GRANT (R186) -/

theorem reenter_of_none_withdrawn {s : State} (h : ∀ o ∈ s.mxOps, o.withdrawn = false) (cl : Nat) : reenter s cl = s := by
  unfold reenter
  rw [List.filter_eq_nil_iff.mpr fun o ho => by simp [h o ho]]
  rfl

/-- The pass of a request is granted. -/
def granting (s : State) (r : MxReq) : State :=
  { s with mxReqs := s.mxReqs.erase r
           mxOps := s.mxOps.map (fun o => if r.parts.any (fun p => p.op == o.id) then { o with started := true } else o) }

theorem execMatrixGrant_eq {s : State} {cl : Nat} {r : MxReq} (h : ∀ o ∈ s.mxOps, o.withdrawn = false)
    (hbest : bestRequest (now s (cl * 4)) (s.mxReqs.filter (fun q => q.cluster == cl)) = some r) :
    exec (.matrixGrant cl) s = .next (granting s r) := by
  change execMatrixGrant cl s = _
  unfold execMatrixGrant
  dsimp only
  rw [reenter_of_none_withdrawn h, hbest]
  rfl

theorem started_granting {s : State} {r : MxReq} : ∀ o ∈ (granting s r).mxOps, (∃ p ∈ r.parts, p.op = o.id) → o.started = true := by
  intro o ho hpart
  obtain ⟨o', -, rfl⟩ := List.mem_map.mp ho
  split
  · rfl
  · rename_i hno
    rw [if_neg hno] at hpart
    exact absurd (by simpa using hpart) hno

/-! ### O32 -/

/-- Settles O32: a grant is one change of the two tables; a completion writes one member's group after another, each as it was
until its turn, and the trap that may follow changes no result; an element of integer products is followed through the tree and the
promotions with the sum that it has reached. -/
theorem matrixProgress : Obligations.matrix_progress := by
  unfold Obligations.matrix_progress
  refine ⟨⟨fun s cl r hno hbest => ⟨_, execMatrixGrant_eq hno hbest, rfl, rfl, rfl, rfl, started_granting⟩,
    fun s o pre post m hfind hstarted hwithdrawn hgranted hmembers hne hwd hctx => ?_⟩,
    fun l p as bs outer h hl hl512 _ _ => ?_⟩
  · intro bad others alone
    refine ⟨execMatrixComplete_of_due hfind, fun hdue => ?_⟩
    obtain ⟨m0, ms, hm0⟩ : ∃ m0 ms, o.members = m0 :: ms := List.exists_cons_of_ne_nil (by simp [hmembers])
    obtain ⟨hmem, hspm, hover⟩ := mxCompleted_keeps s o
    obtain ⟨hmem', hspm', hops', hshifts⟩ := mxReported_keeps (s := s) (m0 := m0) hctx
    obtain ⟨hmx', hhandles', hregs'⟩ := (hshifts m.core m.ctx).results
    obtain ⟨u, hops, hsame, hgroup⟩ := getGroup_mxCompleted s hmembers hne
    have hwidth : (getGroup u m.core m.ctx).width ≤ 64 := by
      have := Nat.pow_le_pow_right (n := 2) (by decide) hwd
      rw [hsame, Group.width]
      omega
    have hruns : mxRunsOf u m.core m.ctx = mxRunsOf others m.core m.ctx := SameOps.mxRunsOf_eq (s := others) hops _ _
    have hwritten := getGroup_mxWrite (mxMemberOut s o) bad o u m hwidth
    rw [← hgroup, hsame, hruns] at hwritten
    obtain ⟨hmx, hhandles, hword, hcells⟩ := hwritten
    refine ⟨_, execMatrixComplete_of_ready hm0 hfind hstarted hwithdrawn hgranted hdue, fun hbad n ns hn => ?_,
      hops' ▸ hover, hmem'.trans hmem, hspm'.trans hspm, hmx'.trans hmx, hhandles'.trans hhandles,
      fun d hd hop hr halone honly l hl => ?_, fun c hc honce halone hreg => ?_⟩
    · obtain ⟨rfl, -⟩ := List.cons.inj (hm0.symm.trans hn)
      exact mem_raised_mxReported hctx hbad m0
    · rw [← mxDoneWord_eq]
      exact (hregs' d.reg l).trans (hword d hd hop hr halone honly l hl)
    · exact (hregs' c.1 c.2.1).trans (hcells c hc honce halone hreg)
  · intro prods mags o hmag hfit hword
    simp only [mags, ← List.sum_eq_foldl] at hmag hfit
    have hexact := elemInt_exact (as := as) (bs := bs) (outer := outer) (p := p) hl hl512 h hmag hfit hword
    rwa [List.foldl_eq_apply_foldr]

end Sys2Proof.Proofs
end

section
/-! PROOFS. A matrix instruction enters the engine (R175, R176, R181, R183, R186): what becomes of its members' groups, and the
branches of its issue. -/

namespace Sys2Proof.Proofs
open Sys2Proof Sys2Proof.Machine Sys2Proof.Safety Sys2Proof.Laws

/-! ### A group for which a matrix instruction issues -/

/-- What becomes of such a group: results that are due land, registers that are used twice are undefined, and there may be a new
handle. -/
def Enters (g h : Group) : Prop :=
  h = { g with regs := h.regs, bad := h.bad, pend := h.pend, fpflags := h.fpflags, latchA := h.latchA, latchB := h.latchB,
               dones := h.dones, handles := h.handles }

theorem Enters.refl (g : Group) : Enters g g := rfl

theorem Enters.trans {g h k : Group} (h1 : Enters g h) (h2 : Enters h k) : Enters g k := by
  unfold Enters at h2 ⊢
  rw [h1] at h2
  exact h2

theorem enters_of_lands {g h : Group} (hl : Lands g h) : Enters g h := by
  unfold Enters
  rw [hl]

theorem Enters.keeps {g h : Group} (he : Enters g h) : keepsPlace { g with handles := h.handles } h := by
  rw [he]
  exact keepsPlace_refl _

/-! ### A state in which it issues for some groups of one core -/

/-- What becomes of the state when groups `xs` of core `c` take part in the issue. -/
structure StateEnters (c : Nat) (xs : List Nat) (s t : State) : Prop where
  writes : WritesAt (xs.map (fun x => (c, x))) s t
  group  : ∀ x, Enters (getGroup s c x) (getGroup t c x)

theorem StateEnters.refl (c : Nat) (xs : List Nat) (s : State) : StateEnters c xs s s := ⟨WritesAt.refl _ s, fun _ => Enters.refl _⟩

theorem StateEnters.trans {c : Nat} {xs : List Nat} {s t u : State} (h1 : StateEnters c xs s t) (h2 : StateEnters c xs t u) :
    StateEnters c xs s u := ⟨h1.writes.trans h2.writes, fun x => (h1.group x).trans (h2.group x)⟩

theorem StateEnters.mono {c x : Nat} {xs : List Nat} {s t : State} (h : StateEnters c [x] s t) (hx : x ∈ xs) : StateEnters c xs s t :=
  ⟨h.writes.mono (by simpa using hx), h.group⟩

theorem StateEnters.others {c x : Nat} {xs : List Nat} {s t : State} (h : StateEnters c xs s t) (hx : x ∉ xs) :
    getGroup t c x = getGroup s c x := h.writes.others c x (by simpa using hx)

theorem StateEnters.now_eq {c : Nat} {xs : List Nat} {s t : State} (h : StateEnters c xs s t) (d : Nat) : now t d = now s d := by
  rw [h.writes.rest]
  rfl

theorem stateEnters_updGroup (s : State) (c x : Nat) {h : Group → Group} (he : ∀ g, Enters g (h g)) :
    StateEnters c [x] s (updGroup s c x h) where
  writes := writesAt_updGroup ..
  group y := by
    rw [getGroup_updGroup]
    split
    case isTrue hy => rw [hy.2]; exact he _
    case isFalse => exact Enters.refl _

theorem stateEnters_foldl {c : Nat} {step : State → Nat → State} (hstep : ∀ s x, StateEnters c [x] s (step s x)) (xs : List Nat)
    (s : State) : StateEnters c xs s (xs.foldl step s) :=
  List.foldlRecOn xs _ (StateEnters.refl c xs s) fun t h x hx => h.trans ((hstep t x).mono hx)

/-! ### Registers that two pending instructions use (R183) -/

/-- Registers of a group become undefined. -/
def undefine (s : State) (c x : Nat) (rs : List Nat) (g : Group) : Group :=
  rs.foldl (fun g r => (List.range g.width).foldl (fun g l => setReg g r l (undefWord s c 14 x r l)) g) g

theorem enters_undefine (s : State) (c x : Nat) (rs : List Nat) (g : Group) : Enters g (undefine s c x rs g) :=
  List.foldlRecOn rs _ (motive := Enters g) (Enters.refl g) fun _ h _ _ =>
    List.foldlRecOn _ _ (motive := Enters g) h fun _ h _ _ => h.trans rfl

/-- One member's part of `spoilMeeting`. -/
def spoilShared (c op : Nat) (f : Fields) (s : State) (x : Nat) : State :=
  updGroup (spoilRuns s c x (sharedRegs s c x op f)) c x (undefine s c x (sharedRegs s c x op f))

theorem spoilMeeting_eq_foldl (s : State) (c : Nat) (xs : List Nat) (op : Nat) (f : Fields) :
    spoilMeeting s c xs op f = xs.foldl (spoilShared c op f) s := rfl

theorem getGroup_spoilRuns (s : State) (c x : Nat) (rs : List Nat) (d y : Nat) :
    getGroup (spoilRuns s c x rs) d y = getGroup s d y := by
  obtain ⟨ops, hops⟩ := spoilRuns_eq s c x rs
  rw [hops]
  rfl

theorem stateEnters_spoilShared (c op : Nat) (f : Fields) (s : State) (x : Nat) : StateEnters c [x] s (spoilShared c op f s x) :=
  StateEnters.trans ⟨writesAt_spoilRuns .., fun y => by rw [getGroup_spoilRuns]; exact Enters.refl _⟩
    (stateEnters_updGroup _ c x (enters_undefine s c x _))

/-- A register of both runs lies where they meet. -/
theorem runsMeet_of_mem {a n b m r : Nat} (h1 : a ≤ r) (h2 : r < a + n) (h3 : b ≤ r) (h4 : r < b + m) : runsMeet a n b m = true := by
  simp only [runsMeet, Bool.and_eq_true, decide_eq_true_eq]
  omega

theorem sharedRegs_of_apart {s : State} {c x op : Nat} {f : Fields}
    (h : ∀ r ∈ mxRunsOf s c x, ∀ b ∈ mxRuns op f, runsMeet b.1 b.2 r.2.1 r.2.2.1 = false) : sharedRegs s c x op f = [] := by
  unfold sharedRegs
  rw [List.flatMap_eq_nil_iff]
  intro b hb
  rw [List.filter_eq_nil_iff]
  intro r hr hany
  obtain ⟨i, hi, rfl⟩ := List.mem_map.mp hr
  obtain ⟨q, hq, hin⟩ := List.any_eq_true.mp hany
  simp only [inRun, Bool.and_eq_true, decide_eq_true_eq] at hin
  rw [List.mem_range] at hi
  have hmeet := runsMeet_of_mem (a := b.1) (n := b.2) (by omega) (by omega) hin.1 hin.2
  rw [h q hq b hb] at hmeet
  cases hmeet

/-- A group whose pending instructions use none of the registers stays as it was. -/
theorem getGroup_spoilMeeting_of_apart {s : State} {c x op : Nat} {f : Fields}
    (h : ∀ r ∈ mxRunsOf s c x, ∀ b ∈ mxRuns op f, runsMeet b.1 b.2 r.2.1 r.2.2.1 = false) (xs : List Nat) :
    getGroup (spoilMeeting s c xs op f) c x = getGroup s c x := by
  rw [spoilMeeting_eq_foldl]
  refine (List.foldlRecOn xs (spoilShared c op f)
    (motive := fun t : State => SameOps s.mxOps t.mxOps ∧ getGroup t c x = getGroup s c x)
    ⟨SameOps.refl _, rfl⟩ fun t ht y _ => ⟨ht.1.trans (stateEnters_spoilShared c op f t y).writes.ops, ?_⟩).2
  by_cases hy : x = y
  · subst hy
    have hnone : sharedRegs t c x op f = [] := sharedRegs_of_apart (by rw [ht.1.mxRunsOf_eq]; exact h)
    rw [spoilShared, getGroup_updGroup_same, getGroup_spoilRuns, hnone]
    exact ht.2
  · rw [(stateEnters_spoilShared c op f t y).others (by simpa using hy)]
    exact ht.2

/-! ### Results in flight to its registers (R183) -/

/-- One member's part of the marks that an issue leaves on results in flight. -/
def markedPends (s : State) (c op : Nat) (f : Fields) (x : Nat) (ps : List Pend) : List Pend :=
  ps.map (fun p => { p with cells := p.cells.map (fun q =>
    (q.1, if inRuns (mxRuns op f) (q.1 / 64) then undefWord s c 15 x (q.1 / 64) (q.1 % 64) else q.2)) })

theorem marInFlight_eq (s : State) (c op : Nat) (f : Fields) (x : Nat) : marInFlight s c op f x = updGroup s c x (fun g =>
    { landDue (now s c) g with pend := markedPends s c op f x (landDue (now s c) g).pend }) := rfl

theorem stateEnters_marInFlight (c op : Nat) (f : Fields) (s : State) (x : Nat) : StateEnters c [x] s (marInFlight s c op f x) := by
  rw [marInFlight_eq]
  exact stateEnters_updGroup s c x fun g => (enters_of_lands (lands_landDue (now s c) g)).trans rfl

/-- A group as it was, or with its results that are due written and none left. -/
def DueLanded (n : Nat) (g h : Group) : Prop :=
  h = g ∨ h.regs = (landDue n g).regs ∧ h.fpflags = (landDue n g).fpflags ∧ ∀ p ∈ h.pend, isDue n p = false

theorem DueLanded.keepsValues {n : Nat} {g h : Group} (hs : DueLanded n g h) : keepsValues n g h := by
  obtain rfl | ⟨hregs, hflags, -⟩ := hs
  · exact .inl ⟨rfl, rfl⟩
  · exact .inr ⟨hregs, hflags⟩

theorem dueLanded_marInFlight {s : State} {c x : Nat} {g : Group} (h : DueLanded (now s c) g (getGroup s c x)) (op : Nat) (f : Fields)
    (y : Nat) : DueLanded (now s c) g (getGroup (marInFlight s c op f y) c x) := by
  by_cases hy : x = y
  · subst hy
    have hnone : ∀ k : Group, ∀ p ∈ markedPends s c op f x (landDue (now s c) k).pend, isDue (now s c) p = false := by
      intro k p hp
      obtain ⟨p, hmem, rfl⟩ := List.mem_map.mp hp
      exact none_due_landDue _ _ p hmem
    rw [marInFlight_eq, getGroup_updGroup_same]
    refine .inr ?_
    obtain heq | ⟨hregs, hflags, hdue⟩ := h
    · rw [heq]
      exact ⟨rfl, rfl, hnone g⟩
    · refine ⟨?_, ?_, hnone _⟩
      · rw [landDue_of_none_due hdue]
        exact hregs
      · rw [landDue_of_none_due hdue]
        exact hflags
  · rw [(stateEnters_marInFlight c op f s y).others (by simpa using hy)]
    exact h

theorem dueLanded_foldl_marInFlight (s : State) (c op : Nat) (f : Fields) (xs : List Nat) (x : Nat) :
    DueLanded (now s c) (getGroup s c x) (getGroup (xs.foldl (fun s x => marInFlight s c op f x) s) c x) := by
  refine (List.foldlRecOn xs _ (motive := fun t => now t c = now s c ∧ DueLanded (now s c) (getGroup s c x) (getGroup t c x))
    ⟨rfl, .inl rfl⟩ fun t ht y _ => ⟨((stateEnters_marInFlight c op f t y).now_eq c).trans ht.1, ?_⟩).2
  have h := ht.2
  rw [← ht.1] at h ⊢
  exact dueLanded_marInFlight h op f y

/-! ### D becomes pending (R182, R192) -/

theorem stateEnters_addHandle (c r op : Nat) (s : State) (x : Nat) : StateEnters c [x] s (addHandle s c x r op) := by
  unfold addHandle
  split
  · exact StateEnters.refl ..
  · exact stateEnters_updGroup s c x fun _ => rfl

/-- D becomes pending for an operation in some groups. -/
def addHandles (s : State) (c : Nat) (xs : List Nat) (r op : Nat) : State := xs.foldl (fun s x => addHandle s c x r op) s

theorem stateEnters_addHandles (s : State) (c : Nat) (xs : List Nat) (r op : Nat) : StateEnters c xs s (addHandles s c xs r op) :=
  stateEnters_foldl (stateEnters_addHandle c r op) xs s

theorem addHandle_keeps (s : State) (c x r op : Nat) : (addHandle s c x r op).mxOps = s.mxOps ∧
    ∀ y, (getGroup (addHandle s c x r op) c y).regs = (getGroup s c y).regs ∧
      (getGroup (addHandle s c x r op) c y).fpflags = (getGroup s c y).fpflags := by
  unfold addHandle
  split
  · exact ⟨rfl, fun _ => ⟨rfl, rfl⟩⟩
  · refine ⟨rfl, fun y => ?_⟩
    rw [getGroup_updGroup]
    split
    case isTrue hy => rw [hy.2]; exact ⟨rfl, rfl⟩
    case isFalse => exact ⟨rfl, rfl⟩

theorem addHandles_keeps (s : State) (c : Nat) (xs : List Nat) (r op : Nat) : (addHandles s c xs r op).mxOps = s.mxOps ∧
    ∀ y, (getGroup (addHandles s c xs r op) c y).regs = (getGroup s c y).regs ∧
      (getGroup (addHandles s c xs r op) c y).fpflags = (getGroup s c y).fpflags :=
  List.foldlRecOn xs _ (motive := fun t => t.mxOps = s.mxOps ∧ ∀ y, (getGroup t c y).regs = (getGroup s c y).regs ∧
    (getGroup t c y).fpflags = (getGroup s c y).fpflags) ⟨rfl, fun _ => ⟨rfl, rfl⟩⟩ fun t ht x _ => by
      obtain ⟨hops, hgroups⟩ := addHandle_keeps t c x r op
      exact ⟨hops.trans ht.1, fun y => ⟨(hgroups y).1.trans (ht.2 y).1, (hgroups y).2.trans (ht.2 y).2⟩⟩

theorem mem_handles_addHandles {c x r op : Nat} (hr : r ≠ vnull) (xs : List Nat) : ∀ s : State, x ∈ xs →
    ⟨r, op⟩ ∈ (getGroup (addHandles s c xs r op) c x).handles := by
  induction xs with
  | nil => exact fun _ h => absurd h List.not_mem_nil
  | cons y ys ih =>
    intro s hx
    change _ ∈ (getGroup (addHandles (addHandle s c y r op) c ys r op) c x).handles
    by_cases hys : x ∈ ys
    · exact ih _ hys
    · obtain rfl : x = y := (List.mem_cons.mp hx).resolve_right hys
      rw [(stateEnters_addHandles _ c ys r op).others hys, addHandle, if_neg hr, getGroup_updGroup_same]
      exact List.mem_append_right _ (List.mem_singleton_self _)

/-! ### The operation enters the engine -/

/-- What the engine reads has not been handed over, or another pending instruction uses it (R181, R183). -/
def mxStale (s : State) (c : Nat) (xs : List Nat) (op : Nat) (f : Fields) (o : MxOp) : Bool :=
  readsPending s c xs op f || o.members.any (fun m => !Machine.handedOver s c op f m)

/-- The members' groups as the engine takes the operation. -/
def mxTaken (s : State) (c : Nat) (xs : List Nat) (op : Nat) (f : Fields) : State :=
  xs.foldl (fun s x => marInFlight s c op f x) (spoilMeeting s c xs op f)

/-- The operation and its requests stand in the engine's tables. -/
def mxListed (s : State) (c : Nat) (xs : List Nat) (op : Nat) (f : Fields) (o : MxOp) : State :=
  let s1 := mxTaken s c xs op f
  { s1 with serial := s1.serial + 1, mxReqs := enterRequests s o s.mxReqs
            mxOps := s1.mxOps ++ [{ o with stale := mxStale s c xs op f o }] }

/-- The state once an operation has entered. -/
def mxEntered (s : State) (c : Nat) (xs : List Nat) (op : Nat) (f : Fields) (o : MxOp) : State :=
  addHandles (mxListed s c xs op f o) c xs f.d.toNat o.id

theorem stateEnters_mxTaken (s : State) (c : Nat) (xs : List Nat) (op : Nat) (f : Fields) : StateEnters c xs s (mxTaken s c xs op f) :=
  (stateEnters_foldl (stateEnters_spoilShared c op f) xs s).trans (stateEnters_foldl (stateEnters_marInFlight c op f) xs _)

/-- Groups that no pending instruction uses the same registers of keep their values. -/
theorem keepsValues_mxTaken {s : State} {c x op : Nat} {f : Fields}
    (h : ∀ r ∈ mxRunsOf s c x, ∀ b ∈ mxRuns op f, runsMeet b.1 b.2 r.2.1 r.2.2.1 = false) (xs : List Nat) :
    keepsValues (now s c) (getGroup s c x) (getGroup (mxTaken s c xs op f) c x) := by
  have hs := dueLanded_foldl_marInFlight (spoilMeeting s c xs op f) c op f xs x
  rw [getGroup_spoilMeeting_of_apart h xs, spoilMeeting_eq_foldl,
    (stateEnters_foldl (stateEnters_spoilShared c op f) xs s).now_eq c] at hs
  exact hs.keepsValues

/-- What the entry of an operation does: the tables, and each member's group. -/
theorem mxEntered_gives (s : State) (c : Nat) (xs : List Nat) (op : Nat) (f : Fields) (o : MxOp) :
    let t := mxEntered s c xs op f o
    { o with stale := mxStale s c xs op f o } ∈ t.mxOps ∧ t.mxReqs = enterRequests s o s.mxReqs ∧ t.mem = s.mem ∧ t.spm = s.spm ∧
    (∀ x, (∀ r ∈ mxRunsOf s c x, ∀ b ∈ mxRuns op f, runsMeet b.1 b.2 r.2.1 r.2.2.1 = false) →
      keepsValues (now s c) (getGroup s c x) (getGroup t c x)) ∧
    (∀ x, keepsPlace { getGroup s c x with handles := (getGroup t c x).handles } (getGroup t c x)) ∧
    (∀ x, x ∉ xs → getGroup t c x = getGroup s c x) ∧
    ∀ x ∈ xs, f.d ≠ 1023 → ⟨f.d.toNat, o.id⟩ ∈ (getGroup t c x).handles := by
  intro t
  have htaken := stateEnters_mxTaken s c xs op f
  have hadded := stateEnters_addHandles (mxListed s c xs op f o) c xs f.d.toNat o.id
  obtain ⟨hops, hregs⟩ := addHandles_keeps (mxListed s c xs op f o) c xs f.d.toNat o.id
  obtain ⟨hmem, hspm, -⟩ := htaken.writes.same
  obtain ⟨hmem', hspm', hreqs'⟩ := hadded.writes.same
  refine ⟨?_, hreqs', hmem'.trans hmem, hspm'.trans hspm, fun x hx => ?_, fun x => ((htaken.group x).trans (hadded.group x)).keeps,
    fun x hx => (hadded.others hx).trans (htaken.others hx), fun x hx hd => mem_handles_addHandles (mt toNat_eq_vnull.mp hd) xs _ hx⟩
  · rw [show t.mxOps = _ from hops]
    exact List.mem_append_right _ (List.mem_singleton_self _)
  · obtain ⟨h1, h2⟩ := hregs x
    unfold keepsValues
    rw [show (getGroup t c x).regs = _ from h1, show (getGroup t c x).fpflags = _ from h2]
    exact keepsValues_mxTaken hx xs

/-! ### The branches of an issue (R175, R176, R186, R193) -/

section
variable {i : Instr} {op c : Nat} {f : Fields} {pc : Dword} {xv : Nat → List Half} {ms : Members} {ts : List TileRef} {s : State}

theorem mxIssue_of_pending (hc : s.cur.1 = c) {y : Nat} (hy : pendingSlot (getCore s c) f.d.toNat (issueSlots ms) = some y) :
    mxIssue i op f pc xv ms ts s = hxTrap f pc (suspends ms) y s := by
  subst hc
  unfold mxIssue
  dsimp only
  rw [hy]

theorem mxIssue_of_idle (hc : s.cur.1 = c) (hp : pendingSlot (getCore s c) f.d.toNat (issueSlots ms) = none)
    (hidle : ∀ m ∈ ms, octetsOf ((getCore s c).group m.slot) m.exec = [])
    (hst : stagesOk s (c / 4) (tenantOf s c ((issueSlots ms).headD 0)) f.imm = true) : mxIssue i op f pc xv ms ts s =
      .ok ((issueSlots ms).foldl (fun s x => writeAllLanes s c x f.d.toNat 0x83000000) s) := by
  subst hc
  have hnone : (ms.all fun m => (octetsOf ((getCore s s.cur.1).group m.slot) m.exec).isEmpty) = true :=
    List.all_eq_true.mpr fun m hm => by rw [hidle m hm]; rfl
  unfold mxIssue
  dsimp only
  rw [hp]
  dsimp only
  rw [if_pos hnone, show clusterOf s.cur.1 = s.cur.1 / 4 from rfl, if_pos hst]
  rfl

/-- Some octet takes part, and the members have room. -/
theorem mxIssue_of_room (hc : s.cur.1 = c) (hp : pendingSlot (getCore s c) f.d.toNat (issueSlots ms) = none)
    (hsome : ¬ ∀ m ∈ ms, octetsOf ((getCore s c).group m.slot) m.exec = [])
    (hroom : ∀ x ∈ issueSlots ms, ((getCore s c).group x).handles.length < 16 ∧ inFlight31 s c x = true) :
    (∀ t cls, checkTiles s c ts = .error (t, cls) →
      mxIssue i op f pc xv ms ts s = tileTrap i f pc xv ms ts t.slot (8 * t.octet) cls (t.sa.setWidth 64) s) ∧
    ∀ tiles, checkTiles s c ts = .ok tiles → stagesOk s (c / 4) (tenantOf s c ((issueSlots ms).headD 0)) f.imm = true →
      tableRoom (enterRequests s (mxOpOf s c op f pc xv ms tiles) s.mxReqs) (c / 4) = true →
        mxIssue i op f pc xv ms ts s = .ok (mxEntered s c (issueSlots ms) op f (mxOpOf s c op f pc xv ms tiles)) := by
  subst hc
  have hnone : ¬ (ms.all fun m => (octetsOf ((getCore s s.cur.1).group m.slot) m.exec).isEmpty) = true := fun h =>
    hsome fun m hm => List.isEmpty_iff.mp (List.all_eq_true.mp h m hm)
  have hfull : ¬ ((issueSlots ms).any fun x =>
      decide (16 ≤ ((getCore s s.cur.1).group x).handles.length) || !inFlight31 s s.cur.1 x) = true := by
    simpa using fun x hx => hroom x hx
  refine ⟨fun t cls htiles => ?_, fun tiles htiles hst htable => ?_⟩
  · unfold mxIssue
    dsimp only
    rw [hp]
    dsimp only
    rw [if_neg hnone, if_neg hfull, htiles]
  · unfold mxIssue
    dsimp only
    rw [hp]
    dsimp only
    rw [if_neg hnone, if_neg hfull, htiles]
    dsimp only
    rw [show clusterOf s.cur.1 = s.cur.1 / 4 from rfl, if_neg (by rw [hst]; decide), if_neg (by rw [htable]; decide)]
    rfl

end

end Sys2Proof.Proofs
end

section
/-! PROOFS. Matrix instructions complete (O33): the issue of MMA, MMAS and MMAT, OPRDY, ACTLD, extra values and flags. -/

namespace Sys2Proof.Proofs
open Sys2Proof Sys2Proof.Machine Sys2Proof.Safety Sys2Proof.Laws

/-! ### MMA, MMAS and MMAT (R175, R176) -/

/-- The extra values of the issuing core's groups (R189). -/
def issueXv (q : Issue) (x : Nat) : List Half := ((getCore q.s1 q.core).group x).xv

/-- The tile references of an issue (R176). -/
def issueRefs (q : Issue) (f : Fields) : List TileRef :=
  (q.members f).flatMap (fun m => (octetsOf ((getCore q.s1 q.core).group m.slot) m.exec).map (fun n =>
    ⟨m.slot, n, (operandsOf q.s1 q.core f m.slot (8 * n)).b⟩))

theorem xvOf_eq {q : Issue} (hcur : q.s1.cur.1 = q.core) : xvOf q.s1 = issueXv q := by
  funext x
  rw [xvOf, hcur]
  rfl

theorem tileRefs_eq {q : Issue} (hcur : q.s1.cur.1 = q.core) (f : Fields) : tileRefs q.s1 f (q.members f) = issueRefs q f := by
  rw [tileRefs, hcur]
  rfl

theorem exec_mma {f : Fields} {q : Issue} (h : Ready 0x2C0 f q) : exec (.mma f) q.s =
    .next (settled q f (mxIssue (.mma f) 0x2C0 f q.e.pc (issueXv q) (q.members f) [] q.s1)) := by
  rw [← xvOf_eq (core_of_ready h)]
  exact issue_of_ready _ h

theorem exec_mmas {f : Fields} {q : Issue} (h : Ready 0x2C1 f q) : exec (.mmas f) q.s =
    .next (settled q f (mxIssue (.mmas f) 0x2C1 f q.e.pc (issueXv q) (q.members f) (issueRefs q f) q.s1)) := by
  rw [← xvOf_eq (core_of_ready h), ← tileRefs_eq (core_of_ready h)]
  exact issue_of_ready _ h

theorem exec_mmat {f : Fields} {q : Issue} (h : Ready 0x2C2 f q) : exec (.mmat f) q.s =
    .next (settled q f (mxIssue (.mmat f) 0x2C2 f q.e.pc (issueXv q) (q.members f) (issueRefs q f) q.s1)) := by
  rw [← xvOf_eq (core_of_ready h), ← tileRefs_eq (core_of_ready h)]
  exact issue_of_ready _ h

/-! ### OPRDY (R181) -/

/-- Members hand over one after another, each at a place of its own. -/
theorem foldl_handOver (c : Nat) (xs : List Nat) : ∀ s : State, onlyCore c s (xs.foldl (handOver c) s) ∧
    (xs.foldl (handOver c) s).serial = s.serial + xs.length ∧
    (∀ x, x ∉ xs → getGroup (xs.foldl (handOver c) s) c x = getGroup s c x) ∧
    ∀ x ∈ xs, ∃ n, s.serial ≤ n ∧ n < s.serial + xs.length ∧ getGroup (xs.foldl (handOver c) s) c x =
      { getGroup s c x with dirty := [], handed := ownSeen c x n (getGroup s c x) } := by
  induction xs with
  | nil => exact fun s => ⟨onlyCore_refl c s, rfl, fun _ _ => rfl, by simp⟩
  | cons y ys ih =>
    intro s
    have hfirst : ∀ x, getGroup (handOver c s y) c x =
        if x = y then { getGroup s c y with dirty := [], handed := ownSeen c y s.serial (getGroup s c y) } else getGroup s c x := by
      intro x
      rw [handOver, getGroup_updGroup]
      simp only [true_and]
      rfl
    have hserial : (handOver c s y).serial = s.serial + 1 := rfl
    obtain ⟨honly, hnext, hothers, hmine⟩ := ih (handOver c s y)
    rw [List.foldl_cons, List.length_cons]
    have hstep : onlyCore c s (handOver c s y) :=
      onlyCore_trans (t := { s with serial := s.serial + 1 }) ⟨rfl, fun _ _ => rfl⟩ (onlyCore_updGroup ..)
    refine ⟨onlyCore_trans hstep honly, by omega, fun x hx => ?_, fun x hx => ?_⟩
    · rw [List.mem_cons, not_or] at hx
      rw [hothers x hx.2, hfirst, if_neg hx.1]
    · by_cases hys : x ∈ ys
      · obtain ⟨n, hle, hlt, heq⟩ := hmine x hys
        refine ⟨n, by omega, by omega, ?_⟩
        rw [heq, hfirst]
        split
        case isTrue hxy => rw [hxy]; rfl
        case isFalse => rfl
      · obtain rfl : x = y := (List.mem_cons.mp hx).resolve_right hys
        exact ⟨s.serial, le_rfl, by omega, by rw [hothers x hys, hfirst, if_pos rfl]⟩

theorem exec_oprdy {f : Fields} {q : Issue} (h : Ready 0x2C3 f q)
    (hready : ∀ x ∈ issueSlots (q.members f), oprdyReady q.s1 q.core x = true) :
    exec (.oprdy f) q.s = .next (q.onward f ((issueSlots (q.members f)).foldl (handOver q.core) q.s1)) := by
  have hperform : performOprdy f q.e.pc (q.members f) q.s1 = .ok ((issueSlots (q.members f)).foldl (handOver q.core) q.s1) := by
    unfold performOprdy
    dsimp only
    rw [core_of_ready h]
    exact if_neg (by simpa using hready)
  exact (issue_of_ready _ h).trans (by rw [hperform]; rfl)

/-! ### ACTLD (R188) -/

/-- The address that ACTLD checks. -/
def actldAddr (q : Issue) (f : Fields) (x l : Nat) : Word := (operandsOf q.s1 q.core f x l).a + f.imm

theorem exec_actld {f : Fields} {q : Issue} {x l : Nat} (hscalar : q.scalar f x l) (h : Ready 0x2C4 f q) :
    exec (.actld f) q.s = .next (settled q f (actldAt f q.e.pc (q.members f) x (actldAddr q f x l) q.s1)) := by
  have hperform : performActld f q.e.pc (q.members f) q.s1 = actldAt f q.e.pc (q.members f) x (actldAddr q f x l) q.s1 := by
    have hlane : scalarLane (q.members f) = some (x, l) := hscalar
    unfold performActld
    rw [hlane, core_of_ready h]
    rfl
  exact (issue_of_ready _ h).trans (by rw [hperform])

/-- The trap of a table or bias image that fails a check. -/
def actldTrap (q : Issue) (f : Fields) (sa : Word) (cls : Nat) : Res :=
  scalarTrap (.actld f) f q.e.pc 5 cls (sa.setWidth 64) (q.members f) (fun l w => putWord64 w l 6 (sa.setWidth 64)) q.s1

section
variable {f : Fields} {q : Issue} {x : Nat} {sa : Word}

/-- ACTLD goes on to its checks (R188): the group's scratchpad writes are done, and no pending instruction names the image. -/
structure ActldGoes (f : Fields) (q : Issue) (x : Nat) : Prop where
  cur    : q.s1.cur.1 = q.core
  stores : ∀ it ∈ ((getCore q.s1 q.core).group x).storeq, it.spm = false
  flight : ∀ w ∈ (getCore q.s1 q.core).flight, w.ctx = x → w.item.spm = false
  named  : namedByPending q.s1 (q.core / 4) f.sub.toNat = false

theorem ActldGoes.no_wait (h : ActldGoes f q x) : (((getCore q.s1 q.core).group x).storeq.any (·.spm) ||
    ((getCore q.s1 q.core).flight.any fun w => w.ctx == x && w.item.spm) ||
    namedByPending q.s1 (clusterOf q.core) f.sub.toNat) = false := by
  have hstores := h.stores
  have hflight := h.flight
  have hnamed : namedByPending q.s1 (clusterOf q.core) f.sub.toNat = false := h.named
  simpa [hnamed] using ⟨hstores, hflight⟩

/-- The state once ACTLD has read an image at a key. -/
def actldRead (q : Issue) (f : Fields) (key : Nat) : State :=
  let ws := bytesToWords (readBytes q.s1.spm key (imageLen f.sub.toNat))
  if f.sub.toNat < 4 then { q.s1 with tables := mset [] q.s1.tables (q.core / 4 * 4 + f.sub.toNat) ws }
  else { q.s1 with biases := mset [] q.s1.biases (q.core / 4 * 4 + (f.sub.toNat - 4)) ws }

/-- The checks of ACTLD after that of its span. -/
theorem actldAt_of_key (h : ActldGoes f q x) {key : Nat}
    (hkey : checkSpan q.s1 q.core (tenantOf q.s1 q.core x) 16 (imageLen f.sub.toNat) sa = .ok key) :
    actldAt f q.e.pc (q.members f) x sa q.s1 =
      if tableTag q.s1 (q.core / 4) (f.sub.toNat % 4) ≠ tenantOf q.s1 q.core x then actldTrap q f sa 6
      else if struckSpm q.s1 key (imageLen f.sub.toNat) then actldTrap q f sa 9 else .ok (actldRead q f key) := by
  unfold actldAt actldRead
  dsimp only
  rw [h.cur, if_neg (Bool.eq_false_iff.mp h.no_wait), show clusterOf q.core = q.core / 4 from rfl, hkey]
  by_cases hsub : f.sub.toNat < 4
  · simp only [hsub, if_true]
    rfl
  · simp only [hsub, if_false]
    rfl

theorem actldAt_of_error (h : ActldGoes f q x) {cls : Nat}
    (hkey : checkSpan q.s1 q.core (tenantOf q.s1 q.core x) 16 (imageLen f.sub.toNat) sa = .error cls) :
    actldAt f q.e.pc (q.members f) x sa q.s1 = actldTrap q f sa cls := by
  unfold actldAt
  dsimp only
  rw [h.cur, if_neg (Bool.eq_false_iff.mp h.no_wait), hkey]
  rfl

end

/-- Such a trap says what failed, and changes no table. -/
theorem settled_actldTrap (q : Issue) (f : Fields) (sa : Word) (cls : Nat) : ∃ req s1,
    settled q f (actldTrap q f sa cls) = q.trapped f true req s1 ∧ req.cls = cls ∧ req.info = 5 ∧ req.addr = sa.setWidth 64 ∧
    req.slots = suspends (q.members f) ∧ s1.tables = q.s1.tables ∧ s1.biases = q.s1.biases :=
  ⟨_, _, rfl, rfl, rfl, rfl, rfl, rfl, rfl⟩

/-! ### XVSET and MXSTAT (R189, R190) -/

theorem exec_xvset {f : Fields} {q : Issue} {x l : Nat} (hscalar : q.scalar f x l) (h : Ready 0x2C5 f q) :
    exec (.xvset f) q.s = .next (q.onward f (updGroup q.s1 q.core x (fun g =>
      { g with xv := g.xv.set f.sub.toNat ((operandsOf q.s1 q.core f x l).a.setWidth 16) }))) := by
  have hperform : performXvset f q.e.pc (q.members f) q.s1 = .ok (updGroup q.s1 q.core x (fun g =>
      { g with xv := g.xv.set f.sub.toNat ((operandsOf q.s1 q.core f x l).a.setWidth 16) })) := by
    have hlane : scalarLane (q.members f) = some (x, l) := hscalar
    unfold performXvset
    rw [hlane, core_of_ready h]
    rfl
  exact (issue_of_ready _ h).trans (by rw [hperform]; rfl)

theorem exec_xvsetRd {f : Fields} {q : Issue} (h : Ready 0x2C5 f q) :
    exec (.xvsetRd f) q.s = .next (q.onward f (postResults q.s1 q.core f (q.members f) none 1
      (fun t x _ => [((getGroup t q.core x).xv.getD f.sub.toNat 0).setWidth 32]))) := by
  rw [← core_of_ready h]
  exact issue_of_ready _ h

theorem exec_mxstat {f : Fields} {q : Issue} (h : Ready 0x2C6 f q) (hx : q.executes f)
    (hdone : ∀ x ∈ issueSlots (q.members f), ∀ d ∈ ((getCore q.s1 q.core).group x).handles, ∀ o ∈ q.s1.mxOps, o.id ≠ d.op) :
    let read := postResults q.s1 q.core f (q.members f) none 1 (fun t x _ => [(getGroup t q.core x).mx.setWidth 32])
    exec (.mxstat f) q.s = .next (q.onward f (if f.mod = 1 then
      (issueSlots (q.members f)).foldl (fun s x => updGroup s q.core x (fun g => { g with mx := 0 })) read else read)) := by
  intro read
  have hnone : ((issueSlots (q.members f)).any fun x => (getGroup q.s1 q.core x).handles.any fun d =>
      q.s1.mxOps.any fun o => o.id == d.op) = false := by simpa [getGroup] using hdone
  have hperform : performMxstat f q.e.pc (q.members f) q.s1 = .ok (if f.mod = 1 then
      (issueSlots (q.members f)).foldl (fun s x => updGroup s q.core x (fun g => { g with mx := 0 })) read else read) := by
    unfold performMxstat
    dsimp only
    rw [core_of_ready h, if_neg (by rw [show (List.all (q.members f) fun m => m.exec == 0) = false from hx]; decide), hnone]
    rfl
  exact (issue_of_ready _ h).trans (by rw [hperform]; rfl)

/-! ### O33 -/

/-- Settles O33: the three forms share one issue, whose branches are taken in the order of its tests; an operation that enters is
followed through its members' groups; the other instructions are each one update, or the checks of one address. -/
theorem matrixInstructions : Obligations.matrix_instructions := by
  unfold Obligations.matrix_instructions
  refine ⟨fun f q => ?_, fun f q => ?_⟩
  · intro k xs cl stages idle made issued refs
    have hissued : q.s1.cur.1 = q.core → ∀ i op ts, issued op ts (.next (settled q f (mxIssue i op f q.e.pc
        (issueXv q) (q.members f) ts q.s1))) := by
      intro hcur i op ts
      refine ⟨fun y hy => by rw [mxIssue_of_pending hcur hy]; rfl, fun hp => ⟨fun hidle hst => ?_, fun hsome hroom => ?_⟩⟩
      · rw [mxIssue_of_idle hcur hp hidle hst]
        rfl
      · obtain ⟨hbad, hgood⟩ := mxIssue_of_room (i := i) (op := op) (pc := q.e.pc) (xv := issueXv q) (ts := ts) hcur hp
          hsome hroom
        refine ⟨fun t cls hts => ?_, fun tiles hts hst htable => ?_⟩
        · rw [hbad t cls hts]
          exact ⟨_, _, rfl, rfl, rfl, rfl, rfl, rfl, rfl⟩
        · rw [hgood tiles hts hst htable]
          obtain ⟨hmem, hreqs, hm, hspm, hvalues, hplace, hothers, hhandles⟩ := mxEntered_gives q.s1 q.core xs op f (made op tiles)
          exact ⟨_, _, rfl, hmem, rfl, rfl, rfl, rfl, rfl, rfl, hreqs, hm, hspm, hvalues, fun x _ => hplace x, hothers, hhandles⟩
    refine ⟨fun h => ?_, fun h => ?_, fun h => ?_⟩
    · rw [exec_mma h]
      exact hissued (core_of_ready h) ..
    · rw [exec_mmas h]
      exact hissued (core_of_ready h) ..
    · rw [exec_mmat h]
      exact hissued (core_of_ready h) ..
  · intro xs k cl sub
    refine ⟨fun hready h => ?_, fun x l hscalar => ⟨fun h => ?_, exec_xvset hscalar⟩, exec_xvsetRd, fun h hx hdone =>
      exec_mxstat h hx hdone⟩
    · obtain ⟨honly, hserial, hothers, hmine⟩ := foldl_handOver q.core xs q.s1
      exact ⟨_, exec_oprdy h hready, honly, hothers, fun x hx => by rw [hserial]; exact hmine x hx⟩
    · intro sa t bytes hstores hflight hnamed traps
      have hgoes : ActldGoes f q x := ⟨core_of_ready h, hstores, hflight, hnamed⟩
      have htraps : ∀ cls, actldAt f q.e.pc (q.members f) x sa q.s1 = actldTrap q f sa cls → traps cls := by
        intro cls hcls
        obtain ⟨req, s1, hsettled, hrest⟩ := settled_actldTrap q f sa cls
        exact ⟨req, s1, by rw [exec_actld hscalar h, ← hsettled, ← hcls]; rfl, hrest⟩
      refine ⟨fun key hkey htag hclean => ?_, fun cls hcls => htraps cls (actldAt_of_error hgoes hcls),
        fun key hkey htag => htraps 6 ?_, fun key hkey htag hstruck => htraps 9 ?_⟩
      · have hread : actldAt f q.e.pc (q.members f) x (actldAddr q f x l) q.s1 = .ok (actldRead q f key) :=
          (actldAt_of_key hgoes hkey).trans ((if_neg (not_not.mpr htag)).trans (if_neg (Bool.eq_false_iff.mp hclean)))
        rw [exec_actld hscalar h, hread]
        rfl
      · exact (actldAt_of_key hgoes hkey).trans (if_pos htag)
      · exact (actldAt_of_key hgoes hkey).trans ((if_neg (not_not.mpr htag)).trans (if_pos hstruck))

end Sys2Proof.Proofs
end
